-- ==== Sys2Proof/Word.lean ====
section
/-! DEFINITION. Word types of the DZ7 (R3: bytes of 8 bits, words little-endian) and the plainest helpers on them. -/

namespace Sys2Proof

/-- A byte of memory. -/
abbrev Byte := BitVec 8
/-- A 32-bit slot word, lane or K word. -/
abbrev Word := BitVec 32
/-- A 64-bit scalar register. -/
abbrev DWord := BitVec 64
/-- A 48-bit virtual address (R34). -/
abbrev VAddr := BitVec 48
/-- A vector register: 32 lanes of 32 bits, lane 0 in the low bits (Table 1-2). -/
abbrev VecReg := BitVec 1024

end Sys2Proof
end

