-- ==== Sys2Proof/Config.lean ====
section
/-! DEFINITION. Config: what an implementation decides and the spec leaves open, as constants without a body, so that no
proof can see their values. -/

namespace Sys2Proof

/-- Which of the two FP32 values that bracket the exact result VRCP (0), VRSQ (1), VEXP2 (2) and VLOG2 (3) return for an
input: true for the one away from zero. It depends on the input alone (R138). Free value, log entry 3. -/
opaque Config.approxAway : Nat → Word → Bool

/-- The byte a read returns where the key of the access is not the key that encrypted the byte (R374): it depends on the
address, the byte's true value and the two keys' versions. Free value, log entry 4. -/
opaque Config.wrongKeyByte : Nat → Byte → Nat → Nat → Byte

/-- A byte of a tag frame (R317): the spec gives a frame 8 bytes and no encoding of the tag in them; it depends on the tag. Free value,
log entry 25. -/
opaque Config.tagByte : List Nat → Nat → Byte

/-- A field of the tag that the hardware reads from a frame which data has overwritten (R317: arbitrary verdicts), by the frame's bytes and
the tag before. Free value, log entry 25. -/
opaque Config.tagField : List Nat → Nat → Nat

/-- The measurement register after it is extended with a digest (R378): the spec does not say how the two are joined. Free value, log entry
10. -/
opaque Config.measure : BitVec 256 → BitVec 256 → BitVec 256

/-- The signature of an attestation quote (R378), by the quote's content and the count of quotes. Free value, log
entry 10. -/
opaque Config.quoteSignature : Nat → Nat → BitVec 256

/-- The device serial (R378), and the spare rows of HBM (Table 18-5): each implementation's own. Free values, log entry 3. -/
opaque Config.serial : DWord
opaque Config.hbmSpares : Nat

/-- How many flits of credit the next router returns in a cycle on a port, for a buffer of its input port (R397): it depends on the devices beyond the
link. Free value, log entry 15. -/
opaque Config.linkReturn : Nat → Nat → Nat → Nat

/-- The content of a value the spec leaves open, by a counter that the step advances. Free value, log entry 3. -/
opaque Config.freeValue : Nat → Nat

end Sys2Proof
end

