-- ==== Sys2Proof/Machine/Bits.lean ====
section
/-! DEFINITION. Bit-field, sign-extension, lane and generator helpers (R3, R76, R125). -/

namespace Sys2Proof

/-- The low bit of a truth value. -/
def b2n (b : Bool) : Nat := if b then 1 else 0

/-- `n` bits of `w` from bit `lo`. -/
def nbits (w lo n : Nat) : Nat := w / 2 ^ lo % 2 ^ n

/-- The two's-complement value of the low `n` bits of `w`. -/
def sval (n w : Nat) : Int := if w % 2 ^ n < 2 ^ (n - 1) then (w % 2 ^ n : Nat) else (w % 2 ^ n : Nat) - (2 ^ n : Nat)

/-- The low `n` bits of an integer, as a number. -/
def wrapN (n : Nat) (x : Int) : Nat := (x % (2 ^ n : Nat)).toNat

/-- Bits `lo` to `lo + n - 1` of `w` become the low bits of `v`. -/
def setBits (w lo n v : Nat) : Nat := w - nbits w lo n * 2 ^ lo + v % 2 ^ n * 2 ^ lo

/-- Lane `i` of a vector register (R125). -/
def lane (v : VecReg) (i : Nat) : Word := BitVec.ofNat 32 (v.toNat / 2 ^ (32 * i))

/-- Words joined, the first in the low bits. -/
def joinWords : List Word → Nat
  | [] => 0
  | w :: ws => w.toNat + 2 ^ 32 * joinWords ws

/-- The vector register whose lanes are given (R125). -/
def ofLanes (f : Nat → Word) : VecReg := BitVec.ofNat 1024 (joinWords ((List.range 32).map f))

/-- The words of a number, the lowest first. -/
def splitWords : Nat → Nat → List Word
  | 0, _ => []
  | k + 1, n => BitVec.ofNat 32 n :: splitWords k (n / 2 ^ 32)

/-- Fields of `w` bits as one bit string, the first lowest (R68). -/
def packBits (w : Nat) (es : List Nat) : Nat := es.foldr (fun e acc => e + 2 ^ w * acc) 0

/-- The number of one bits among the low `n` bits. -/
def popN : Nat → Nat → Nat
  | 0, _ => 0
  | n + 1, w => w % 2 + popN n (w / 2)

/-- The number of leading zero bits of an `n`-bit number. -/
def clzN : Nat → Nat → Nat
  | 0, _ => 0
  | n + 1, w => if w / 2 ^ n % 2 = 1 then 0 else 1 + clzN n w

/-- The index of the lowest one bit among the low `n` bits, or `n`. -/
def ffsN : Nat → Nat → Nat
  | 0, _ => 0
  | n + 1, w => if w % 2 = 1 then 0 else 1 + ffsN n (w / 2)

/-- The indices below `n` whose bit is 1, rising. -/
def onesBelow (n w : Nat) : List Nat := (List.range n).filter (fun i => w.testBit i)

/-- A 64-bit rotation to the left. -/
def rotl64 (x : DWord) (k : Nat) : DWord := (x <<< k) ||| (x >>> (64 - k))

/-- One xoshiro256** step: the output and the next state (R76). -/
def xoshiro (s0 s1 s2 s3 : DWord) : DWord × DWord × DWord × DWord × DWord :=
  let r := rotl64 (s1 * 5) 7 * 9
  let t := s1 <<< 17
  let a2 := s2 ^^^ s0
  let a3 := s3 ^^^ s1
  let b1 := s1 ^^^ a2
  let b0 := s0 ^^^ a3
  (r, b0, b1, a2 ^^^ t, rotl64 a3 45)

/-- The output of SplitMix64 for the state `z0` after its increment (R76). -/
def splitMixOut (z0 : DWord) : DWord :=
  let z := (z0 ^^^ (z0 >>> 30)) * 0xBF58476D1CE4E5B9#64
  let z := (z ^^^ (z >>> 27)) * 0x94D049BB133111EB#64
  z ^^^ (z >>> 31)

/-- Output `k` (from 1) of SplitMix64 started from `z0` (R15, R76). -/
def splitMix (z0 : DWord) (k : Nat) : DWord := splitMixOut (z0 + BitVec.ofNat 64 k * 0x9E3779B97F4A7C15#64)

/-- The least element under `better` in the first place, keeping the order of equals (R147): insertion of one element
after every element it is not better than. -/
def insertBy {α : Type} (better : α → α → Bool) (x : α) : List α → List α
  | [] => [x]
  | y :: ys => if better x y then x :: y :: ys else y :: insertBy better x ys

/-- A stable sort: earlier elements stay ahead of equal later ones (R147). -/
def stableSort {α : Type} (better : α → α → Bool) (l : List α) : List α :=
  l.foldl (fun acc x => insertBy better x acc) []

end Sys2Proof
end

