-- ==== Sys2Proof/Machine/Fp.lean ====
section
/-! DEFINITION. Exact numbers and rounding: the formats of Table 3-1, FP32, the rounding of R69 to R74, and the scalar
and vector arithmetic of R84 and R85. Finite values are dyadic, m x 2^e, so that sums and products are exact; a quotient is a
pair of numbers. -/

namespace Sys2Proof.Fp

open Sys2Proof

/-- $fstat flags in their bit places (Table 1-4). -/
abbrev Flags := BitVec 6

def NX : Flags := 1
def UF : Flags := 2
def OF : Flags := 4
def DZ : Flags := 8
def NV : Flags := 16
def SAT : Flags := 32

/-- Flags where a condition holds. -/
def flagIf (c : Bool) (f : Flags) : Flags := if c then f else 0

/-- A number as the formats hold it: a NaN (signalling or not), an infinity, or (-1)^neg x m x 2^e. -/
inductive Num where
  | nan (signalling : Bool)
  | inf (neg : Bool)
  | fin (neg : Bool) (m : Nat) (e : Int)
  deriving DecidableEq, Repr, Inhabited

/-- How a format treats its all-ones exponent (R66): infinities and NaNs; the one NaN of E4M3; neither. -/
inductive Specials where
  | ieee | e4m3 | none
  deriving DecidableEq, Repr, Inhabited

/-- A floating format (Table 3-1). -/
structure Fmt where
  exp : Nat
  frac : Nat
  bias : Nat
  spec : Specials
  deriving DecidableEq, Repr, Inhabited

def fp32 : Fmt := ⟨8, 23, 127, .ieee⟩
def bf16 : Fmt := ⟨8, 7, 127, .ieee⟩
def fp16 : Fmt := ⟨5, 10, 15, .ieee⟩

/-- The floating format of a code of Table 3-1, if the code names one. -/
def fmtOf (code : Nat) : Option Fmt :=
  match code with
  | 0 => some bf16
  | 1 => some fp16
  | 2 => some ⟨4, 3, 7, .e4m3⟩
  | 3 => some ⟨5, 2, 15, .ieee⟩
  | 4 => some ⟨3, 2, 3, .none⟩
  | 5 => some ⟨2, 3, 1, .none⟩
  | 6 => some ⟨2, 1, 1, .none⟩
  | _ => none

/-- The code of the largest finite value of a format, without sign (Table 3-2). -/
def Fmt.maxCode (F : Fmt) : Nat :=
  match F.spec with
  | .ieee => (2 ^ F.exp - 1) * 2 ^ F.frac - 1
  | .e4m3 => 2 ^ (F.exp + F.frac) - 2
  | .none => 2 ^ (F.exp + F.frac) - 1

/-- The sign bit of a format, in its place. -/
def Fmt.signBit (F : Fmt) (neg : Bool) : Nat := if neg then 2 ^ (F.exp + F.frac) else 0

/-- The code of an infinity, where the format has one. -/
def Fmt.infCode (F : Fmt) : Nat := (2 ^ F.exp - 1) * 2 ^ F.frac

/-- The canonical NaN of Table 3-2; +0 in a format without NaN (R71). -/
def Fmt.nanCode (F : Fmt) : Nat :=
  match F.spec with
  | .ieee => (2 ^ F.exp - 1) * 2 ^ F.frac + 2 ^ (F.frac - 1)
  | .e4m3 => 2 ^ (F.exp + F.frac) - 1
  | .none => 0

/-- The value of an element (R66). -/
def Fmt.decode (F : Fmt) (code : Nat) : Num :=
  let neg := code / 2 ^ (F.exp + F.frac) % 2 = 1
  let e := nbits code F.frac F.exp
  let f := nbits code 0 F.frac
  if e = 0 then .fin neg f (1 - (F.bias : Int) - F.frac)
  else if F.spec = .ieee ∧ e = 2 ^ F.exp - 1 then
    if f = 0 then .inf neg else .nan (f < 2 ^ (F.frac - 1))
  else if F.spec = .e4m3 ∧ e = 2 ^ F.exp - 1 ∧ f = 2 ^ F.frac - 1 then .nan false
  else .fin neg (2 ^ F.frac + f) ((e : Int) - F.bias - F.frac)

/-- The FP32 value of a lane or of the low half of a scalar. -/
def f32 (x : Word) : Num := fp32.decode x.toNat

/-- The rounding modes of Table 3-3 by code; `rst` carries its 16-bit uniform value (R74). -/
inductive Mode where
  | rne | rtz | rup | rdn | rod
  | rst (u : Nat)
  deriving DecidableEq, Repr, Inhabited

/-- Whether the neighbour away from zero is chosen, for a magnitude `lo + r/d` units with 0 < r < d (Table 3-3, R73,
R74). -/
def Mode.away (md : Mode) (neg : Bool) (lo r d : Nat) : Bool :=
  match md with
  | .rne => d < 2 * r || (2 * r == d && lo % 2 == 1)
  | .rtz => false
  | .rup => !neg
  | .rdn => neg
  | .rod => lo % 2 == 0
  | .rst u => u < r * 65536 / d

/-- The magnitude num/den in whole units of 2^u: the rounded count and whether it is inexact. -/
def roundUnits (md : Mode) (neg : Bool) (num den : Nat) (u : Int) : Nat × Bool :=
  let n := if u < 0 then num * 2 ^ (-u).toNat else num
  let d := if u < 0 then den else den * 2 ^ u.toNat
  let lo := n / d
  let r := n % d
  if r = 0 then (lo, false) else (if md.away neg lo r d then lo + 1 else lo, true)

/-- floor(log2(num/den)) for positive numbers. -/
def floorLog2 (num den : Nat) : Int :=
  let k : Int := (Nat.log2 num : Int) - Nat.log2 den
  let ge := if k < 0 then den ≤ num * 2 ^ (-k).toNat else den * 2 ^ k.toNat ≤ num
  if ge then k else k - 1

/-- Whether an overflow goes to infinity rather than to the largest finite value (Table 3-4). -/
def Mode.overflowsToInf (md : Mode) (neg : Bool) : Bool :=
  match md with
  | .rne => true
  | .rtz => false
  | .rup => !neg
  | .rdn => neg
  | .rod => false
  | .rst _ => false

/-- The code and the flags of the exact value (-1)^neg x num/den in a floating format (R69, R70, R72). -/
def Fmt.roundQ (F : Fmt) (md : Mode) (neg : Bool) (num den : Nat) : Nat × Flags :=
  if num = 0 then (F.signBit neg, 0)
  else
    let q := floorLog2 num den
    let u : Int := max q (1 - (F.bias : Int)) - F.frac
    let (r, inexact) := roundUnits md neg num den u
    let code := (u + F.frac + F.bias - 1).toNat * 2 ^ F.frac + r
    if F.maxCode < code then
      if F.spec = .ieee ∧ md.overflowsToInf neg then (F.signBit neg + F.infCode, OF ||| NX)
      else (F.signBit neg + F.maxCode, OF ||| NX)
    else
      (F.signBit neg + code,
        flagIf inexact NX ||| flagIf (inexact && decide (code < 2 ^ F.frac)) UF)

/-- R69 to R72: the code and the flags of a number in a floating format. -/
def Fmt.round (F : Fmt) (md : Mode) (x : Num) : Nat × Flags :=
  match x with
  | .nan sig => (F.nanCode, flagIf (sig || decide (F.spec = .none)) NV)
  | .inf neg =>
    if F.spec = .ieee then (F.signBit neg + F.infCode, 0) else (F.signBit neg + F.maxCode, OF)
  | .fin neg m e => if e < 0 then F.roundQ md neg m (2 ^ (-e).toNat) else F.roundQ md neg (m * 2 ^ e.toNat) 1

/-- A signed count of whole units, from a sign and a magnitude. -/
def signed (neg : Bool) (n : Nat) : Int := if neg then -(n : Int) else n

/-- The integer of an exact value num/den, rounded and then saturated to lo..hi (R70, R72, R85). -/
def roundIntQ (lo hi : Int) (md : Mode) (neg : Bool) (num den : Nat) : Int × Flags :=
  let (r, inexact) := roundUnits md neg num den 0
  let v := signed neg r
  if v < lo then (lo, OF ||| NX ||| SAT)
  else if hi < v then (hi, OF ||| NX ||| SAT)
  else (v, flagIf inexact NX)

/-- R71, R85: the integer of a number, saturated to lo..hi. -/
def roundInt (lo hi : Int) (md : Mode) (x : Num) : Int × Flags :=
  match x with
  | .nan _ => (0, NV)
  | .inf neg => (if neg then lo else hi, OF ||| SAT)
  | .fin neg m e =>
    if e < 0 then roundIntQ lo hi md neg m (2 ^ (-e).toNat) else roundIntQ lo hi md neg (m * 2 ^ e.toNat) 1

/-- An integer as an exact number. -/
def ofInt (x : Int) : Num := .fin (x < 0) x.natAbs 0

/-- The negation of a number. -/
def Num.negate : Num → Num
  | .nan s => .nan s
  | .inf n => .inf (!n)
  | .fin n m e => .fin (!n) m e

/-- A number is a signalling NaN. -/
def Num.isSnan : Num → Bool
  | .nan s => s
  | _ => false

/-- A number is a NaN. -/
def Num.isNan : Num → Bool
  | .nan _ => true
  | _ => false

/-- The exact sum and the NV it raises (R84): `rdn` is the sign of an exact zero sum of opposite signs. -/
def add (rdn : Bool) (x y : Num) : Num × Flags :=
  match x, y with
  | .nan a, .nan b => (.nan false, flagIf (a || b) NV)
  | .nan a, _ => (.nan false, flagIf a NV)
  | _, .nan b => (.nan false, flagIf b NV)
  | .inf a, .inf b => if a = b then (.inf a, 0) else (.nan false, NV)
  | .inf a, _ => (.inf a, 0)
  | _, .inf b => (.inf b, 0)
  | .fin a m e, .fin b n f =>
    let k := min e f
    let s := signed a (m * 2 ^ (e - k).toNat) + signed b (n * 2 ^ (f - k).toNat)
    if s = 0 then (.fin (if a = b then a else rdn) 0 k, 0) else (.fin (s < 0) s.natAbs k, 0)

/-- The exact product and the NV it raises (R84). -/
def mul (x y : Num) : Num × Flags :=
  match x, y with
  | .nan a, .nan b => (.nan false, flagIf (a || b) NV)
  | .nan a, _ => (.nan false, flagIf a NV)
  | _, .nan b => (.nan false, flagIf b NV)
  | .inf a, .inf b => (.inf (a != b), 0)
  | .inf a, .fin b n _ => if n = 0 then (.nan false, NV) else (.inf (a != b), 0)
  | .fin a m _, .inf b => if m = 0 then (.nan false, NV) else (.inf (a != b), 0)
  | .fin a m e, .fin b n f => (.fin (a != b) (m * n) (e + f), 0)

/-- Whether the mode is RDN, which gives exact zero sums their sign (R84). -/
def Mode.isRdn : Mode → Bool
  | .rdn => true
  | _ => false

/-- FP32 sum, difference and product, rounded once (R84, R122, R137). -/
def fadd (md : Mode) (x y : Word) : Word × Flags :=
  let (v, f) := add md.isRdn (f32 x) (f32 y)
  let (r, g) := fp32.round md v
  (BitVec.ofNat 32 r, f ||| g)

def fsub (md : Mode) (x y : Word) : Word × Flags :=
  let (v, f) := add md.isRdn (f32 x) (f32 y).negate
  let (r, g) := fp32.round md v
  (BitVec.ofNat 32 r, f ||| g)

def fmul (md : Mode) (x y : Word) : Word × Flags :=
  let (v, f) := mul (f32 x) (f32 y)
  let (r, g) := fp32.round md v
  (BitVec.ofNat 32 r, f ||| g)

/-- FP32 x * y + z with one rounding (R84). -/
def fma (md : Mode) (x y z : Word) : Word × Flags :=
  let (p, f) := mul (f32 x) (f32 y)
  let (v, g) := add md.isRdn p (f32 z)
  let (r, h) := fp32.round md v
  (BitVec.ofNat 32 r, f ||| g ||| h)

/-- The order of two numbers that are not NaN, -0 equal to +0. -/
def cmpNum (x y : Num) : Ordering :=
  match x, y with
  | .inf a, .inf b => if a = b then .eq else if a then .lt else .gt
  | .inf a, _ => if a then .lt else .gt
  | _, .inf b => if b then .gt else .lt
  | .fin a m e, .fin b n f =>
    let k := min e f
    compare (signed a (m * 2 ^ (e - k).toNat)) (signed b (n * 2 ^ (f - k).toNat))
  | _, _ => .eq

/-- The sign of a number that is not NaN. -/
def Num.isNeg : Num → Bool
  | .nan _ => false
  | .inf n => n
  | .fin n _ _ => n

/-- x ranks below y, -0 below +0 (R84). -/
def ltSigned (x y : Num) : Bool :=
  match cmpNum x y with
  | .lt => true
  | .gt => false
  | .eq => x.isNeg && !y.isNeg

/-- The canonical FP32 NaN. -/
def nan32 : Word := 0x7FC00000#32

/-- FMIN and FMAX, and their vector forms (R84). -/
def fminmax (isMax : Bool) (x y : Word) : Word × Flags :=
  let a := f32 x
  let b := f32 y
  let fl := flagIf (a.isSnan || b.isSnan) NV
  if a.isNan && b.isNan then (nan32, fl)
  else if a.isNan then (y, fl)
  else if b.isNan then (x, fl)
  else if isMax then (if ltSigned a b then y else x, fl) else (if ltSigned b a then y else x, fl)

/-- The FCMP codes 0 to 4 of Table 4-8: the comparison and the NV it raises. -/
def fcmp (c : Nat) (x y : Word) : Bool × Flags :=
  let a := f32 x
  let b := f32 y
  let un := a.isNan || b.isNan
  let sig := a.isSnan || b.isSnan
  let o := cmpNum a b
  match c with
  | 0 => (!un && o == .eq, flagIf sig NV)
  | 1 => (!un && o == .lt, flagIf un NV)
  | 2 => (!un && (o == .lt || o == .eq), flagIf un NV)
  | 3 => (un, flagIf sig NV)
  | _ => (un || o != .eq, flagIf sig NV)

/-- FP32 to a signed or unsigned integer of `w` bits (R85, R124). -/
def toInt (uns : Bool) (w : Nat) (md : Mode) (x : Word) : Nat × Flags :=
  let lo : Int := if uns then 0 else -(2 ^ (w - 1) : Nat)
  let hi : Int := if uns then (2 ^ w : Nat) - 1 else (2 ^ (w - 1) : Nat) - 1
  let (v, f) := roundInt lo hi md (f32 x)
  (wrapN w v, f)

/-- An integer to FP32 (R124). -/
def ofIntF (md : Mode) (x : Int) : Word × Flags :=
  let (r, f) := fp32.round md (ofInt x)
  (BitVec.ofNat 32 r, f)

/-- What the exact sum of a list of FP32 numbers has met: NaN, a signalling NaN, +inf, -inf, whether every member is -0, and
the sum in units of 2^-149. -/
structure SumAcc where
  nan : Bool
  snan : Bool
  pinf : Bool
  ninf : Bool
  allNegZero : Bool
  any : Bool
  sum : Int
  deriving DecidableEq, Repr, Inhabited

/-- The empty sum. -/
def SumAcc.zero : SumAcc := ⟨false, false, false, false, true, false, 0⟩

/-- One FP32 member joins the sum. -/
def SumAcc.push (a : SumAcc) (x : Word) : SumAcc :=
  match f32 x with
  | .nan s => { a with nan := true, snan := a.snan || s, any := true, allNegZero := false }
  | .inf n => { a with pinf := a.pinf || !n, ninf := a.ninf || n, any := true, allNegZero := false }
  | .fin n m e =>
    { a with sum := a.sum + signed n (m * 2 ^ (e + 149).toNat), any := true,
             allNegZero := a.allNegZero && (n && decide (m = 0)) }

/-- VRED and VSCAN .fadd (R142): the exact sum rounded once. -/
def SumAcc.vred (a : SumAcc) (md : Mode) : Word × Flags :=
  if a.nan then (nan32, NV)
  else if a.pinf && a.ninf then (nan32, NV)
  else if a.pinf then (0x7F800000#32, 0)
  else if a.ninf then (0xFF800000#32, 0)
  else if a.sum = 0 then
    (if (a.any && a.allNegZero) || (a.any && md.isRdn) then 0x80000000#32 else 0, 0)
  else
    let (r, f) := fp32.round md (.fin (a.sum < 0) a.sum.natAbs (-149))
    (BitVec.ofNat 32 r, f)

/-- An integer square root, bit by bit from bit `k - 1` down. -/
def sqrtBits : Nat → Nat → Nat → Nat
  | 0, _, r => r
  | k + 1, n, r =>
    let r' := r + 2 ^ k
    sqrtBits k n (if r' * r' ≤ n then r' else r)

/-- floor(sqrt(n)). -/
def isqrt (n : Nat) : Nat := sqrtBits (Nat.log2 n / 2 + 1) n 0

/-- The precision in bits of the working numbers of VEXP2 and VLOG2. -/
def prec : Nat := 320

/-- 2^f for f = sum of the bits of `p` at 2^-1, 2^-2, ..., as a number of units of 2^-prec; `root` is 2^(2^-i). -/
def exp2Bits : Nat → Nat → Nat → Nat → Nat
  | 0, _, _, acc => acc
  | k + 1, p, root, acc =>
    let r := isqrt (root * 2 ^ prec)
    exp2Bits k p r (if p.testBit k then acc * r / 2 ^ prec else acc)

/-- `k` bits of log2(m) for m in units of 2^-prec, 1 <= m < 2, the highest first. -/
def log2Bits : Nat → Nat → Nat → Nat
  | 0, _, acc => acc
  | k + 1, m, acc =>
    let s := m * m / 2 ^ prec
    if 2 ^ (prec + 1) ≤ s then log2Bits k (s / 2) (2 * acc + 1) else log2Bits k s (2 * acc)

/-- The result of an approximation whose exact value is (-1)^neg x num/den, or lies strictly between the same two FP32
values as it: the value itself where it is exact, else one of the two that bracket it (R138); the flags are those of a
rounding to nearest. -/
def bracket (op : Nat) (x : Word) (neg : Bool) (num den : Nat) : Word × Flags :=
  let (near, fl) := fp32.roundQ .rne neg num den
  if fl &&& NX = 0 then (BitVec.ofNat 32 near, fl)
  else if fl &&& OF ≠ 0 then (BitVec.ofNat 32 near, fl)
  else
    let away := Config.approxAway op x
    let (r, _) := fp32.roundQ (if away != neg then .rup else .rdn) neg num den
    (BitVec.ofNat 32 r, fl)

/-- An infinity or a zero of a sign, as FP32. -/
def inf32 (neg : Bool) : Word := if neg then 0xFF800000#32 else 0x7F800000#32
def zero32 (neg : Bool) : Word := if neg then 0x80000000#32 else 0

/-- A dyadic magnitude m x 2^e as a quotient of numbers. -/
def asQ (m : Nat) (e : Int) : Nat × Nat := if e < 0 then (m, 2 ^ (-e).toNat) else (m * 2 ^ e.toNat, 1)

/-- VRCP, VRSQ, VEXP2 and VLOG2 of an FP32 lane, `op` 0 to 3 (R138, Table 5-5a). -/
def approx (op : Nat) (x : Word) : Word × Flags :=
  match f32 x, op with
  | .nan s, _ => (nan32, flagIf s NV)
  | .inf n, 0 => (zero32 n, 0)
  | .inf n, 1 => if n then (nan32, NV) else (0, 0)
  | .inf n, 2 => if n then (0, 0) else (inf32 false, 0)
  | .inf n, _ => if n then (nan32, NV) else (inf32 false, 0)
  | .fin n m e, 0 =>
    if m = 0 then (inf32 n, DZ) else let (a, b) := asQ m e; bracket 0 x n b a
  | .fin n m e, 1 =>
    if m = 0 then (inf32 n, DZ)
    else if n then (nan32, NV)
    else
      -- 1/sqrt(m 2^e) with e made even: sqrt(2^400 / m') in units of 2^(-200 - e'/2)
      let m' := if e % 2 = 0 then m else 2 * m
      let e' : Int := if e % 2 = 0 then e else e - 1
      let k := 2 ^ 400 / m'
      let r := isqrt k
      let exact := m' * (r * r) = 2 ^ 400
      let (a, b) := if exact then asQ r (-200 - e' / 2) else asQ (2 * r + 1) (-201 - e' / 2)
      bracket 1 x false a b
  | .fin n m e, 2 =>
    if m = 0 then (0x3F800000#32, 0)
    else
      let (a, b) := asQ m e
      if ¬ n ∧ 128 * b ≤ a then (inf32 false, OF ||| NX)
      else if n ∧ 150 * b < a then (0, UF ||| NX)
      else
        let t : Int := signed n a
        let k := t / (b : Int)
        let f := (t - k * b).toNat
        -- b is a power of two, so f/b has log2(b) fraction bits
        if f = 0 then let (c, d) := asQ 1 k; bracket 2 x false c d
        else
          let y := exp2Bits (Nat.log2 b) f (2 ^ (prec + 1)) (2 ^ prec)
          let (c, d) := asQ (2 * y + 1) (k - prec - 1)
          bracket 2 x false c d
  | .fin n m e, _ =>
    if m = 0 then (inf32 true, DZ)
    else if n then (nan32, NV)
    else
      let q := Nat.log2 m
      let k : Int := e + q
      if m = 2 ^ q then
        let (r, f) := fp32.round .rne (ofInt k)
        (BitVec.ofNat 32 r, f)
      else
        let l := log2Bits 100 (m * 2 ^ (prec - q)) 0
        let v : Int := 2 * (k * (2 ^ 100 : Nat) + l) + 1
        let (c, d) := asQ v.natAbs (-101)
        bracket 3 x (v < 0) c d

/-- The rank of an FP32 key in the order of Table 6-1: negatives below positives, -0 below +0, every NaN last and
equal. -/
def keyRank (x : Word) : Int :=
  match f32 x with
  | .nan _ => 0x7F800001
  | _ => if x.toNat < 0x80000000 then x.toNat else 0x7FFFFFFF - (x.toNat : Int)

/-- The value of a UE8M4 block scale (Table 3-5): `none` for NaN, else a dyadic magnitude. -/
def ue8m4 (code : Nat) : Option (Nat × Int) :=
  let e := nbits code 4 8
  let f := nbits code 0 4
  if nbits code 0 12 = 0xFFF then none
  else if e = 0 then some (f, -130)
  else some (16 + f, (e : Int) - 131)

end Sys2Proof.Fp
end

