-- ==== Sys2Proof/Syntax.lean ====
section
/-! DEFINITION. The instruction set as syntax: the guard, the trap causes, the payloads of outside events, and Instr,
one constructor per row of the opcode table. -/

namespace Sys2Proof

/-- A slot's guard: the register GR and the negation bit GN of Table 2-3 (R39). -/
structure Guard where
  neg : Bool
  reg : BitVec 3
  deriving DecidableEq, Repr, Inhabited

/-- The trap causes of Table 10-4 (R264). RESERVED_0x24 is never raised and has no constructor. -/
inductive Cause where
  | illegalBundle | illegalOp | privileged | stallShort | misaligned | loopStack | softwareTrap
  | group | slotUnclaimed | tensorId | indexRange | routine | scratchRange | windowLoad | engineDataError
  | doubleFault | gangPartner | ringMisuse | queueMisuse | translation | permission
  | memoryConflict | memoryConflictUncertain | atomicScope | copyFault | counterUnderflow
  | doubleResume | hamperVersion | hamperRights | hamperMoved | hamperPoisoned | launch | uncorrectableMemory
  | stepFailed | stepOverflow | harvestConflict | fabricUnreachable
  deriving DecidableEq, Repr, Inhabited

/-- The images of one boot (R377): the security processor's firmware, the system-core firmware, the two dies' firmware
store images, and the first image whose LMS verification fails, numbered in that order. -/
structure BootImages where
  security : List Byte
  system : List Byte
  store0 : List Byte
  store1 : List Byte
  failsAt : Option (BitVec 2)
  /-- The first byte of the system partition and the byte behind it, where the boot fixes another than the default (R371). -/
  partition : Option (BitVec 39 × BitVec 40)
  deriving DecidableEq, Repr, Inhabited

/-- What an arriving Ethernet packet carries above the link layer (R379). -/
inductive EthKind where
  /-- A UDP datagram with its destination and source ports. -/
  | udp (dport sport : BitVec 16)
  /-- A RoCE v2 packet with its destination and source QP; `accepted` says SEND-only or RDMA WRITE-only. -/
  | roce (qpn sqp : BitVec 24) (accepted : Bool)
  /-- Anything else. -/
  | other
  deriving DecidableEq, Repr, Inhabited

/-- A packet that arrives on an Ethernet port (R379, R380). -/
structure EthPacket where
  port : BitVec 1
  vlan : Option (BitVec 12)
  source : BitVec 128
  kind : EthKind
  payload : List Byte
  deriving DecidableEq, Repr, Inhabited

/-- A hardware event that freezes the black-box record (R391). -/
inductive FatalEvent where
  | thermalTrip
  | powerRail
  | hubFatal
  /-- An event that the system cores mark fatal. -/
  | marked (event : BitVec 16)
  deriving DecidableEq, Repr, Inhabited

/-- The fault that stops a running routine (Table 9-5), found in tile step `atStep`. -/
inductive RoutineFault where
  /-- A stream translation or permission fault, and the faulting address. -/
  | stream (atStep : Nat) (cause : Cause) (addr : VAddr)
  /-- An uncorrectable error in stream data, and its granule. -/
  | streamData (atStep : Nat) (addr : VAddr)
  /-- A cell error: 32 x row + column of the first failing cell. -/
  | cell (atStep : Nat) (index : BitVec 10)
  /-- An operand memory error, and its slot. -/
  | slot (atStep : Nat) (slot : BitVec 6)
  /-- A partner of a fused machine faulted: its core index in the cluster. -/
  | partner (atStep : Nat) (core : BitVec 3)
  deriving DecidableEq, Repr, Inhabited

/-- A fabric packet: the header flit of Table 19-2 by its fields, and the data flits as 4-byte units. -/
structure Packet where
  type : BitVec 4
  ndata : BitVec 4
  src : BitVec 11
  dst : BitVec 11
  vc : BitVec 2
  hops : BitVec 3
  esc : Bool
  via : BitVec 11
  seq : BitVec 32
  stepno : BitVec 32
  off : BitVec 20
  core : BitVec 3
  clu : BitVec 5
  die : BitVec 1
  rule : BitVec 2
  op : BitVec 3
  dom : BitVec 6
  umask : BitVec 32
  /-- dw3[63:32] and dw4, the type-specific fields of FRED (R419) and TOKEN; 0 elsewhere. -/
  ext : BitVec 96
  data : List Word
  deriving DecidableEq, Repr, Inhabited

/-- A write of a hub control register by a system core (R373). -/
inductive HubWrite where
  /-- The page-table root of a domain, or none (R300). -/
  | root (dom : BitVec 6) (value : Option DWord)
  /-- One ownership-table entry of a die (R299). -/
  | owner (die : BitVec 1) (block : BitVec 10) (value : BitVec 8)
  /-- The tag pool registers (R317). -/
  | tagPool (tpbase tplo tphi : DWord)
  /-- The domain a cluster is assigned to (R268). -/
  | cluster (clu : BitVec 6) (dom : BitVec 6)
  /-- Bytes of a die's firmware store, while it is unlocked (R254). -/
  | firmware (die : BitVec 1) (off : BitVec 18) (data : List Byte)
  /-- Bytes of a die's shared memory in a block that domain 0 owns, the blocks that the system cores can address (R373). -/
  | dieStore (die : BitVec 1) (off : BitVec 26) (data : List Byte)
  /-- One doubleword of a flow rule (Table 18-1); the RO fields keep their value. -/
  | flowRule (index : BitVec 12) (dw : BitVec 3) (value : DWord)
  /-- CARRY of the energy account (Table 18-3). -/
  | carry (value : BitVec 32)
  /-- DRAINT of a die (R340). -/
  | drainT (die : BitVec 1) (value : BitVec 32)
  /-- The checkpoint pool of a die: its physical base, and its size in units of 4 MiB (R342). -/
  | ckptPool (die : BitVec 1) (base : BitVec 39) (slots : BitVec 16)
  /-- $device of the package (Table 1-3). -/
  | device (id : BitVec 11)
  /-- The domain of the pod context. -/
  | podDom (dom : BitVec 6)
  /-- One bit of MEMBERS. -/
  | podMember (dev : BitVec 11) (isMember : Bool)
  | podPcount (value : BitVec 12)
  | podGback (value : BitVec 32)
  | podSkewlim (value : BitVec 32)
  | podRq (value : BitVec 9)
  | podThr (value : BitVec 16)
  | podDcb (die : BitVec 1) (value : BitVec 26)
  /-- The minimal output port toward a device, whether that port's link leads to the device itself, and the other ports that lead to it, those of the
  shortest paths first (R394, R395, R400). -/
  | route (dev : BitVec 11) (port : Option (BitVec 6)) (direct : Bool) (others : List (BitVec 6))
  /-- Whether the system cores mark a black-box event fatal (R391). -/
  | fatalEvent (event : BitVec 16) (fatal : Bool)
  /-- The clear of FAILED's bit for a device that returns to service. -/
  | podRepaired (dev : BitVec 11)
  /-- A lane back in service at maintenance (R427). -/
  | laneRepaired (port : BitVec 6) (lane : BitVec 2)
  deriving DecidableEq, Repr, Inhabited


/-- The steps of the part: one constructor per row of the opcode table (R46 and "What each step holds").
The rows with a word carry the guard of Table 2-3 and the row's fields under the table's own letters;
`kw` is the K word where the immediate field requests extension (R43).
The rows without a word are events: steps the machine takes by itself or that the world outside makes it take. -/
inductive Instr where
  /-- NOP (R104). Control-slot operation with no effect. -/
  | nop (gd : Guard)
  /-- BR (R97). Branches to a PC-relative halfword offset when its guard is true. -/
  | br (gd : Guard) (o : BitVec 21) (kw : Option (BitVec 32))
  /-- JMP (R97). Jumps to the address held in a scalar register. -/
  | jmp (gd : Guard) (a : BitVec 5)
  /-- CALL (R97). Calls a PC-relative target and writes the link value with loop depth to s31. -/
  | call (gd : Guard) (o : BitVec 21) (kw : Option (BitVec 32))
  /-- CALLR (R97). Calls the address in a register and writes the link value to the named register. -/
  | callr (gd : Guard) (d : BitVec 5) (a : BitVec 5)
  /-- RET (R97). Returns to a link address and pops loops down to the recorded depth. -/
  | ret (gd : Guard) (a : BitVec 5)
  /-- LOOP (R99). Opens a hardware loop with an immediate trip count. -/
  | loop (gd : Guard) (l : BitVec 10) (c : BitVec 12) (kw : Option (BitVec 32))
  /-- LOOPR (R99). Opens a hardware loop with a trip count from a register. -/
  | loopr (gd : Guard) (h : BitVec 5) (a : BitVec 5) (l : BitVec 5)
  /-- LBRK (R101). Leaves the innermost k loops and continues after the outermost one left. -/
  | lbrk (gd : Guard) (k : BitVec 5)
  /-- END (R105). Halts fetch, discards loops and moves the thread to RETIRING. -/
  | endThread (gd : Guard)
  /-- YIELD (R106). Ends the region and waits a given number of cycles. -/
  | yield (gd : Guard) (a : BitVec 5)
  /-- AWAIT (R107). Acquire wait until a completion object's phase passes the given value. -/
  | await (gd : Guard) (d : BitVec 5) (a : BitVec 5) (i : BitVec 12) (kw : Option (BitVec 32))
  /-- JOIN_NEW (R110). Creates a group at the lowest free entry with the issuer as member 0. -/
  | joinNew (gd : Guard)
  /-- JOIN (R110). Enters the named group at the lowest free member index. -/
  | join (gd : Guard) (a : BitVec 5) (i : BitVec 12) (kw : Option (BitVec 32))
  /-- LEAVE (R111). Removes the thread from its group, freeing the entry when it was the last member. -/
  | leave (gd : Guard)
  /-- BAR (R113). Records arrival at the group barrier and waits for every member. -/
  | bar (gd : Guard)
  /-- FUSE (R287). Makes the thread its core's participant in a fused set of cores. -/
  | fuse (gd : Guard) (k : BitVec 4) (f : BitVec 3)
  /-- DECOUPLE (R291). Removes the participant from its fused set. -/
  | decouple (gd : Guard)
  /-- REJOIN (R288). Raises the participant's wired-AND input and waits for lock step. -/
  | rejoin (gd : Guard) (d : BitVec 5)
  /-- SUSPEND (R358). Stops the thread's group and writes it to a hamper. -/
  | suspend (gd : Guard) (d : BitVec 5) (a : BitVec 5)
  /-- SUSPEND_COMPLETE (R358). After members stop and drain, checks size, writes and seals the hamper and frees the members. -/
  | suspendComplete (die : Nat) (k : Nat)
  /-- RESUME (R360). Checks a sealed hamper and submits it as a task for placement. -/
  | resume (gd : Guard) (a : BitVec 5) (p : BitVec 4)
  /-- HAMPER_LOAD_COMPLETE (R360). Every member placed and loaded; hamper becomes RESUMED. -/
  | hamperLoadComplete (die : Nat) (k : Nat)
  /-- HCOPY (R361). Copies a hamper to a new address and reseals it with a new generation. -/
  | hcopy (gd : Guard) (d : BitVec 5) (a : BitVec 5) (b : BitVec 5)
  /-- HCOPY_COMPLETE (R361). Copy engine finishes the hamper copy; destination header written SEALED. -/
  | hcopyComplete (die : Nat) (k : Nat)
  /-- HDISCARD (R362). Returns a hamper's state and moves SEALED or POISONED to DISCARDED. -/
  | hdiscard (gd : Guard) (d : BitVec 5) (a : BitVec 5)
  /-- TRAP (R256). Raises SOFTWARE_TRAP with the immediate code. -/
  | trap (gd : Guard) (i : BitVec 17) (kw : Option (BitVec 32))
  /-- GATE (R257). Enters firmware service n at level F without a trap. -/
  | gate (gd : Guard) (i : BitVec 8)
  /-- RFT (R258). Returns from level F, landing snapshot records and restarting or retiring halted queues. -/
  | rft (gd : Guard) (a : BitVec 5)
  /-- RFT_N (R258). Returns to level T without records, leaving the matrix queue halted. -/
  | rftN (gd : Guard)
  /-- SNAPST (R251). Stores the live snapshot image to the scratchpad. -/
  | snapst (gd : Guard) (b : BitVec 5) (o : BitVec 12) (kw : Option (BitVec 32))
  /-- SNAPREL (R252). Releases the snapshot and unmasks traps on the core. -/
  | snaprel (gd : Guard)
  /-- STEP (R411). Arrives at the pod superstep boundary as a .pod release and waits for it to complete. -/
  | step (gd : Guard) (d : BitVec 5) (a : BitVec 5) (t : BitVec 1)
  /-- ADD (R115). Adds two scalars, or a scalar and a loop index. -/
  | add (gd : Guard) (d : BitVec 5) (a : BitVec 5) (b : BitVec 5) (k : BitVec 1)
  /-- ADDI (R115). Adds a signed immediate. -/
  | addi (gd : Guard) (d : BitVec 5) (a : BitVec 5) (i : BitVec 12) (kw : Option (BitVec 32))
  /-- SUB (R115). Subtracts. -/
  | sub (gd : Guard) (d : BitVec 5) (a : BitVec 5) (b : BitVec 5) (k : BitVec 1)
  /-- MUL (R115). Low 64 bits of a product. -/
  | mul (gd : Guard) (d : BitVec 5) (a : BitVec 5) (b : BitVec 5) (k : BitVec 1)
  /-- MULH (R115). High 64 bits of a signed product. -/
  | mulh (gd : Guard) (d : BitVec 5) (a : BitVec 5) (b : BitVec 5)
  /-- MULHU (R115). High 64 bits of an unsigned product. -/
  | mulhu (gd : Guard) (d : BitVec 5) (a : BitVec 5) (b : BitVec 5)
  /-- DIV (R116). Signed division truncating toward zero. -/
  | div (gd : Guard) (d : BitVec 5) (a : BitVec 5) (b : BitVec 5)
  /-- DIVU (R116). Unsigned division. -/
  | divu (gd : Guard) (d : BitVec 5) (a : BitVec 5) (b : BitVec 5)
  /-- REM (R116). Signed remainder. -/
  | rem (gd : Guard) (d : BitVec 5) (a : BitVec 5) (b : BitVec 5)
  /-- REMU (R116). Unsigned remainder. -/
  | remu (gd : Guard) (d : BitVec 5) (a : BitVec 5) (b : BitVec 5)
  /-- AND (R117). Bitwise and. -/
  | andS (gd : Guard) (d : BitVec 5) (a : BitVec 5) (b : BitVec 5)
  /-- ANDI (R117). And with a sign-extended immediate. -/
  | andi (gd : Guard) (d : BitVec 5) (a : BitVec 5) (i : BitVec 12) (kw : Option (BitVec 32))
  /-- OR (R117). Bitwise or. -/
  | orS (gd : Guard) (d : BitVec 5) (a : BitVec 5) (b : BitVec 5)
  /-- ORI (R117). Or with a zero-extended immediate. -/
  | ori (gd : Guard) (d : BitVec 5) (a : BitVec 5) (i : BitVec 12) (kw : Option (BitVec 32))
  /-- XOR (R117). Bitwise exclusive or. -/
  | xorS (gd : Guard) (d : BitVec 5) (a : BitVec 5) (b : BitVec 5)
  /-- XORI (R117). Exclusive or with a zero-extended immediate. -/
  | xori (gd : Guard) (d : BitVec 5) (a : BitVec 5) (i : BitVec 12) (kw : Option (BitVec 32))
  /-- ANDN (R117). And with the complement of the second operand. -/
  | andn (gd : Guard) (d : BitVec 5) (a : BitVec 5) (b : BitVec 5)
  /-- SHL (R117). Shift left by a register amount. -/
  | shl (gd : Guard) (d : BitVec 5) (a : BitVec 5) (b : BitVec 5)
  /-- SHLI (R117). Shift left by an immediate. -/
  | shli (gd : Guard) (d : BitVec 5) (a : BitVec 5) (i : BitVec 12) (kw : Option (BitVec 32))
  /-- SHR (R117). Logical shift right. -/
  | shr (gd : Guard) (d : BitVec 5) (a : BitVec 5) (b : BitVec 5)
  /-- SHRI (R117). Logical shift right by an immediate. -/
  | shri (gd : Guard) (d : BitVec 5) (a : BitVec 5) (i : BitVec 12) (kw : Option (BitVec 32))
  /-- SAR (R117). Arithmetic shift right. -/
  | sar (gd : Guard) (d : BitVec 5) (a : BitVec 5) (b : BitVec 5)
  /-- SARI (R117). Arithmetic shift right by an immediate. -/
  | sari (gd : Guard) (d : BitVec 5) (a : BitVec 5) (i : BitVec 12) (kw : Option (BitVec 32))
  /-- CMP (R117). Compares two scalars into a guard. -/
  | cmp (gd : Guard) (d : BitVec 5) (a : BitVec 5) (b : BitVec 5) (c : BitVec 3)
  /-- CMPI (R117). Compares a scalar with an immediate into a guard. -/
  | cmpi (gd : Guard) (c : BitVec 2) (q : BitVec 3) (a : BitVec 5) (i : BitVec 12) (kw : Option (BitVec 32))
  /-- SEL (R117). Selects one of two scalars by a guard. -/
  | sel (gd : Guard) (d : BitVec 5) (a : BitVec 5) (b : BitVec 5) (x : BitVec 1) (k : BitVec 3)
  /-- MIN (R117). Signed minimum. -/
  | min (gd : Guard) (d : BitVec 5) (a : BitVec 5) (b : BitVec 5)
  /-- MAX (R117). Signed maximum. -/
  | max (gd : Guard) (d : BitVec 5) (a : BitVec 5) (b : BitVec 5)
  /-- MINU (R117). Unsigned minimum. -/
  | minu (gd : Guard) (d : BitVec 5) (a : BitVec 5) (b : BitVec 5)
  /-- MAXU (R117). Unsigned maximum. -/
  | maxu (gd : Guard) (d : BitVec 5) (a : BitVec 5) (b : BitVec 5)
  /-- CLZ (R117). Counts leading zero bits. -/
  | clz (gd : Guard) (d : BitVec 5) (a : BitVec 5)
  /-- POPC (R117). Counts one bits. -/
  | popc (gd : Guard) (d : BitVec 5) (a : BitVec 5)
  /-- BFX (R118). Extracts a bit field, optionally sign-extended. -/
  | bfx (gd : Guard) (d : BitVec 5) (a : BitVec 5) (i : BitVec 12) (kw : Option (BitVec 32))
  /-- BFI (R118). Inserts a bit field. -/
  | bfi (gd : Guard) (d : BitVec 5) (a : BitVec 5) (i : BitVec 12) (kw : Option (BitVec 32))
  /-- LI (R119). Loads a sign-extended immediate. -/
  | li (gd : Guard) (d : BitVec 5) (i : BitVec 17) (kw : Option (BitVec 32))
  /-- LIH (R119). Writes the upper 32 bits from an immediate. -/
  | lih (gd : Guard) (d : BitVec 5) (i : BitVec 17) (kw : Option (BitVec 32))
  /-- LEA (R119). Computes a 48-bit address. -/
  | lea (gd : Guard) (d : BitVec 5) (a : BitVec 5) (i : BitVec 12) (kw : Option (BitVec 32))
  /-- ADDPC (R119). Adds an offset to the bundle's PC. -/
  | addpc (gd : Guard) (d : BitVec 5) (i : BitVec 17) (kw : Option (BitVec 32))
  /-- GOP (R120). Logic on guards, guard test of a scalar, or guard read into a scalar. -/
  | gop (gd : Guard) (d : BitVec 5) (a : BitVec 5) (b : BitVec 5) (f : BitVec 7)
  /-- MOVS (R121). Reads a system register. -/
  | movs (gd : Guard) (d : BitVec 5) (i : BitVec 17) (kw : Option (BitVec 32))
  /-- MOVZ (R121). Writes a system register, with W1C for $fstat and reserved-bit traps. -/
  | movz (gd : Guard) (d : BitVec 5) (i : BitVec 17) (kw : Option (BitVec 32))
  /-- FADD (R122). FP32 addition with one rounding. -/
  | fadd (gd : Guard) (d : BitVec 5) (a : BitVec 5) (b : BitVec 5) (r : BitVec 4)
  /-- FSUB (R122). FP32 subtraction. -/
  | fsub (gd : Guard) (d : BitVec 5) (a : BitVec 5) (b : BitVec 5) (r : BitVec 4)
  /-- FMUL (R122). FP32 multiplication. -/
  | fmul (gd : Guard) (d : BitVec 5) (a : BitVec 5) (b : BitVec 5) (r : BitVec 4)
  /-- FMA (R122). FP32 fused multiply-add with one rounding. -/
  | fma (gd : Guard) (d : BitVec 5) (a : BitVec 5) (b : BitVec 5) (r : BitVec 4)
  /-- FMIN (R122). FP32 minimum. -/
  | fmin (gd : Guard) (d : BitVec 5) (a : BitVec 5) (b : BitVec 5)
  /-- FMAX (R122). FP32 maximum. -/
  | fmax (gd : Guard) (d : BitVec 5) (a : BitVec 5) (b : BitVec 5)
  /-- FCMP (R122). FP32 comparison into a guard. -/
  | fcmp (gd : Guard) (d : BitVec 5) (a : BitVec 5) (b : BitVec 5) (c : BitVec 3)
  /-- FCVTI (R124). Converts FP32 to a 64-bit integer with saturation. -/
  | fcvti (gd : Guard) (d : BitVec 5) (a : BitVec 5) (u : BitVec 1) (r : BitVec 4)
  /-- FCVTF (R124). Converts a 64-bit integer to FP32. -/
  | fcvtf (gd : Guard) (d : BitVec 5) (a : BitVec 5) (u : BitVec 1) (r : BitVec 4)
  /-- PAIR_WORD (R44). One word carrying a short scalar and a short vector operation under one guard. -/
  | pairWord (gd : Guard) (s : BitVec 4) (d : BitVec 3) (a : BitVec 3) (b : BitVec 3) (v : BitVec 4) (x : BitVec 3) (y : BitVec 3) (z : BitVec 3)
  /-- VADD (R131). Lane-wise 32-bit addition, wrapping or saturating. -/
  | vadd (gd : Guard) (d : BitVec 5) (a : BitVec 5) (b : BitVec 5) (e : BitVec 1) (s : BitVec 2) (z : BitVec 1) (k : BitVec 3)
  /-- VSUB (R131). Lane-wise subtraction. -/
  | vsub (gd : Guard) (d : BitVec 5) (a : BitVec 5) (b : BitVec 5) (e : BitVec 1) (s : BitVec 2) (z : BitVec 1) (k : BitVec 3)
  /-- VMUL (R131). Lane-wise low product. -/
  | vmul (gd : Guard) (d : BitVec 5) (a : BitVec 5) (b : BitVec 5) (e : BitVec 1) (z : BitVec 1) (k : BitVec 3)
  /-- VMULH (R131). Lane-wise high product. -/
  | vmulh (gd : Guard) (d : BitVec 5) (a : BitVec 5) (b : BitVec 5) (e : BitVec 1) (u : BitVec 1) (z : BitVec 1) (k : BitVec 3)
  /-- VMAD (R131). Lane-wise multiply-add into the destination. -/
  | vmad (gd : Guard) (d : BitVec 5) (a : BitVec 5) (b : BitVec 5) (e : BitVec 1) (s : BitVec 2) (z : BitVec 1) (k : BitVec 3)
  /-- VAND (R131). Lane-wise and. -/
  | vand (gd : Guard) (d : BitVec 5) (a : BitVec 5) (b : BitVec 5) (e : BitVec 1) (z : BitVec 1) (k : BitVec 3)
  /-- VOR (R131). Lane-wise or. -/
  | vor (gd : Guard) (d : BitVec 5) (a : BitVec 5) (b : BitVec 5) (e : BitVec 1) (z : BitVec 1) (k : BitVec 3)
  /-- VXOR (R131). Lane-wise exclusive or. -/
  | vxor (gd : Guard) (d : BitVec 5) (a : BitVec 5) (b : BitVec 5) (e : BitVec 1) (z : BitVec 1) (k : BitVec 3)
  /-- VSHL (R131). Lane-wise shift left. -/
  | vshl (gd : Guard) (d : BitVec 5) (a : BitVec 5) (b : BitVec 5) (e : BitVec 1) (z : BitVec 1) (k : BitVec 3)
  /-- VSHR (R131). Lane-wise logical shift right. -/
  | vshr (gd : Guard) (d : BitVec 5) (a : BitVec 5) (b : BitVec 5) (e : BitVec 1) (z : BitVec 1) (k : BitVec 3)
  /-- VSAR (R131). Lane-wise arithmetic shift right. -/
  | vsar (gd : Guard) (d : BitVec 5) (a : BitVec 5) (b : BitVec 5) (e : BitVec 1) (z : BitVec 1) (k : BitVec 3)
  /-- VMIN (R131). Lane-wise minimum. -/
  | vmin (gd : Guard) (d : BitVec 5) (a : BitVec 5) (b : BitVec 5) (e : BitVec 1) (u : BitVec 1) (z : BitVec 1) (k : BitVec 3)
  /-- VMAX (R131). Lane-wise maximum. -/
  | vmax (gd : Guard) (d : BitVec 5) (a : BitVec 5) (b : BitVec 5) (e : BitVec 1) (u : BitVec 1) (z : BitVec 1) (k : BitVec 3)
  /-- VABS (R132). Lane-wise absolute value, integer or FP32. -/
  | vabs (gd : Guard) (d : BitVec 5) (a : BitVec 5) (f : BitVec 1) (z : BitVec 1) (k : BitVec 3)
  /-- VCMP (R133). Lane-wise integer comparison into a lane mask. -/
  | vcmp (gd : Guard) (d : BitVec 5) (a : BitVec 5) (b : BitVec 5) (c : BitVec 3) (z : BitVec 1) (k : BitVec 3)
  /-- VSEL (R134). Selects lanes from two vectors by a mask. -/
  | vsel (gd : Guard) (d : BitVec 5) (a : BitVec 5) (b : BitVec 5) (x : BitVec 1) (s : BitVec 3)
  /-- VFADD (R137). Lane-wise FP32 addition. -/
  | vfadd (gd : Guard) (d : BitVec 5) (a : BitVec 5) (b : BitVec 5) (r : BitVec 3) (z : BitVec 1) (k : BitVec 3)
  /-- VFSUB (R137). Lane-wise FP32 subtraction. -/
  | vfsub (gd : Guard) (d : BitVec 5) (a : BitVec 5) (b : BitVec 5) (r : BitVec 3) (z : BitVec 1) (k : BitVec 3)
  /-- VFMUL (R137). Lane-wise FP32 multiplication. -/
  | vfmul (gd : Guard) (d : BitVec 5) (a : BitVec 5) (b : BitVec 5) (r : BitVec 3) (z : BitVec 1) (k : BitVec 3)
  /-- VFMA (R137). Lane-wise FP32 fused multiply-add. -/
  | vfma (gd : Guard) (d : BitVec 5) (a : BitVec 5) (b : BitVec 5) (r : BitVec 3) (z : BitVec 1) (k : BitVec 3)
  /-- VFMIN (R137). Lane-wise FP32 minimum. -/
  | vfmin (gd : Guard) (d : BitVec 5) (a : BitVec 5) (b : BitVec 5) (z : BitVec 1) (k : BitVec 3)
  /-- VFMAX (R137). Lane-wise FP32 maximum. -/
  | vfmax (gd : Guard) (d : BitVec 5) (a : BitVec 5) (b : BitVec 5) (z : BitVec 1) (k : BitVec 3)
  /-- VFCMP (R133). Lane-wise FP32 comparison into a mask. -/
  | vfcmp (gd : Guard) (d : BitVec 5) (a : BitVec 5) (b : BitVec 5) (c : BitVec 3) (z : BitVec 1) (k : BitVec 3)
  /-- VRCP (R138). Approximate reciprocal per lane. -/
  | vrcp (gd : Guard) (d : BitVec 5) (a : BitVec 5) (z : BitVec 1) (k : BitVec 3)
  /-- VRSQ (R138). Approximate reciprocal square root per lane. -/
  | vrsq (gd : Guard) (d : BitVec 5) (a : BitVec 5) (z : BitVec 1) (k : BitVec 3)
  /-- VEXP2 (R138). Approximate 2^x per lane. -/
  | vexp2 (gd : Guard) (d : BitVec 5) (a : BitVec 5) (z : BitVec 1) (k : BitVec 3)
  /-- VLOG2 (R138). Approximate log2 per lane. -/
  | vlog2 (gd : Guard) (d : BitVec 5) (a : BitVec 5) (z : BitVec 1) (k : BitVec 3)
  /-- VCVT (R139). Packs 32 lanes into one part of a narrow-format string. -/
  | vcvt (gd : Guard) (d : BitVec 5) (a : BitVec 5) (p : BitVec 5) (r : BitVec 3) (f : BitVec 4)
  /-- VCVT_WIDE (R139). Widens one part of a narrow-format string into 32 lanes. -/
  | vcvtWide (gd : Guard) (d : BitVec 5) (a : BitVec 5) (p : BitVec 5) (f : BitVec 4)
  /-- VQNT (R140). Quantises lanes by block scales into packed elements. -/
  | vqnt (gd : Guard) (d : BitVec 5) (a : BitVec 5) (b : BitVec 5) (r : BitVec 3) (h : BitVec 1) (f : BitVec 3)
  /-- VDQNT (R140). Dequantises packed elements by block scales to FP32. -/
  | vdqnt (gd : Guard) (d : BitVec 5) (a : BitVec 5) (b : BitVec 5) (r : BitVec 3) (h : BitVec 1) (f : BitVec 3)
  /-- VBSC (R140). Computes UE8M4 block scale codes from FP32 lanes. -/
  | vbsc (gd : Guard) (d : BitVec 5) (a : BitVec 5) (h : BitVec 1) (f : BitVec 3)
  /-- VPERM (R141). Permutes lanes by an index vector. -/
  | vperm (gd : Guard) (d : BitVec 5) (a : BitVec 5) (b : BitVec 5) (z : BitVec 1) (k : BitVec 3)
  /-- VBCAST (R141). Broadcasts a scalar or one lane to all lanes. -/
  | vbcast (gd : Guard) (d : BitVec 5) (a : BitVec 5) (b : BitVec 5) (l : BitVec 1) (z : BitVec 1) (k : BitVec 3)
  /-- VSLIDE (R141). Slides or rotates lanes by an immediate. -/
  | vslide (gd : Guard) (d : BitVec 5) (a : BitVec 5) (r : BitVec 1) (s : BitVec 6)
  /-- VRED (R142). Reduces active lanes into lane 0. -/
  | vred (gd : Guard) (d : BitVec 5) (a : BitVec 5) (p : BitVec 4) (k : BitVec 3)
  /-- VSCAN (R142). Inclusive or exclusive scan over active lanes. -/
  | vscan (gd : Guard) (d : BitVec 5) (a : BitVec 5) (x : BitVec 1) (p : BitVec 4) (k : BitVec 3)
  /-- VIOTA (R141). Writes an arithmetic sequence into all lanes. -/
  | viota (gd : Guard) (d : BitVec 5) (a : BitVec 5) (i : BitVec 12) (kw : Option (BitVec 32))
  /-- VMOP (R135). Bitwise operation or lowest-bit isolation on lane masks. -/
  | vmop (gd : Guard) (d : BitVec 5) (a : BitVec 5) (b : BitVec 5) (f : BitVec 7)
  /-- VMPOP_POPC (R136). Counts set bits of a mask into a scalar. -/
  | vmpopPopc (gd : Guard) (d : BitVec 5) (a : BitVec 5)
  /-- VMPOP_FFS (R136). Index of the lowest set bit of a mask. -/
  | vmpopFfs (gd : Guard) (d : BitVec 5) (a : BitVec 5)
  /-- VMPOP_GET (R136). Copies a mask into a scalar. -/
  | vmpopGet (gd : Guard) (d : BitVec 5) (a : BitVec 5)
  /-- VMPOP_SET (R136). Sets a mask from a scalar. -/
  | vmpopSet (gd : Guard) (d : BitVec 5) (a : BitVec 5)
  /-- VRNG (R143). Fills lanes with random values from the thread generator. -/
  | vrng (gd : Guard) (d : BitVec 5) (t : BitVec 2) (z : BitVec 1) (k : BitVec 3)
  /-- VPRUNE (R144). Stochastic magnitude pruning against a threshold. -/
  | vprune (gd : Guard) (d : BitVec 5) (a : BitVec 5) (b : BitVec 5) (z : BitVec 1) (k : BitVec 3)
  /-- VNM (R145). Imposes N-of-16 structure and writes the keep mask. -/
  | vnm (gd : Guard) (d : BitVec 5) (a : BitVec 5) (b : BitVec 5) (i : BitVec 1) (s : BitVec 2)
  /-- VMOVS (R141). Moves one lane into a scalar. -/
  | vmovs (gd : Guard) (d : BitVec 5) (a : BitVec 5) (u : BitVec 1) (l : BitVec 5)
  /-- VINS (R141). Inserts a scalar into one lane. -/
  | vins (gd : Guard) (d : BitVec 5) (a : BitVec 5) (l : BitVec 5)
  /-- LD_B (R178). Loads a sign-extended byte. -/
  | ldB (gd : Guard) (d : BitVec 5) (b : BitVec 5) (i : BitVec 12) (kw : Option (BitVec 32))
  /-- LD_H (R178). Loads a sign-extended halfword. -/
  | ldH (gd : Guard) (d : BitVec 5) (b : BitVec 5) (i : BitVec 12) (kw : Option (BitVec 32))
  /-- LD_W (R178). Loads a sign-extended word. -/
  | ldW (gd : Guard) (d : BitVec 5) (b : BitVec 5) (i : BitVec 12) (kw : Option (BitVec 32))
  /-- LD_D (R178). Loads a doubleword. -/
  | ldD (gd : Guard) (d : BitVec 5) (b : BitVec 5) (i : BitVec 12) (kw : Option (BitVec 32))
  /-- LDU_B (R178). Loads a zero-extended byte. -/
  | lduB (gd : Guard) (d : BitVec 5) (b : BitVec 5) (i : BitVec 12) (kw : Option (BitVec 32))
  /-- LDU_H (R178). Loads a zero-extended halfword. -/
  | lduH (gd : Guard) (d : BitVec 5) (b : BitVec 5) (i : BitVec 12) (kw : Option (BitVec 32))
  /-- LDU_W (R178). Loads a zero-extended word. -/
  | lduW (gd : Guard) (d : BitVec 5) (b : BitVec 5) (i : BitVec 12) (kw : Option (BitVec 32))
  /-- ST_B (R178). Stores a byte. -/
  | stB (gd : Guard) (d : BitVec 5) (b : BitVec 5) (i : BitVec 12) (kw : Option (BitVec 32))
  /-- ST_H (R178). Stores a halfword. -/
  | stH (gd : Guard) (d : BitVec 5) (b : BitVec 5) (i : BitVec 12) (kw : Option (BitVec 32))
  /-- ST_W (R178). Stores a word. -/
  | stW (gd : Guard) (d : BitVec 5) (b : BitVec 5) (i : BitVec 12) (kw : Option (BitVec 32))
  /-- ST_D (R178). Stores a doubleword. -/
  | stD (gd : Guard) (d : BitVec 5) (b : BitVec 5) (i : BitVec 12) (kw : Option (BitVec 32))
  /-- LDV (R179). Loads 128 bytes into a vector register. -/
  | ldv (gd : Guard) (d : BitVec 5) (b : BitVec 5) (i : BitVec 12) (kw : Option (BitVec 32))
  /-- STV (R179). Stores a vector register as 128 bytes. -/
  | stv (gd : Guard) (d : BitVec 5) (b : BitVec 5) (i : BitVec 12) (kw : Option (BitVec 32))
  /-- LDVS (R180). Strided masked vector load. -/
  | ldvs (gd : Guard) (d : BitVec 5) (a : BitVec 5) (b : BitVec 5) (z : BitVec 1) (k : BitVec 3)
  /-- STVS (R180). Strided masked vector store. -/
  | stvs (gd : Guard) (d : BitVec 5) (a : BitVec 5) (b : BitVec 5) (k : BitVec 3)
  /-- LDVX (R180). Indexed masked vector load. -/
  | ldvx (gd : Guard) (d : BitVec 5) (a : BitVec 5) (b : BitVec 5) (z : BitVec 1) (k : BitVec 3)
  /-- STVX (R180). Indexed masked vector store. -/
  | stvx (gd : Guard) (d : BitVec 5) (a : BitVec 5) (b : BitVec 5) (k : BitVec 3)
  /-- LDA (R181). Atomic load with order and scope. -/
  | lda (gd : Guard) (d : BitVec 5) (a : BitVec 5) (w : BitVec 1) (s : BitVec 3) (o : BitVec 3)
  /-- STA (R181). Atomic store with order and scope. -/
  | sta (gd : Guard) (d : BitVec 5) (a : BitVec 5) (w : BitVec 1) (s : BitVec 3) (o : BitVec 3)
  /-- AMO (R181). Read-modify-write atomic at the home returning the old value. -/
  | amo (gd : Guard) (d : BitVec 5) (a : BitVec 5) (w : BitVec 1) (s : BitVec 3) (p : BitVec 4) (o : BitVec 3)
  /-- CAS (R181). Compare-and-swap at the home. -/
  | cas (gd : Guard) (d : BitVec 5) (a : BitVec 5) (b : BitVec 5) (w : BitVec 1) (s : BitVec 3) (o : BitVec 3)
  /-- VAMO (R182). Relaxed atomic per lane at indexed addresses. -/
  | vamo (gd : Guard) (d : BitVec 5) (a : BitVec 5) (b : BitVec 5) (s : BitVec 3) (o : BitVec 4)
  /-- FENCE (R322). Orders the thread's accesses by order and scope. -/
  | fence (gd : Guard) (s : BitVec 3) (o : BitVec 3)
  /-- TLD (R186). Loads an operand slot from a tensor described by an entry. -/
  | tld (gd : Guard) (d : BitVec 5) (a : BitVec 5) (b : BitVec 5) (t : BitVec 1) (x : BitVec 1) (y : BitVec 1)
  /-- TLDA (R187). Loads an accumulator tile from the scratchpad. -/
  | tlda (gd : Guard) (t : BitVec 4) (a : BitVec 5) (b : BitVec 5) (p : BitVec 1) (f : BitVec 3)
  /-- TST (R188). Stores an accumulator tile to the scratchpad with conversion. -/
  | tst (gd : Guard) (t : BitVec 4) (a : BitVec 5) (b : BitVec 5) (p : BitVec 1) (r : BitVec 3) (f : BitVec 3)
  /-- MCALL (R226). Snapshots parameters and queues a routine call. -/
  | mcall (gd : Guard) (v : BitVec 5) (q : BitVec 3) (x : BitVec 3) (w : BitVec 1) (p : BitVec 1) (r : BitVec 6)
  /-- MCALL_ENGINE_START (R228). The queued MCALL reaches the engine, checks its entry and domain, walks and runs. -/
  | mcallEngineStart (tid : Nat)
  /-- MCALL_RETIRE (R221). The routine's tile is complete and the command retires. -/
  | mcallRetire (tid : Nat)
  /-- ROUTINE_STOP (R242). A stream fault or cell or operand memory error stops the routine at its last complete tile step. -/
  | routineStop (tid : Nat) (e : RoutineFault)
  /-- MSETP (R223). Writes a parameter register or one halfword of it. -/
  | msetp (gd : Guard) (d : BitVec 5) (a : BitVec 5) (h : BitVec 1) (y : BitVec 2)
  /-- MGETP (R223). Reads a parameter register. -/
  | mgetp (gd : Guard) (d : BitVec 5) (a : BitVec 5)
  /-- MCLAIM (R218). Claims a set of slots or tiles all at once or nothing. -/
  | mclaim (gd : Guard) (d : BitVec 5) (a : BitVec 5) (t : BitVec 1)
  /-- MREL (R218). Queues release and clearing of held slots or tiles. -/
  | mrel (gd : Guard) (a : BitVec 5) (t : BitVec 1)
  /-- MZERO (R229). Sets a tile to an identity and mode. -/
  | mzero (gd : Guard) (t : BitVec 4) (a : BitVec 5) (b : BitVec 5) (p : BitVec 1) (j : BitVec 2) (i : BitVec 1)
  /-- MNORM (R230). Renormalises the exponent of a floating tile. -/
  | mnorm (gd : Guard) (t : BitVec 4) (a : BitVec 5) (b : BitVec 5) (p : BitVec 1) (x : BitVec 1)
  /-- MRDROW (R231). Reads one tile row into a vector register. -/
  | mrdrow (gd : Guard) (d : BitVec 5) (t : BitVec 4) (b : BitVec 5) (r : BitVec 3) (f : BitVec 2)
  /-- MWRROW (R232). Writes one tile row from a vector register. -/
  | mwrrow (gd : Guard) (d : BitVec 5) (t : BitVec 4) (b : BitVec 5) (f : BitVec 2)
  /-- MCELL (R200). Loads a cell program image from memory into every cell. -/
  | mcell (gd : Guard) (a : BitVec 5) (i : BitVec 12) (kw : Option (BitVec 32))
  /-- MCELL_PRE (R200). Loads a preset cell image into every cell. -/
  | mcellPre (gd : Guard) (p : BitVec 5)
  /-- MFLOW (R208). Sets the flow pattern and descriptor. -/
  | mflow (gd : Guard) (y : BitVec 1) (p : BitVec 2) (a : BitVec 5) (i : BitVec 12) (kw : Option (BitVec 32))
  /-- MROUT (R211). Loads a routine into the routine store and table. -/
  | mrout (gd : Guard) (d : BitVec 5) (a : BitVec 5) (i : BitVec 12) (kw : Option (BitVec 32))
  /-- CONFIG_COMMAND_APPLY (R202). A configuration command applies once every earlier MCALL on the core has retired. -/
  | configCommandApply (tid : Nat)
  /-- MTID (R233). Writes a tensor identifier entry from a memory image. -/
  | mtid (gd : Guard) (a : BitVec 5) (e : BitVec 6)
  /-- MTIDR (R235). Reads a doubleword of a tensor identifier entry. -/
  | mtidr (gd : Guard) (d : BitVec 5) (a : BitVec 5) (k : BitVec 3) (e : BitVec 1)
  /-- MDUP (R237). Edits the duplication map of an entry. -/
  | mdup (gd : Guard) (d : BitVec 5) (a : BitVec 5) (b : BitVec 5) (q : BitVec 2) (e : BitVec 1)
  /-- TABLE_COMMAND_APPLY (R234). An MTID or MDUP applies after earlier readers of the entry and MCALLs are done. -/
  | tableCommandApply (tid : Nat)
  /-- MCODE (R244). Loads 16 BF16 levels into the inactive code table bank. -/
  | mcode (gd : Guard) (a : BitVec 5) (i : BitVec 12) (kw : Option (BitVec 32))
  /-- MCODE_FIXED (R244). Loads the fixed QC4 levels into the inactive bank. -/
  | mcodeFixed (gd : Guard)
  /-- CODE_TABLE_FLIP (R83). The code table flips banks once operations using the old bank have retired. -/
  | codeTableFlip (core : Nat)
  /-- MPRED (R224). Operates on tile predicate registers. -/
  | mpred (gd : Guard) (d : BitVec 5) (a : BitVec 5) (b : BitVec 5) (f : BitVec 7)
  /-- MWAIT (R245). Holds issue until at most n matrix commands remain unretired. -/
  | mwait (gd : Guard) (c : BitVec 6)
  /-- YSORT (R151). Stable sort of 32 keys with payloads. -/
  | ysort (gd : Guard) (d : BitVec 5) (a : BitVec 5) (b : BitVec 5) (x : BitVec 1) (t : BitVec 2)
  /-- YMERGE (R152). Stable merge of two 32-entry runs, low or high half. -/
  | ymerge (gd : Guard) (d : BitVec 5) (a : BitVec 5) (b : BitVec 5) (h : BitVec 1) (x : BitVec 1) (t : BitVec 2)
  /-- YTOPK_INIT (R154). Opens the select state with capacity k. -/
  | ytopkInit (gd : Guard) (a : BitVec 5) (x : BitVec 1) (t : BitVec 2)
  /-- YTOPK_ADD (R155). Offers active lanes as keys to the running top-k. -/
  | ytopkAdd (gd : Guard) (a : BitVec 5) (b : BitVec 5) (k : BitVec 3)
  /-- YTOPK_OUT (R156). Writes part of the selection and the kept and left sums. -/
  | ytopkOut (gd : Guard) (d : BitVec 5) (a : BitVec 5) (b : BitVec 5)
  /-- YSUMS (R158). Writes exact sums of selected and left-out keys. -/
  | ysums (gd : Guard) (d : BitVec 5) (a : BitVec 5) (b : BitVec 5) (r : BitVec 3) (y : BitVec 1) (t : BitVec 2)
  /-- YRANK (R153). Writes each lane's sorted position. -/
  | yrank (gd : Guard) (d : BitVec 5) (a : BitVec 5) (x : BitVec 1) (t : BitVec 2)
  /-- YBKT (R159). Counts boundaries not above each key. -/
  | ybkt (gd : Guard) (d : BitVec 5) (a : BitVec 5) (b : BitVec 5) (k : BitVec 3) (t : BitVec 2)
  /-- YCMPR (R161). Compacts selected lanes to the bottom. -/
  | ycmpr (gd : Guard) (d : BitVec 5) (a : BitVec 5) (b : BitVec 5)
  /-- YEXPD (R161). Expands lanes to selected positions. -/
  | yexpd (gd : Guard) (d : BitVec 5) (a : BitVec 5) (b : BitVec 5) (z : BitVec 1)
  /-- YHIST (R160). Adds counts or weights into a histogram vector. -/
  | yhist (gd : Guard) (d : BitVec 5) (a : BitVec 5) (b : BitVec 5) (w : BitVec 1) (k : BitVec 3)
  /-- YARGX (R162). Finds the extreme key and its lane. -/
  | yargx (gd : Guard) (d : BitVec 5) (a : BitVec 5) (k : BitVec 3) (x : BitVec 1) (t : BitVec 2)
  /-- CSTAGE (R345). Raises the task's copy stage. -/
  | cstage (gd : Guard) (a : BitVec 5) (i : BitVec 12) (kw : Option (BitVec 32))
  /-- CARRIVE (R352). Announces one arrival with expected bytes at a completion object. -/
  | carrive (gd : Guard) (a : BitVec 5) (b : BitVec 5)
  /-- CSCHED (R345). Replaces the task's copy schedule and resets its stage. -/
  | csched (gd : Guard) (a : BitVec 5)
  /-- RPUSH (R282). Pushes data into the next ring slot for multicast delivery. -/
  | rpush (gd : Guard) (d : BitVec 5) (a : BitVec 5) (b : BitVec 5)
  /-- RPUSH_OPEN (R282). Opens a sheaf ring with a descriptor. -/
  | rpushOpen (gd : Guard) (d : BitVec 5) (a : BitVec 5) (b : BitVec 5)
  /-- RPUSH_CLOSE (R282). Closes an owned ring when every slot is free. -/
  | rpushClose (gd : Guard) (d : BitVec 5) (a : BitVec 5)
  /-- RPOP (R283). Reports and releases the calling core's current ring slot. -/
  | rpop (gd : Guard) (d : BitVec 5) (a : BitVec 5) (k : BitVec 3)
  /-- RSTAT (R283). Reports the calling core's current ring slot. -/
  | rstat (gd : Guard) (d : BitVec 5) (a : BitVec 5) (k : BitVec 3)
  /-- RING_DELIVERY_LAND (R282). A ring delivery's last byte lands in a consumer, setting its LAND bit. -/
  | ringDeliveryLand (clu : Nat) (k : Nat)
  /-- MQSEND (R276). Sends a message to a core's inbound queue if credits allow. -/
  | mqsend (gd : Guard) (d : BitVec 5) (a : BitVec 5) (b : BitVec 5)
  /-- MQRECV (R277). Takes one ready message from a queue. -/
  | mqrecv (gd : Guard) (d : BitVec 5) (a : BitVec 5) (x : BitVec 1) (k : BitVec 3)
  /-- MQSTAT (R278). Reports queue occupancy or credits. -/
  | mqstat (gd : Guard) (d : BitVec 5) (a : BitVec 5)
  /-- QUEUE_ENTRY_APPLY (R271). The queue unit applies one inbound write or atomic entry or marks a message ready. -/
  | queueEntryApply (core : Nat)
  /-- QUEUE_CREDIT_RETURN (R272). A freed entry's credit returns to the sender after 4 cycles. -/
  | queueCreditReturn (core : Nat)
  /-- TSUBMIT (R330). Submits a task record to dependence analysis and waits. -/
  | tsubmit (gd : Guard) (d : BitVec 5) (a : BitVec 5)
  /-- TSUBMIT_RETRY (R330). A refused submission issues again after 256 cycles. -/
  | tsubmitRetry (tid : Nat)
  /-- TSIGNAL (R332). Decrements a record's join counter or underflows. -/
  | tsignal (gd : Guard) (a : BitVec 5)
  /-- LAUNCH (R334). Blocking device-side launch into the pending-launch store. -/
  | launch (gd : Guard) (a : BitVec 5) (o : BitVec 1)
  /-- LAUNCH_NB (R334). Non-blocking launch reporting success in a guard. -/
  | launchNb (gd : Guard) (d : BitVec 5) (a : BitVec 5) (o : BitVec 1)
  /-- PENDING_LAUNCH_DRAIN (R334). The scheduler drains one pending-launch entry into the queues every 4 cycles. -/
  | pendingLaunchDrain (die : Nat)
  /-- FRED (R419). Sends a reduction contribution to a line on a device. -/
  | fred (gd : Guard) (d : BitVec 5) (a : BitVec 5) (b : BitVec 5)
  /-- SLADD (R423). Appends a token row to the dispatch baskets. -/
  | sladd (gd : Guard) (d : BitVec 5) (a : BitVec 5) (b : BitVec 5)
  /-- SLSEND (R424). Sends every basket row as TOKEN packets. -/
  | slsend (gd : Guard) (d : BitVec 5)
  /-- SLRECV (R426). Reads expert counts or spill counts of the last boundary. -/
  | slrecv (gd : Guard) (d : BitVec 5) (a : BitVec 5)
  /-- BBMARK (R392). Writes a marker entry to the black-box record. -/
  | bbmark (gd : Guard) (d : BitVec 5) (a : BitVec 5) (i : BitVec 12) (kw : Option (BitVec 32))
  /-- PWRQ (R387). Reads an item of the energy account. -/
  | pwrq (gd : Guard) (d : BitVec 5) (i : BitVec 3)
  /-- PWRRES (R386). Reserves energy for the domain if available. -/
  | pwrres (gd : Guard) (d : BitVec 5) (a : BitVec 5)
  /-- PWRRES_REL (R386). Releases the domain's energy reservation. -/
  | pwrresRel (gd : Guard) (d : BitVec 5)
  /-- TLBI (R393). Invalidates translations and instruction-store lines over a range. -/
  | tlbi (gd : Guard) (d : BitVec 5) (a : BitVec 5) (b : BitVec 5)
  /-- TLBI_COMPLETE (R393). Invalidation completes once old translations drain and pins release. -/
  | tlbiComplete (k : Nat)
  /-- SELFT (R390). Starts a unit's self-test or reads its verdict. -/
  | selft (gd : Guard) (d : BitVec 5) (a : BitVec 5) (w : BitVec 1)
  /-- EMPTY_BUNDLE (R35). A header with no slots issues and applies only its stall count. -/
  | emptyBundle (stall : BitVec 4)
  /-- LINE_SKIP (R36). Header 0x8000 moves fetch to the next 64-byte line without issuing. -/
  | lineSkip
  /-- LINE_FILL (R21). An instruction-store line fill completes and the thread becomes RUNNING. -/
  | lineFill (tid : Nat)
  /-- ASYNC_TRAP (R246). An engine's fault for an issued command traps the thread before its next bundle. -/
  | asyncTrap (tid : Nat)
  /-- YIELD_EXPIRY (R106). The yield's cycle count elapses and the thread returns to RUNNING. -/
  | yieldExpiry (tid : Nat)
  /-- THREAD_FREE (R19). A RETIRING thread's queues drain; it frees its sequencer and releases holdings. -/
  | threadFree (tid : Nat)
  /-- TASK_PLACEMENT (R337). The scheduler places at most one ready task per cycle on free sequencers. -/
  | taskPlacement (die : Nat)
  /-- PRIORITY_AGEING (R336). Every 65,536 cycles of waiting raises a task's effective priority. -/
  | priorityAgeing (die : Nat) (k : Nat)
  /-- RESERVATION_TAKEN (R338). A starving task takes the die's sequencer reservation after its wait count expires. -/
  | reservationTaken (die : Nat)
  /-- READY_QUEUE_ENTRY (R327). A task waiting for a full queue is entered when space frees. -/
  | readyQueueEntry (die : Nat)
  /-- STOP_LANDS (R261). A requested stop lands at the thread's next permitted point. -/
  | stopLands (tid : Nat)
  /-- STOP_REQUEST_TIMEOUT (R341). A stop not landed within 1,048,576 cycles is withdrawn and the task drained. -/
  | stopRequestTimeout (tid : Nat)
  /-- KILL_REQUEUE (R20). After started commands end, a killed task is re-queued with JOIN 0. -/
  | killRequeue (die : Nat) (k : Nat)
  /-- CHECKPOINT_WRITE (R342). The scheduler writes the stopped task's hamper and marks it CHECKPOINTED. -/
  | checkpointWrite (die : Nat) (k : Nat)
  /-- COPY_CHUNK (R346). A free copy channel moves a 4 KiB chunk of the oldest entry. -/
  | copyChunk (die : Nat) (k : Nat)
  /-- COPY_ENTRY_COMPLETE (R347). An entry's last byte lands; it decrements its object and task. -/
  | copyEntryComplete (die : Nat) (k : Nat)
  /-- COPY_ENTRY_STOP (R348). An entry stops at a chunk boundary on a fault and records or reports it. -/
  | copyEntryStop (die : Nat) (k : Nat)
  /-- TRANSLATION_WALK (R303). A table walk completes, installing a leaf or faulting every requester. -/
  | translationWalk (die : Nat)
  /-- PACKAGE_RESET (R377). Reset runs secure boot, verifies and locks firmware stores. -/
  | packageReset (boot : BootImages)
  /-- ATTESTATION_QUOTE (R378). The security processor issues a signed quote on request. -/
  | attestationQuote (nonce : BitVec 256)
  /-- KEY_SLOT_WRITE (R375). The security processor generates or imports a key into a slot. -/
  | keySlotWrite (slot : Nat) (dom : BitVec 6)
  /-- PACKET_INGRESS (R380). A matched Ethernet packet is written to a ring slot and launched as a task, or dropped. -/
  | packetIngress (p : EthPacket)
  /-- HUB_REGISTER_WRITE (R373). System cores write a hub control register without its own behaviour. -/
  | hubRegisterWrite (w : HubWrite)
  /-- GRANT_WRITE (R383). System cores write the energy grant; values above 240,000 are refused. -/
  | grantWrite (g : Nat)
  /-- ENERGY_SAMPLE (R384). Each 1 µs sample debits measured energy and recomputes holds. -/
  | energySample (nJ : Nat)
  /-- ENERGY_INTERVAL (R384). Each 100 µs interval refills the balance and lapses reservations. -/
  | energyInterval
  /-- SELF_TEST_VERDICT (R388). A self-test finishes with a transient or lasting verdict. -/
  | selfTestVerdict (unit : BitVec 24) (lasting : Bool)
  /-- BLACK_BOX_CLEAR (R391). System cores thaw or clear the black-box record. -/
  | blackBoxClear (die : Nat) (thaw clear : Bool)
  /-- FATAL_HARDWARE_EVENT (R391). A thermal trip, rail fault or hub fatal error is recorded and freezes the record. -/
  | fatalHardwareEvent (die : Nat) (ev : FatalEvent) (data0 : BitVec 64) (data1 : BitVec 64)
  /-- FLIT_CRC_FAIL (R396). A flit fails CRC and is replayed with those after it. -/
  | flitCrcFail (port : Nat) (lane : Nat)
  /-- LANE_OUT_OF_SERVICE (R398). A lane leaves service and the link runs on the rest. -/
  | laneOutOfService (port : Nat) (lane : Nat)
  /-- LINK_DOWN (R398). A link with no lanes is dropped from routing and its packets re-routed. -/
  | linkDown (port : Nat)
  /-- PACKET_ROUTE (R400). A router forwards an arriving packet along its path or reroutes it. -/
  | packetRoute (port : Nat) (p : Packet)
  /-- ESCAPE_MOVE (R401). A packet stuck 50 µs at a queue head moves to the escape channel. -/
  | escapeMove (k : Nat)
  /-- FABRIC_PACKET_SEND (R406). A pending WRITE, FRED or TOKEN packet leaves once a credit is held. -/
  | fabricPacketSend (k : Nat)
  /-- CREDIT_REQUEST (R402). A target receives CREQ and grants credits as entries free. -/
  | creditRequest (src : Nat)
  /-- CREDIT_GRANT (R402). A source receives GRANT credits. -/
  | creditGrant (src : Nat) (n : Nat)
  /-- CREDIT_EXPIRY (R402). A credit unused for 65,536 cycles returns to the target. -/
  | creditExpiry (dst : Nat)
  /-- ACK_RECEIVE (R406). An ACK arrives, lowering the window's OUT count. -/
  | ackReceive (src : Nat) (seq : Nat)
  /-- WRITE_PLACE (R408). An arriving WRITE packet is placed in the granary for its step, or held or discarded. -/
  | writePlace (k : Nat)
  /-- FRED_APPLY (R420). The target bank combines a FRED contribution into its reduction line. -/
  | fredApply (k : Nat)
  /-- TOKEN_PLACE (R425). A TOKEN row is placed, forwarded to its second choice, or spilled. -/
  | tokenPlace (k : Nat)
  /-- FLUSH_COMPLETE (R412). All step-n packets acknowledged; FLUSHED(n) sent to the coordinator. -/
  | flushComplete
  /-- COORDINATOR_GO (R412). The coordinator, holding every FLUSHED, sends GO to every member. -/
  | coordinatorGo
  /-- HARVEST_APPLY (R413). On GO the granary's step entries are applied to target scratchpads. -/
  | harvestApply
  /-- BOUNDARY_COMPLETE (R412). Application ends; STEP statuses are written and waiting STEPs complete. -/
  | boundaryComplete
  /-- STEP_SKEW (R416). The coordinator's skew limit expires before every FLUSHED arrives. -/
  | stepSkew
  /-- DECLARE_FAILED (R415). System cores add a device to FAILED. -/
  | declareFailed (dev : Nat)
  /-- FAILED_NOTICE (R415). A FAILED notice arrives and boundaries stop waiting for that device. -/
  | failedNotice (dev : Nat)
  /-- FIXED_LATENCY_WRITE_LANDS (R51). A fixed-latency result issued in cycle t is written to its destination register at the end of cycle t + L - 1. -/
  | fixedLatencyWriteLands (tid : Nat)
  /-- ACCESS_PERFORMS_AT_HOME (R308). A load, store, atomic or tile transfer issued earlier performs at its home, answers its check and lands its interlocked result. -/
  | accessPerformsAtHome (tid : Nat)
  /-- MATRIX_COMMAND_ENGINE_APPLY (R220). A queued MZERO, MNORM, MRDROW, MWRROW, MREL or MCODE reaches the matrix engine, is checked and applied, and retires. -/
  | matrixCommandEngineApply (tid : Nat)
  /-- DIE_ENGINE_COMMAND_APPLY (R331). The die engine applies a submission, launch, SLADD, CSTAGE or CSCHED that reached it, one per cycle in arrival order. -/
  | dieEngineCommandApply (die : Nat)
  /-- THERMAL_WARNING (R391). A thermal warning input writes black-box event 0x0120 without freezing the record. -/
  | thermalWarning (die : Nat) (data0 : BitVec 64)
  /-- SYSTEM_CORE_LINE_WRITEBACK (R372). A system-core cache line is written back to HBM, making the system cores' stores visible to compute-side readers. -/
  | systemCoreLineWriteback (line : Nat) (data : BitVec 512)
  /-- DECODE_CHECK_TRAP (R37). A bundle with a reserved header bit, an unassigned opcode or function, or a reserved operand bit reaches issue and traps ILLEGAL_BUNDLE or ILLEGAL_OP with no effect. -/
  | decodeCheckTrap (cause : Cause) (engine : BitVec 3) (estat : BitVec 64)
  deriving DecidableEq, Repr

end Sys2Proof
end

