-- ==== Sys2Proof/WellFormed.lean ====
section
/-! DEFINITION. WellFormed: the legality of an instruction's fields that depends on the encoding alone (R41, R42, R43,
R94 and the limits each instruction states); what breaks it traps ILLEGAL_OP when decoded. -/

namespace Sys2Proof

/-- The system registers of Table 1-3 (R13) by number: width in bits, readable at T, writable at F (then also at T
unless it belongs to the trap record). -/
structure SysRegInfo where
  width : Nat
  atT : Bool
  writable : Bool
  deriving DecidableEq, Repr

/-- Table 1-3 (R13); `none` for a number that is not in the table. -/
def sysRegInfo (n : Nat) : Option SysRegInfo :=
  if n = 0x000 then some ⟨11, true, false⟩
  else if n = 0x001 then some ⟨3, true, false⟩
  else if n = 0x002 then some ⟨5, true, false⟩
  else if n = 0x003 then some ⟨1, true, false⟩
  else if n = 0x004 then some ⟨11, true, false⟩
  else if n = 0x005 then some ⟨16, true, false⟩
  else if n = 0x006 then some ⟨8, true, false⟩
  else if n = 0x008 then some ⟨8, false, true⟩
  else if n = 0x009 then some ⟨32, false, true⟩
  else if n = 0x00A then some ⟨3, false, true⟩
  else if n = 0x00B then some ⟨64, false, true⟩
  else if n = 0x00C then some ⟨48, false, true⟩
  else if n = 0x00D then some ⟨48, false, true⟩
  else if n = 0x010 then some ⟨3, true, true⟩
  else if n = 0x011 then some ⟨6, true, true⟩
  else if n = 0x012 then some ⟨1, true, true⟩
  else if n = 0x013 then some ⟨2, true, true⟩
  else if n = 0x014 then some ⟨16, true, false⟩
  else if 0x018 ≤ n ∧ n ≤ 0x01B then some ⟨64, true, true⟩
  else if 0x020 ≤ n ∧ n ≤ 0x03F then some ⟨64, true, true⟩
  else none

/-- A MOVZ names a writable register of Table 1-3; one to an RO register traps ILLEGAL_OP at either level (R13). -/
def movzOk (n : Nat) : Bool :=
  match sysRegInfo n with
  | some r => r.writable
  | none => false

/-- R43: the K word is present exactly when the field holds the value that requests extension. -/
def kwOk {n : Nat} (field ext : BitVec n) (kw : Option Word) : Bool :=
  if field = ext then kw.isSome else kw.isNone

/-- A zero-extended 12-bit immediate, K read as unsigned (R43). -/
def immU12 (i : BitVec 12) (kw : Option Word) : Nat := (kw.map BitVec.toNat).getD i.toNat

/-- A zero-extended 17-bit immediate, K read as unsigned (R43). -/
def immU17 (i : BitVec 17) (kw : Option Word) : Nat := (kw.map BitVec.toNat).getD i.toNat

/-- An even register number, where a field names a pair (R150, R417). -/
def evenReg (r : BitVec 5) : Bool := r.toNat % 2 == 0

/-- R123: FN[3:0] is 0, or names one of the six modes of Table 3-3. -/
def rm4Ok (r : BitVec 4) : Bool := r == 0 || (8 ≤ r && r ≤ 13)

/-- The low bit, the width and SX of BFX and BFI (R118). -/
def bfField (i : BitVec 12) (kw : Option Word) : Nat × Nat × Bool :=
  let n := (kw.map BitVec.toNat).getD i.toNat
  (n % 64, n / 64 % 64 + 1, kw.isSome && n.testBit 12)

/-- R118: K[31:13] is 0, the field ends within 64 bits, and SX is 0 for BFI. -/
def bfOk (sxAllowed : Bool) (i : BitVec 12) (kw : Option Word) : Bool :=
  let (lo, w, sx) := bfField i kw
  lo + w ≤ 64 && (sxAllowed || !sx) && (kw.map BitVec.toNat).getD 0 < 8192

/-- The element width in bits of a format of Table 3-1 (R139); 32 for the codes 0xC and 0xD of VCVT. -/
def fmtWidth (f : BitVec 4) : Nat :=
  match f.toNat with
  | 0 => 16 | 1 => 16 | 2 => 8 | 3 => 8 | 4 => 6 | 5 => 6 | 6 => 4 | 7 => 8 | 8 => 4 | 9 => 16 | 10 => 4 | 11 => 1
  | _ => 32

/-- R139: part p of a format fits the register's 32 lanes. -/
def partOk (f : BitVec 4) (p : BitVec 5) : Bool := fmtWidth f * p.toNat + fmtWidth f ≤ 32

/-- R139: the pack formats that take a rounding mode: the floating formats and the conversions `.fi` and `.if`. R139 has a pack under RST take 32 values, and the
pack of an integer format, QC4 or B1 take no rounding: with RM = 0 and $round = RST the latter draws none, the model's choice (log entry 76). -/
def vcvtRounds (f : BitVec 4) : Bool := f ≤ 6 || 12 ≤ f

/-- Table 9-3 (R224): the assigned functions of MPRED, its register limits (R41) and unused fields. -/
def mpredOk (d a b : BitVec 5) (f : BitVec 7) : Bool :=
  match f.toNat with
  | 0 => d ≤ 7 && b == 0
  | 1 => a ≤ 7 && b == 0
  | 2 => d ≤ 7 && b == 0
  | 3 => d ≤ 7 && b == 0
  | 4 => d ≤ 7 && a ≤ 7 && b ≤ 7
  | 5 => d ≤ 7 && a ≤ 7 && b ≤ 7
  | 6 => d ≤ 7 && a ≤ 7 && b ≤ 7
  | 7 => d ≤ 7 && a ≤ 7
  | _ => false


/-- The legality of an instruction's fields, one line per instruction; the events have nothing to check. -/
def Instr.wellFormed (i : Instr) : Bool :=
  match i with
  | .nop _ => true
  | .br _ o kw => kwOk o 0x10_0000#21 kw
  | .jmp _ _ => true
  | .call _ o kw => kwOk o 0x10_0000#21 kw
  | .callr _ _ _ => true
  | .ret _ _ => true
  | .loop _ _ c kw => kwOk c 0x800#12 kw
  | .loopr _ _ _ _ => true
  | .lbrk _ k => k ≤ 5
  | .endThread _ => true
  | .yield _ _ => true
  | .await _ _ _ i kw => kwOk i 0x800#12 kw
  | .joinNew _ => true
  | .join _ _ i kw => kwOk i 0x800#12 kw
  | .leave _ => true
  | .bar _ => true
  | .fuse _ k f => 2 ≤ k && k.toNat + f.toNat ≤ 8
  | .decouple _ => true
  | .rejoin _ _ => true
  | .suspend _ _ _ => true
  | .suspendComplete _ _ => true
  | .resume _ _ _ => true
  | .hamperLoadComplete _ _ => true
  | .hcopy _ _ _ _ => true
  | .hcopyComplete _ _ => true
  | .hdiscard _ _ _ => true
  | .trap _ i kw => kwOk i 0x1_0000#17 kw
  | .gate _ _ => true
  | .rft _ _ => true
  | .rftN _ => true
  | .snapst _ _ o kw => kwOk o 0x800#12 kw
  | .snaprel _ => true
  | .step _ d _ _ => evenReg d
  | .add _ _ _ b k => k == 0 || b ≤ 5
  | .addi _ _ _ i kw => kwOk i 0x800#12 kw
  | .sub _ _ _ b k => k == 0 || b ≤ 5
  | .mul _ _ _ b k => k == 0 || b ≤ 5
  | .mulh _ _ _ _ => true
  | .mulhu _ _ _ _ => true
  | .div _ _ _ _ => true
  | .divu _ _ _ _ => true
  | .rem _ _ _ _ => true
  | .remu _ _ _ _ => true
  | .andS _ _ _ _ => true
  | .andi _ _ _ i kw => kwOk i 0x800#12 kw
  | .orS _ _ _ _ => true
  | .ori _ _ _ i kw => kwOk i 0x800#12 kw
  | .xorS _ _ _ _ => true
  | .xori _ _ _ i kw => kwOk i 0x800#12 kw
  | .andn _ _ _ _ => true
  | .shl _ _ _ _ => true
  | .shli _ _ _ i kw => kwOk i 0x800#12 kw && (immU12 i kw ≤ 63)
  | .shr _ _ _ _ => true
  | .shri _ _ _ i kw => kwOk i 0x800#12 kw && (immU12 i kw ≤ 63)
  | .sar _ _ _ _ => true
  | .sari _ _ _ i kw => kwOk i 0x800#12 kw && (immU12 i kw ≤ 63)
  | .cmp _ d _ _ c => d ≤ 7 && c ≤ 5
  | .cmpi _ _ _ _ i kw => kwOk i 0x800#12 kw
  | .sel _ _ _ _ _ _ => true
  | .min _ _ _ _ => true
  | .max _ _ _ _ => true
  | .minu _ _ _ _ => true
  | .maxu _ _ _ _ => true
  | .clz _ _ _ => true
  | .popc _ _ _ => true
  | .bfx _ _ _ i kw => kwOk i 0x800#12 kw && (bfOk true i kw)
  | .bfi _ _ _ i kw => kwOk i 0x800#12 kw && (bfOk false i kw)
  | .li _ _ i kw => kwOk i 0x1_0000#17 kw
  | .lih _ _ i kw => kwOk i 0x1_0000#17 kw
  | .lea _ _ _ i kw => kwOk i 0x800#12 kw
  | .addpc _ _ i kw => kwOk i 0x1_0000#17 kw
  | .gop _ d a b f => f ≤ 9 && (f == 9 || d ≤ 7) && (f == 8 || a ≤ 7) && (if f == 8 || f == 9 then b == 0 else b ≤ 7)
  | .movs _ _ i kw => kwOk i 0x1_0000#17 kw && ((sysRegInfo (immU17 i kw)).isSome)
  | .movz _ _ i kw => kwOk i 0x1_0000#17 kw && (movzOk (immU17 i kw))
  | .fadd _ _ _ _ r => rm4Ok r
  | .fsub _ _ _ _ r => rm4Ok r
  | .fmul _ _ _ _ r => rm4Ok r
  | .fma _ _ _ _ r => rm4Ok r
  | .fmin _ _ _ _ => true
  | .fmax _ _ _ _ => true
  | .fcmp _ d _ _ c => d ≤ 7 && c ≤ 4
  | .fcvti _ _ _ _ r => rm4Ok r
  | .fcvtf _ _ _ _ r => rm4Ok r
  | .pairWord _ _ _ _ _ _ _ _ _ => true
  | .vadd _ _ _ _ _ s _ _ => s != 3
  | .vsub _ _ _ _ _ s _ _ => s != 3
  | .vmul _ _ _ _ _ _ _ => true
  | .vmulh _ _ _ _ _ _ _ _ => true
  | .vmad _ _ _ _ _ s _ _ => s != 3
  | .vand _ _ _ _ _ _ _ => true
  | .vor _ _ _ _ _ _ _ => true
  | .vxor _ _ _ _ _ _ _ => true
  | .vshl _ _ _ _ _ _ _ => true
  | .vshr _ _ _ _ _ _ _ => true
  | .vsar _ _ _ _ _ _ _ => true
  | .vmin _ _ _ _ _ _ _ _ => true
  | .vmax _ _ _ _ _ _ _ _ => true
  | .vabs _ _ _ _ _ _ => true
  | .vcmp _ d _ _ c _ _ => d ≤ 7 && c ≤ 5
  | .vsel _ _ _ _ _ _ => true
  | .vfadd _ _ _ _ r _ _ => r != 7
  | .vfsub _ _ _ _ r _ _ => r != 7
  | .vfmul _ _ _ _ r _ _ => r != 7
  | .vfma _ _ _ _ r _ _ => r != 7
  | .vfmin _ _ _ _ _ _ => true
  | .vfmax _ _ _ _ _ _ => true
  | .vfcmp _ d _ _ c _ _ => d ≤ 7 && c ≤ 4
  | .vrcp _ _ _ _ _ => true
  | .vrsq _ _ _ _ _ => true
  | .vexp2 _ _ _ _ _ => true
  | .vlog2 _ _ _ _ _ => true
  | .vcvt _ _ _ p r f => r != 7 && f ≤ 13 && partOk f p && (vcvtRounds f || r == 0)
  | .vcvtWide _ _ _ p f => f ≤ 11 && partOk f p
  | .vqnt _ _ _ _ r _ f => f != 7 && r != 7
  | .vdqnt _ _ _ _ r _ f => f != 7 && r != 7
  | .vbsc _ _ _ _ f => f != 7
  | .vperm _ _ _ _ _ _ => true
  | .vbcast _ _ _ b l _ _ => l == 1 || b == 0
  | .vslide _ _ _ _ s => s != 32
  | .vred _ _ _ p _ => p ≤ 10
  | .vscan _ _ _ _ p _ => p ≤ 10
  | .viota _ _ _ i kw => kwOk i 0x800#12 kw
  | .vmop _ d a b f => f ≤ 8 && d ≤ 7 && a ≤ 7 && (if f == 8 then b == 0 else b ≤ 7)
  | .vmpopPopc _ _ a => a ≤ 7
  | .vmpopFfs _ _ a => a ≤ 7
  | .vmpopGet _ _ a => a ≤ 7
  | .vmpopSet _ d _ => d ≤ 7
  | .vrng _ _ t _ _ => t != 3
  | .vprune _ _ _ _ _ _ => true
  | .vnm _ _ _ b _ s => s != 3 && b ≤ 7
  | .vmovs _ _ _ _ _ => true
  | .vins _ _ _ _ => true
  | .ldB _ _ _ i kw => kwOk i 0x800#12 kw
  | .ldH _ _ _ i kw => kwOk i 0x800#12 kw
  | .ldW _ _ _ i kw => kwOk i 0x800#12 kw
  | .ldD _ _ _ i kw => kwOk i 0x800#12 kw
  | .lduB _ _ _ i kw => kwOk i 0x800#12 kw
  | .lduH _ _ _ i kw => kwOk i 0x800#12 kw
  | .lduW _ _ _ i kw => kwOk i 0x800#12 kw
  | .stB _ _ _ i kw => kwOk i 0x800#12 kw
  | .stH _ _ _ i kw => kwOk i 0x800#12 kw
  | .stW _ _ _ i kw => kwOk i 0x800#12 kw
  | .stD _ _ _ i kw => kwOk i 0x800#12 kw
  | .ldv _ _ _ i kw => kwOk i 0x800#12 kw
  | .stv _ _ _ i kw => kwOk i 0x800#12 kw
  | .ldvs _ _ _ _ _ _ => true
  | .stvs _ _ _ _ _ => true
  | .ldvx _ _ _ _ _ _ => true
  | .stvx _ _ _ _ _ => true
  | .lda _ _ _ _ s o => (o == 0 || o == 1 || o == 4) && s ≤ 5
  | .sta _ _ _ _ s o => (o == 0 || o == 2 || o == 4) && s ≤ 5
  | .amo _ _ _ w s p o => o ≤ 4 && s ≤ 5 && p ≤ 11 && (p ≤ 8 || w == 0)
  | .cas _ _ _ _ _ s o => o ≤ 4 && s ≤ 5
  | .vamo _ _ _ _ s o => o ≤ 11 && s ≤ 5
  | .fence _ s o => 1 ≤ o && o ≤ 4 && s ≤ 5
  | .tld _ _ _ _ _ _ _ => true
  | .tlda _ _ _ _ _ f => f ≤ 4
  | .tst _ _ _ _ _ r f => f ≤ 4 && r != 7 && (f != 4 || r == 0)
  | .mcall _ v q _ w p _ => (p == 1 || q == 0) && (w == 1 || v == 0)
  | .mcallEngineStart _ => true
  | .mcallRetire _ => true
  | .routineStop _ _ => true
  | .msetp _ d _ _ _ => d ≤ 7
  | .mgetp _ _ a => a ≤ 7
  | .mclaim _ d _ _ => d ≤ 7
  | .mrel _ _ _ => true
  | .mzero _ _ a b p j i => j != 3 && (p == 1 || b == 0) && (i == 0 || a == 0)
  | .mnorm _ _ a b p x => (p == 1 || b == 0) && (x == 1 || a == 0)
  | .mrdrow _ _ _ _ r f => r != 7 && (f ≤ 1 || r == 0)
  | .mwrrow _ _ _ _ _ => true
  | .mcell _ _ i kw => kwOk i 0x800#12 kw
  | .mcellPre _ p => 1 ≤ p && p ≤ 6
  | .mflow _ y p a i kw => kwOk i 0x800#12 kw && (p != 3 && (y == 1 || (a == 0 && i == 0)))
  | .mrout _ _ _ i kw => kwOk i 0x800#12 kw
  | .configCommandApply _ => true
  | .mtid _ _ _ => true
  | .mtidr _ _ _ _ _ => true
  | .mdup _ _ _ _ _ _ => true
  | .tableCommandApply _ => true
  | .mcode _ _ i kw => kwOk i 0x800#12 kw
  | .mcodeFixed _ => true
  | .codeTableFlip _ => true
  | .mpred _ d a b f => mpredOk d a b f
  | .mwait _ _ => true
  | .ysort _ d _ _ _ t => t != 3 && evenReg d
  | .ymerge _ d a b _ _ t => t != 3 && evenReg d && evenReg a && evenReg b
  | .ytopkInit _ _ _ t => t != 3
  | .ytopkAdd _ _ _ _ => true
  | .ytopkOut _ d a b => evenReg d && evenReg a && b ≤ 1
  | .ysums _ d a b r y t => evenReg d && d != 0 && r != 7 && (if y == 1 then a == 0 && b == 0 && t == 0 else b ≤ 7 && t != 3)
  | .yrank _ _ _ _ t => t != 3
  | .ybkt _ _ _ _ _ t => t != 3
  | .ycmpr _ _ _ b => b ≤ 7
  | .yexpd _ _ _ b _ => b ≤ 7
  | .yhist _ _ _ b w _ => w == 1 || b == 0
  | .yargx _ _ _ _ _ t => t != 3
  | .cstage _ _ i kw => kwOk i 0x800#12 kw
  | .carrive _ _ _ => true
  | .csched _ _ => true
  | .rpush _ d _ _ => d ≤ 7
  | .rpushOpen _ d _ _ => d ≤ 7
  | .rpushClose _ d _ => d ≤ 7
  | .rpop _ _ _ _ => true
  | .rstat _ _ _ _ => true
  | .ringDeliveryLand _ _ => true
  | .mqsend _ d _ _ => d ≤ 7
  | .mqrecv _ _ _ _ _ => true
  | .mqstat _ _ _ => true
  | .queueEntryApply _ => true
  | .queueCreditReturn _ => true
  | .tsubmit _ _ _ => true
  | .tsubmitRetry _ => true
  | .tsignal _ _ => true
  | .launch _ _ _ => true
  | .launchNb _ d _ _ => d ≤ 7
  | .pendingLaunchDrain _ => true
  | .fred _ _ _ _ => true
  | .sladd _ d _ _ => d ≤ 7
  | .slsend _ _ => true
  | .slrecv _ _ _ => true
  | .bbmark _ _ _ i kw => kwOk i 0x800#12 kw && (immU12 i kw ≤ 4095)
  | .pwrq _ _ i => i != 7
  | .pwrres _ d _ => d ≤ 7
  | .pwrresRel _ d => d ≤ 7
  | .tlbi _ d _ _ => d ≤ 7
  | .tlbiComplete _ => true
  | .selft _ _ _ _ => true
  | .emptyBundle _ => true
  | .lineSkip => true
  | .lineFill _ => true
  | .asyncTrap _ => true
  | .yieldExpiry _ => true
  | .threadFree _ => true
  | .taskPlacement _ => true
  | .priorityAgeing _ _ => true
  | .reservationTaken _ => true
  | .readyQueueEntry _ => true
  | .stopLands _ => true
  | .stopRequestTimeout _ => true
  | .killRequeue _ _ => true
  | .checkpointWrite _ _ => true
  | .copyChunk _ _ => true
  | .copyEntryComplete _ _ => true
  | .copyEntryStop _ _ => true
  | .translationWalk _ => true
  | .packageReset _ => true
  | .attestationQuote _ => true
  | .keySlotWrite _ _ => true
  | .packetIngress _ => true
  | .hubRegisterWrite _ => true
  | .grantWrite _ => true
  | .energySample _ => true
  | .energyInterval => true
  | .selfTestVerdict _ _ => true
  | .blackBoxClear _ _ _ => true
  | .fatalHardwareEvent _ _ _ _ => true
  | .flitCrcFail _ _ => true
  | .laneOutOfService _ _ => true
  | .linkDown _ => true
  | .packetRoute _ _ => true
  | .escapeMove _ => true
  | .fabricPacketSend _ => true
  | .creditRequest _ => true
  | .creditGrant _ _ => true
  | .creditExpiry _ => true
  | .ackReceive _ _ => true
  | .writePlace _ => true
  | .fredApply _ => true
  | .tokenPlace _ => true
  | .flushComplete => true
  | .coordinatorGo => true
  | .harvestApply => true
  | .boundaryComplete => true
  | .stepSkew => true
  | .declareFailed _ => true
  | .failedNotice _ => true
  | .fixedLatencyWriteLands _ => true
  | .accessPerformsAtHome _ => true
  | .matrixCommandEngineApply _ => true
  | .dieEngineCommandApply _ => true
  | .thermalWarning _ _ => true
  | .systemCoreLineWriteback _ _ => true
  | .decodeCheckTrap _ _ _ => true

end Sys2Proof
end

