-- ==== Sys2Proof/Decode.lean ====
section
/-! DEFINITION. Decode: from the bytes of a fetch line to a bundle of instructions, rejecting by name, and the encoder
(R32 to R48, Tables 2-1 to 2-7). Words are numbers, so that each field is a quotient and a remainder. -/

namespace Sys2Proof

/-- The word kinds of a bundle: the seven slots of Table 2-1 and the pair word of Table 2-5. -/
inductive Slot where
  | C | S | V | L | M | Y | X | P
  deriving DecidableEq, Repr, Inhabited

/-- The presence-bit number of a slot (Table 2-1); the pair word counts as the S slot (R49). -/
def Slot.bit : Slot → Nat
  | .C => 0 | .S => 1 | .V => 2 | .L => 3 | .M => 4 | .Y => 5 | .X => 6 | .P => 1

/-- `n` bits of a word from bit `lo`, as a number. -/
abbrev seg (w lo n : Nat) : Nat := w / 2 ^ lo % 2 ^ n

/-- `n` bits of a word from bit `lo`. -/
abbrev fld (w lo n : Nat) : BitVec n := BitVec.ofNat n (w / 2 ^ lo)

/-- GN and GR of Table 2-3. -/
def guardOf (w : Nat) : Guard := ⟨seg w 25 1 = 1, fld w 22 3⟩

/-- GN and GR in their places. -/
def encodeGuard (g : Guard) : Nat := (if g.neg then 33554432 else 0) + g.reg.toNat * 2 ^ 22

/-- R217: in MCALL, MCLAIM, MREL and MTID an IMM12 of 0x800 takes the K word in its place, with the same layout of
`lim` values; a K bit above the layout is refused. By R43 the same holds of VMOVS and VINS, of which R141 does not say it (log entry 73). -/
def foldK (lim w : Nat) (k : Option Word) : Option Nat :=
  if seg w 0 12 = 2048 then
    match k with
    | some x => if x.toNat < lim then some (w / 2 ^ 12 * 2 ^ 12 + x.toNat) else none
    | none => none
  else some w


/-- The C slot's column of Table 2-7: the instruction of a word, before the checks of WellFormed. -/
def decodeC (w : Nat) (k : Option Word) : Option Instr :=
  match w / 2 ^ 26 with
  | 0 =>
    if seg w 0 22 = 0 then some (.nop (guardOf w))
    else none
  | 1 =>
    if seg w 21 1 = 0 then some (.br (guardOf w) (fld w 0 21) (if fld w 0 21 = 0x10_0000#21 then k else none))
    else none
  | 2 =>
    if seg w 17 5 = 0 ∧ seg w 0 12 = 0 then some (.jmp (guardOf w) (fld w 12 5))
    else none
  | 3 =>
    if seg w 21 1 = 0 then some (.call (guardOf w) (fld w 0 21) (if fld w 0 21 = 0x10_0000#21 then k else none))
    else none
  | 4 =>
    if seg w 0 12 = 0 then some (.callr (guardOf w) (fld w 17 5) (fld w 12 5))
    else none
  | 5 =>
    if seg w 17 5 = 0 ∧ seg w 0 12 = 0 then some (.ret (guardOf w) (fld w 12 5))
    else none
  | 6 =>
    some (.loop (guardOf w) (fld w 12 10) (fld w 0 12) (if fld w 0 12 = 0x800#12 then k else none))
  | 7 =>
    if seg w 0 7 = 0 then some (.loopr (guardOf w) (fld w 17 5) (fld w 12 5) (fld w 7 5))
    else none
  | 8 =>
    if seg w 0 17 = 0 then some (.lbrk (guardOf w) (fld w 17 5))
    else none
  | 9 =>
    if seg w 0 22 = 0 then some (.endThread (guardOf w))
    else none
  | 10 =>
    if seg w 17 5 = 0 ∧ seg w 0 12 = 0 then some (.yield (guardOf w) (fld w 12 5))
    else none
  | 11 =>
    some (.await (guardOf w) (fld w 17 5) (fld w 12 5) (fld w 0 12) (if fld w 0 12 = 0x800#12 then k else none))
  | 12 =>
    if seg w 0 22 = 2097152 then some (.joinNew (guardOf w))
    else if seg w 17 5 = 0 then some (.join (guardOf w) (fld w 12 5) (fld w 0 12) (if fld w 0 12 = 0x800#12 then k else none))
    else none
  | 13 =>
    if seg w 0 22 = 0 then some (.leave (guardOf w))
    else none
  | 14 =>
    if seg w 0 22 = 0 then some (.bar (guardOf w))
    else none
  | 15 =>
    if seg w 7 15 = 0 then some (.fuse (guardOf w) (fld w 3 4) (fld w 0 3))
    else none
  | 16 =>
    if seg w 0 22 = 0 then some (.decouple (guardOf w))
    else none
  | 17 =>
    if seg w 0 17 = 0 then some (.rejoin (guardOf w) (fld w 17 5))
    else none
  | 18 =>
    if seg w 0 12 = 0 then some (.suspend (guardOf w) (fld w 17 5) (fld w 12 5))
    else none
  | 19 =>
    if seg w 17 5 = 0 ∧ seg w 4 8 = 0 then some (.resume (guardOf w) (fld w 12 5) (fld w 0 4))
    else none
  | 20 =>
    if seg w 0 7 = 0 then some (.hcopy (guardOf w) (fld w 17 5) (fld w 12 5) (fld w 7 5))
    else none
  | 21 =>
    if seg w 0 12 = 0 then some (.hdiscard (guardOf w) (fld w 17 5) (fld w 12 5))
    else none
  | 22 =>
    if seg w 17 5 = 0 then some (.trap (guardOf w) (fld w 0 17) (if fld w 0 17 = 0x1_0000#17 then k else none))
    else none
  | 23 =>
    if seg w 8 14 = 0 then some (.gate (guardOf w) (fld w 0 8))
    else none
  | 24 =>
    if seg w 0 22 = 1 then some (.rftN (guardOf w))
    else if seg w 17 5 = 0 ∧ seg w 0 12 = 0 then some (.rft (guardOf w) (fld w 12 5))
    else none
  | 25 =>
    if seg w 17 5 = 0 then some (.snapst (guardOf w) (fld w 12 5) (fld w 0 12) (if fld w 0 12 = 0x800#12 then k else none))
    else none
  | 26 =>
    if seg w 0 22 = 0 then some (.snaprel (guardOf w))
    else none
  | 27 =>
    if seg w 1 11 = 0 then some (.step (guardOf w) (fld w 17 5) (fld w 12 5) (fld w 0 1))
    else none
  | _ => none

/-- The S slot's column of Table 2-7: the instruction of a word, before the checks of WellFormed. -/
def decodeS (w : Nat) (k : Option Word) : Option Instr :=
  match w / 2 ^ 26 with
  | 0 =>
    if seg w 1 6 = 0 then some (.add (guardOf w) (fld w 17 5) (fld w 12 5) (fld w 7 5) (fld w 0 1))
    else none
  | 1 =>
    some (.addi (guardOf w) (fld w 17 5) (fld w 12 5) (fld w 0 12) (if fld w 0 12 = 0x800#12 then k else none))
  | 2 =>
    if seg w 1 6 = 0 then some (.sub (guardOf w) (fld w 17 5) (fld w 12 5) (fld w 7 5) (fld w 0 1))
    else none
  | 3 =>
    if seg w 1 6 = 0 then some (.mul (guardOf w) (fld w 17 5) (fld w 12 5) (fld w 7 5) (fld w 0 1))
    else none
  | 4 =>
    if seg w 0 7 = 0 then some (.mulh (guardOf w) (fld w 17 5) (fld w 12 5) (fld w 7 5))
    else none
  | 5 =>
    if seg w 0 7 = 0 then some (.mulhu (guardOf w) (fld w 17 5) (fld w 12 5) (fld w 7 5))
    else none
  | 6 =>
    if seg w 0 7 = 0 then some (.div (guardOf w) (fld w 17 5) (fld w 12 5) (fld w 7 5))
    else none
  | 7 =>
    if seg w 0 7 = 0 then some (.divu (guardOf w) (fld w 17 5) (fld w 12 5) (fld w 7 5))
    else none
  | 8 =>
    if seg w 0 7 = 0 then some (.rem (guardOf w) (fld w 17 5) (fld w 12 5) (fld w 7 5))
    else none
  | 9 =>
    if seg w 0 7 = 0 then some (.remu (guardOf w) (fld w 17 5) (fld w 12 5) (fld w 7 5))
    else none
  | 10 =>
    if seg w 0 7 = 0 then some (.andS (guardOf w) (fld w 17 5) (fld w 12 5) (fld w 7 5))
    else none
  | 11 =>
    some (.andi (guardOf w) (fld w 17 5) (fld w 12 5) (fld w 0 12) (if fld w 0 12 = 0x800#12 then k else none))
  | 12 =>
    if seg w 0 7 = 0 then some (.orS (guardOf w) (fld w 17 5) (fld w 12 5) (fld w 7 5))
    else none
  | 13 =>
    some (.ori (guardOf w) (fld w 17 5) (fld w 12 5) (fld w 0 12) (if fld w 0 12 = 0x800#12 then k else none))
  | 14 =>
    if seg w 0 7 = 0 then some (.xorS (guardOf w) (fld w 17 5) (fld w 12 5) (fld w 7 5))
    else none
  | 15 =>
    some (.xori (guardOf w) (fld w 17 5) (fld w 12 5) (fld w 0 12) (if fld w 0 12 = 0x800#12 then k else none))
  | 16 =>
    if seg w 0 7 = 0 then some (.andn (guardOf w) (fld w 17 5) (fld w 12 5) (fld w 7 5))
    else none
  | 17 =>
    if seg w 0 7 = 0 then some (.shl (guardOf w) (fld w 17 5) (fld w 12 5) (fld w 7 5))
    else none
  | 18 =>
    some (.shli (guardOf w) (fld w 17 5) (fld w 12 5) (fld w 0 12) (if fld w 0 12 = 0x800#12 then k else none))
  | 19 =>
    if seg w 0 7 = 0 then some (.shr (guardOf w) (fld w 17 5) (fld w 12 5) (fld w 7 5))
    else none
  | 20 =>
    some (.shri (guardOf w) (fld w 17 5) (fld w 12 5) (fld w 0 12) (if fld w 0 12 = 0x800#12 then k else none))
  | 21 =>
    if seg w 0 7 = 0 then some (.sar (guardOf w) (fld w 17 5) (fld w 12 5) (fld w 7 5))
    else none
  | 22 =>
    some (.sari (guardOf w) (fld w 17 5) (fld w 12 5) (fld w 0 12) (if fld w 0 12 = 0x800#12 then k else none))
  | 23 =>
    if seg w 3 4 = 0 then some (.cmp (guardOf w) (fld w 17 5) (fld w 12 5) (fld w 7 5) (fld w 0 3))
    else none
  | 24 =>
    some (.cmpi (guardOf w) (fld w 20 2) (fld w 17 3) (fld w 12 5) (fld w 0 12) (if fld w 0 12 = 0x800#12 then k else none))
  | 25 =>
    if seg w 4 3 = 0 then some (.sel (guardOf w) (fld w 17 5) (fld w 12 5) (fld w 7 5) (fld w 3 1) (fld w 0 3))
    else none
  | 26 =>
    if seg w 0 7 = 0 then some (.min (guardOf w) (fld w 17 5) (fld w 12 5) (fld w 7 5))
    else none
  | 27 =>
    if seg w 0 7 = 0 then some (.max (guardOf w) (fld w 17 5) (fld w 12 5) (fld w 7 5))
    else none
  | 28 =>
    if seg w 0 7 = 0 then some (.minu (guardOf w) (fld w 17 5) (fld w 12 5) (fld w 7 5))
    else none
  | 29 =>
    if seg w 0 7 = 0 then some (.maxu (guardOf w) (fld w 17 5) (fld w 12 5) (fld w 7 5))
    else none
  | 30 =>
    if seg w 0 12 = 0 then some (.clz (guardOf w) (fld w 17 5) (fld w 12 5))
    else none
  | 31 =>
    if seg w 0 12 = 0 then some (.popc (guardOf w) (fld w 17 5) (fld w 12 5))
    else none
  | 32 =>
    some (.bfx (guardOf w) (fld w 17 5) (fld w 12 5) (fld w 0 12) (if fld w 0 12 = 0x800#12 then k else none))
  | 33 =>
    some (.bfi (guardOf w) (fld w 17 5) (fld w 12 5) (fld w 0 12) (if fld w 0 12 = 0x800#12 then k else none))
  | 34 =>
    some (.li (guardOf w) (fld w 17 5) (fld w 0 17) (if fld w 0 17 = 0x1_0000#17 then k else none))
  | 35 =>
    some (.lih (guardOf w) (fld w 17 5) (fld w 0 17) (if fld w 0 17 = 0x1_0000#17 then k else none))
  | 36 =>
    some (.lea (guardOf w) (fld w 17 5) (fld w 12 5) (fld w 0 12) (if fld w 0 12 = 0x800#12 then k else none))
  | 37 =>
    some (.addpc (guardOf w) (fld w 17 5) (fld w 0 17) (if fld w 0 17 = 0x1_0000#17 then k else none))
  | 38 =>
    some (.gop (guardOf w) (fld w 17 5) (fld w 12 5) (fld w 7 5) (fld w 0 7))
  | 39 =>
    some (.movs (guardOf w) (fld w 17 5) (fld w 0 17) (if fld w 0 17 = 0x1_0000#17 then k else none))
  | 40 =>
    some (.movz (guardOf w) (fld w 17 5) (fld w 0 17) (if fld w 0 17 = 0x1_0000#17 then k else none))
  | 41 =>
    if seg w 4 3 = 0 then some (.fadd (guardOf w) (fld w 17 5) (fld w 12 5) (fld w 7 5) (fld w 0 4))
    else none
  | 42 =>
    if seg w 4 3 = 0 then some (.fsub (guardOf w) (fld w 17 5) (fld w 12 5) (fld w 7 5) (fld w 0 4))
    else none
  | 43 =>
    if seg w 4 3 = 0 then some (.fmul (guardOf w) (fld w 17 5) (fld w 12 5) (fld w 7 5) (fld w 0 4))
    else none
  | 44 =>
    if seg w 4 3 = 0 then some (.fma (guardOf w) (fld w 17 5) (fld w 12 5) (fld w 7 5) (fld w 0 4))
    else none
  | 45 =>
    if seg w 0 7 = 0 then some (.fmin (guardOf w) (fld w 17 5) (fld w 12 5) (fld w 7 5))
    else none
  | 46 =>
    if seg w 0 7 = 0 then some (.fmax (guardOf w) (fld w 17 5) (fld w 12 5) (fld w 7 5))
    else none
  | 47 =>
    if seg w 3 4 = 0 then some (.fcmp (guardOf w) (fld w 17 5) (fld w 12 5) (fld w 7 5) (fld w 0 3))
    else none
  | 48 =>
    if seg w 5 7 = 0 then some (.fcvti (guardOf w) (fld w 17 5) (fld w 12 5) (fld w 4 1) (fld w 0 4))
    else none
  | 49 =>
    if seg w 5 7 = 0 then some (.fcvtf (guardOf w) (fld w 17 5) (fld w 12 5) (fld w 4 1) (fld w 0 4))
    else none
  | _ => none

/-- The V slot's column of Table 2-7: the instruction of a word, before the checks of WellFormed. -/
def decodeV (w : Nat) (k : Option Word) : Option Instr :=
  match w / 2 ^ 26 with
  | 0 =>
    some (.vadd (guardOf w) (fld w 17 5) (fld w 12 5) (fld w 7 5) (fld w 6 1) (fld w 4 2) (fld w 3 1) (fld w 0 3))
  | 1 =>
    some (.vsub (guardOf w) (fld w 17 5) (fld w 12 5) (fld w 7 5) (fld w 6 1) (fld w 4 2) (fld w 3 1) (fld w 0 3))
  | 2 =>
    if seg w 4 2 = 0 then some (.vmul (guardOf w) (fld w 17 5) (fld w 12 5) (fld w 7 5) (fld w 6 1) (fld w 3 1) (fld w 0 3))
    else none
  | 3 =>
    if seg w 5 1 = 0 then some (.vmulh (guardOf w) (fld w 17 5) (fld w 12 5) (fld w 7 5) (fld w 6 1) (fld w 4 1) (fld w 3 1) (fld w 0 3))
    else none
  | 4 =>
    some (.vmad (guardOf w) (fld w 17 5) (fld w 12 5) (fld w 7 5) (fld w 6 1) (fld w 4 2) (fld w 3 1) (fld w 0 3))
  | 5 =>
    if seg w 4 2 = 0 then some (.vand (guardOf w) (fld w 17 5) (fld w 12 5) (fld w 7 5) (fld w 6 1) (fld w 3 1) (fld w 0 3))
    else none
  | 6 =>
    if seg w 4 2 = 0 then some (.vor (guardOf w) (fld w 17 5) (fld w 12 5) (fld w 7 5) (fld w 6 1) (fld w 3 1) (fld w 0 3))
    else none
  | 7 =>
    if seg w 4 2 = 0 then some (.vxor (guardOf w) (fld w 17 5) (fld w 12 5) (fld w 7 5) (fld w 6 1) (fld w 3 1) (fld w 0 3))
    else none
  | 8 =>
    if seg w 4 2 = 0 then some (.vshl (guardOf w) (fld w 17 5) (fld w 12 5) (fld w 7 5) (fld w 6 1) (fld w 3 1) (fld w 0 3))
    else none
  | 9 =>
    if seg w 4 2 = 0 then some (.vshr (guardOf w) (fld w 17 5) (fld w 12 5) (fld w 7 5) (fld w 6 1) (fld w 3 1) (fld w 0 3))
    else none
  | 10 =>
    if seg w 4 2 = 0 then some (.vsar (guardOf w) (fld w 17 5) (fld w 12 5) (fld w 7 5) (fld w 6 1) (fld w 3 1) (fld w 0 3))
    else none
  | 11 =>
    if seg w 5 1 = 0 then some (.vmin (guardOf w) (fld w 17 5) (fld w 12 5) (fld w 7 5) (fld w 6 1) (fld w 4 1) (fld w 3 1) (fld w 0 3))
    else none
  | 12 =>
    if seg w 5 1 = 0 then some (.vmax (guardOf w) (fld w 17 5) (fld w 12 5) (fld w 7 5) (fld w 6 1) (fld w 4 1) (fld w 3 1) (fld w 0 3))
    else none
  | 13 =>
    if seg w 5 7 = 0 then some (.vabs (guardOf w) (fld w 17 5) (fld w 12 5) (fld w 4 1) (fld w 3 1) (fld w 0 3))
    else none
  | 14 =>
    some (.vcmp (guardOf w) (fld w 17 5) (fld w 12 5) (fld w 7 5) (fld w 4 3) (fld w 3 1) (fld w 0 3))
  | 15 =>
    if seg w 4 3 = 0 then some (.vsel (guardOf w) (fld w 17 5) (fld w 12 5) (fld w 7 5) (fld w 3 1) (fld w 0 3))
    else none
  | 16 =>
    some (.vfadd (guardOf w) (fld w 17 5) (fld w 12 5) (fld w 7 5) (fld w 4 3) (fld w 3 1) (fld w 0 3))
  | 17 =>
    some (.vfsub (guardOf w) (fld w 17 5) (fld w 12 5) (fld w 7 5) (fld w 4 3) (fld w 3 1) (fld w 0 3))
  | 18 =>
    some (.vfmul (guardOf w) (fld w 17 5) (fld w 12 5) (fld w 7 5) (fld w 4 3) (fld w 3 1) (fld w 0 3))
  | 19 =>
    some (.vfma (guardOf w) (fld w 17 5) (fld w 12 5) (fld w 7 5) (fld w 4 3) (fld w 3 1) (fld w 0 3))
  | 20 =>
    if seg w 4 3 = 0 then some (.vfmin (guardOf w) (fld w 17 5) (fld w 12 5) (fld w 7 5) (fld w 3 1) (fld w 0 3))
    else none
  | 21 =>
    if seg w 4 3 = 0 then some (.vfmax (guardOf w) (fld w 17 5) (fld w 12 5) (fld w 7 5) (fld w 3 1) (fld w 0 3))
    else none
  | 22 =>
    some (.vfcmp (guardOf w) (fld w 17 5) (fld w 12 5) (fld w 7 5) (fld w 4 3) (fld w 3 1) (fld w 0 3))
  | 23 =>
    if seg w 4 8 = 0 then some (.vrcp (guardOf w) (fld w 17 5) (fld w 12 5) (fld w 3 1) (fld w 0 3))
    else none
  | 24 =>
    if seg w 4 8 = 0 then some (.vrsq (guardOf w) (fld w 17 5) (fld w 12 5) (fld w 3 1) (fld w 0 3))
    else none
  | 25 =>
    if seg w 4 8 = 0 then some (.vexp2 (guardOf w) (fld w 17 5) (fld w 12 5) (fld w 3 1) (fld w 0 3))
    else none
  | 26 =>
    if seg w 4 8 = 0 then some (.vlog2 (guardOf w) (fld w 17 5) (fld w 12 5) (fld w 3 1) (fld w 0 3))
    else none
  | 27 =>
    if seg w 4 3 = 7 then some (.vcvtWide (guardOf w) (fld w 17 5) (fld w 12 5) (fld w 7 5) (fld w 0 4))
    else some (.vcvt (guardOf w) (fld w 17 5) (fld w 12 5) (fld w 7 5) (fld w 4 3) (fld w 0 4))
  | 28 =>
    some (.vqnt (guardOf w) (fld w 17 5) (fld w 12 5) (fld w 7 5) (fld w 4 3) (fld w 3 1) (fld w 0 3))
  | 29 =>
    some (.vdqnt (guardOf w) (fld w 17 5) (fld w 12 5) (fld w 7 5) (fld w 4 3) (fld w 3 1) (fld w 0 3))
  | 30 =>
    if seg w 4 8 = 0 then some (.vbsc (guardOf w) (fld w 17 5) (fld w 12 5) (fld w 3 1) (fld w 0 3))
    else none
  | 31 =>
    if seg w 4 3 = 0 then some (.vperm (guardOf w) (fld w 17 5) (fld w 12 5) (fld w 7 5) (fld w 3 1) (fld w 0 3))
    else none
  | 32 =>
    if seg w 5 2 = 0 then some (.vbcast (guardOf w) (fld w 17 5) (fld w 12 5) (fld w 7 5) (fld w 4 1) (fld w 3 1) (fld w 0 3))
    else none
  | 33 =>
    if seg w 7 5 = 0 then some (.vslide (guardOf w) (fld w 17 5) (fld w 12 5) (fld w 6 1) (fld w 0 6))
    else none
  | 34 =>
    if seg w 7 5 = 0 then some (.vred (guardOf w) (fld w 17 5) (fld w 12 5) (fld w 3 4) (fld w 0 3))
    else none
  | 35 =>
    if seg w 8 4 = 0 then some (.vscan (guardOf w) (fld w 17 5) (fld w 12 5) (fld w 7 1) (fld w 3 4) (fld w 0 3))
    else none
  | 36 =>
    some (.viota (guardOf w) (fld w 17 5) (fld w 12 5) (fld w 0 12) (if fld w 0 12 = 0x800#12 then k else none))
  | 37 =>
    some (.vmop (guardOf w) (fld w 17 5) (fld w 12 5) (fld w 7 5) (fld w 0 7))
  | 38 =>
    if seg w 0 12 = 0 then some (.vmpopPopc (guardOf w) (fld w 17 5) (fld w 12 5))
    else if seg w 0 12 = 1 then some (.vmpopFfs (guardOf w) (fld w 17 5) (fld w 12 5))
    else if seg w 0 12 = 2 then some (.vmpopGet (guardOf w) (fld w 17 5) (fld w 12 5))
    else if seg w 0 12 = 3 then some (.vmpopSet (guardOf w) (fld w 17 5) (fld w 12 5))
    else none
  | 39 =>
    if seg w 6 11 = 0 then some (.vrng (guardOf w) (fld w 17 5) (fld w 4 2) (fld w 3 1) (fld w 0 3))
    else none
  | 40 =>
    if seg w 4 3 = 0 then some (.vprune (guardOf w) (fld w 17 5) (fld w 12 5) (fld w 7 5) (fld w 3 1) (fld w 0 3))
    else none
  | 41 =>
    if seg w 0 4 = 0 then some (.vnm (guardOf w) (fld w 17 5) (fld w 12 5) (fld w 7 5) (fld w 6 1) (fld w 4 2))
    else none
  | 42 =>
    match foldK 64 w k with
    | some u => if seg u 6 6 = 0 then some (.vmovs (guardOf w) (fld w 17 5) (fld w 12 5) (fld u 5 1) (fld u 0 5)) else none
    | none => none
  | 43 =>
    match foldK 32 w k with
    | some u => if seg u 5 7 = 0 then some (.vins (guardOf w) (fld w 17 5) (fld w 12 5) (fld u 0 5)) else none
    | none => none
  | _ => none

/-- The L slot's column of Table 2-7: the instruction of a word, before the checks of WellFormed. -/
def decodeL (w : Nat) (k : Option Word) : Option Instr :=
  match w / 2 ^ 26 with
  | 0 =>
    some (.ldB (guardOf w) (fld w 17 5) (fld w 12 5) (fld w 0 12) (if fld w 0 12 = 0x800#12 then k else none))
  | 1 =>
    some (.ldH (guardOf w) (fld w 17 5) (fld w 12 5) (fld w 0 12) (if fld w 0 12 = 0x800#12 then k else none))
  | 2 =>
    some (.ldW (guardOf w) (fld w 17 5) (fld w 12 5) (fld w 0 12) (if fld w 0 12 = 0x800#12 then k else none))
  | 3 =>
    some (.ldD (guardOf w) (fld w 17 5) (fld w 12 5) (fld w 0 12) (if fld w 0 12 = 0x800#12 then k else none))
  | 4 =>
    some (.lduB (guardOf w) (fld w 17 5) (fld w 12 5) (fld w 0 12) (if fld w 0 12 = 0x800#12 then k else none))
  | 5 =>
    some (.lduH (guardOf w) (fld w 17 5) (fld w 12 5) (fld w 0 12) (if fld w 0 12 = 0x800#12 then k else none))
  | 6 =>
    some (.lduW (guardOf w) (fld w 17 5) (fld w 12 5) (fld w 0 12) (if fld w 0 12 = 0x800#12 then k else none))
  | 7 =>
    some (.stB (guardOf w) (fld w 17 5) (fld w 12 5) (fld w 0 12) (if fld w 0 12 = 0x800#12 then k else none))
  | 8 =>
    some (.stH (guardOf w) (fld w 17 5) (fld w 12 5) (fld w 0 12) (if fld w 0 12 = 0x800#12 then k else none))
  | 9 =>
    some (.stW (guardOf w) (fld w 17 5) (fld w 12 5) (fld w 0 12) (if fld w 0 12 = 0x800#12 then k else none))
  | 10 =>
    some (.stD (guardOf w) (fld w 17 5) (fld w 12 5) (fld w 0 12) (if fld w 0 12 = 0x800#12 then k else none))
  | 11 =>
    some (.ldv (guardOf w) (fld w 17 5) (fld w 12 5) (fld w 0 12) (if fld w 0 12 = 0x800#12 then k else none))
  | 12 =>
    some (.stv (guardOf w) (fld w 17 5) (fld w 12 5) (fld w 0 12) (if fld w 0 12 = 0x800#12 then k else none))
  | 13 =>
    if seg w 4 3 = 0 then some (.ldvs (guardOf w) (fld w 17 5) (fld w 12 5) (fld w 7 5) (fld w 3 1) (fld w 0 3))
    else none
  | 14 =>
    if seg w 3 4 = 0 then some (.stvs (guardOf w) (fld w 17 5) (fld w 12 5) (fld w 7 5) (fld w 0 3))
    else none
  | 15 =>
    if seg w 4 3 = 0 then some (.ldvx (guardOf w) (fld w 17 5) (fld w 12 5) (fld w 7 5) (fld w 3 1) (fld w 0 3))
    else none
  | 16 =>
    if seg w 3 4 = 0 then some (.stvx (guardOf w) (fld w 17 5) (fld w 12 5) (fld w 7 5) (fld w 0 3))
    else none
  | 17 =>
    if seg w 7 5 = 0 then some (.lda (guardOf w) (fld w 17 5) (fld w 12 5) (fld w 6 1) (fld w 3 3) (fld w 0 3))
    else none
  | 18 =>
    if seg w 7 5 = 0 then some (.sta (guardOf w) (fld w 17 5) (fld w 12 5) (fld w 6 1) (fld w 3 3) (fld w 0 3))
    else none
  | 19 =>
    if seg w 11 1 = 0 then some (.amo (guardOf w) (fld w 17 5) (fld w 12 5) (fld w 10 1) (fld w 7 3) (fld w 3 4) (fld w 0 3))
    else none
  | 20 =>
    some (.cas (guardOf w) (fld w 17 5) (fld w 12 5) (fld w 7 5) (fld w 6 1) (fld w 3 3) (fld w 0 3))
  | 21 =>
    some (.vamo (guardOf w) (fld w 17 5) (fld w 12 5) (fld w 7 5) (fld w 4 3) (fld w 0 4))
  | 22 =>
    if seg w 6 16 = 0 then some (.fence (guardOf w) (fld w 3 3) (fld w 0 3))
    else none
  | 23 =>
    if seg w 3 4 = 0 then some (.tld (guardOf w) (fld w 17 5) (fld w 12 5) (fld w 7 5) (fld w 2 1) (fld w 1 1) (fld w 0 1))
    else none
  | 24 =>
    if seg w 21 1 = 0 ∧ seg w 3 3 = 0 then some (.tlda (guardOf w) (fld w 17 4) (fld w 12 5) (fld w 7 5) (fld w 6 1) (fld w 0 3))
    else none
  | 25 =>
    if seg w 21 1 = 0 then some (.tst (guardOf w) (fld w 17 4) (fld w 12 5) (fld w 7 5) (fld w 6 1) (fld w 3 3) (fld w 0 3))
    else none
  | _ => none

/-- The M slot's column of Table 2-7: the instruction of a word, before the checks of WellFormed. -/
def decodeM (w : Nat) (k : Option Word) : Option Instr :=
  match w / 2 ^ 26 with
  | 0 =>
    match foldK 2048 w k with
    | some u => if seg u 15 2 = 0 ∧ seg u 11 1 = 0 then some (.mcall (guardOf u) (fld u 17 5) (fld u 12 3) (fld u 8 3) (fld u 7 1) (fld u 6 1) (fld u 0 6)) else none
    | none => none
  | 1 =>
    if seg w 3 9 = 0 then some (.msetp (guardOf w) (fld w 17 5) (fld w 12 5) (fld w 2 1) (fld w 0 2))
    else none
  | 2 =>
    if seg w 0 12 = 0 then some (.mgetp (guardOf w) (fld w 17 5) (fld w 12 5))
    else none
  | 3 =>
    match foldK 2 w k with
    | some u => if seg u 1 11 = 0 then some (.mclaim (guardOf u) (fld u 17 5) (fld u 12 5) (fld u 0 1)) else none
    | none => none
  | 4 =>
    match foldK 2 w k with
    | some u => if seg u 17 5 = 0 ∧ seg u 1 11 = 0 then some (.mrel (guardOf u) (fld u 12 5) (fld u 0 1)) else none
    | none => none
  | 5 =>
    if seg w 21 1 = 0 ∧ seg w 4 3 = 0 then some (.mzero (guardOf w) (fld w 17 4) (fld w 12 5) (fld w 7 5) (fld w 3 1) (fld w 1 2) (fld w 0 1))
    else none
  | 6 =>
    if seg w 21 1 = 0 ∧ seg w 4 3 = 0 ∧ seg w 1 2 = 0 then some (.mnorm (guardOf w) (fld w 17 4) (fld w 12 5) (fld w 7 5) (fld w 3 1) (fld w 0 1))
    else none
  | 7 =>
    if seg w 16 1 = 0 ∧ seg w 5 2 = 0 then some (.mrdrow (guardOf w) (fld w 17 5) (fld w 12 4) (fld w 7 5) (fld w 2 3) (fld w 0 2))
    else none
  | 8 =>
    if seg w 16 1 = 0 ∧ seg w 2 5 = 0 then some (.mwrrow (guardOf w) (fld w 17 5) (fld w 12 4) (fld w 7 5) (fld w 0 2))
    else none
  | 9 =>
    if seg w 0 17 = 0 ∧ seg w 17 5 ≠ 0 then some (.mcellPre (guardOf w) (fld w 17 5))
    else if seg w 17 5 = 0 then some (.mcell (guardOf w) (fld w 12 5) (fld w 0 12) (if fld w 0 12 = 0x800#12 then k else none))
    else none
  | 10 =>
    if seg w 20 2 = 0 then some (.mflow (guardOf w) (fld w 19 1) (fld w 17 2) (fld w 12 5) (fld w 0 12) (if fld w 0 12 = 0x800#12 then k else none))
    else none
  | 11 =>
    some (.mrout (guardOf w) (fld w 17 5) (fld w 12 5) (fld w 0 12) (if fld w 0 12 = 0x800#12 then k else none))
  | 12 =>
    match foldK 64 w k with
    | some u => if seg u 17 5 = 0 ∧ seg u 6 6 = 0 then some (.mtid (guardOf u) (fld u 12 5) (fld u 0 6)) else none
    | none => none
  | 13 =>
    if seg w 4 8 = 0 then some (.mtidr (guardOf w) (fld w 17 5) (fld w 12 5) (fld w 1 3) (fld w 0 1))
    else none
  | 14 =>
    if seg w 3 4 = 0 then some (.mdup (guardOf w) (fld w 17 5) (fld w 12 5) (fld w 7 5) (fld w 1 2) (fld w 0 1))
    else none
  | 15 =>
    if seg w 0 22 = 131072 then some (.mcodeFixed (guardOf w))
    else if seg w 17 5 = 0 then some (.mcode (guardOf w) (fld w 12 5) (fld w 0 12) (if fld w 0 12 = 0x800#12 then k else none))
    else none
  | 16 =>
    some (.mpred (guardOf w) (fld w 17 5) (fld w 12 5) (fld w 7 5) (fld w 0 7))
  | 17 =>
    if seg w 6 16 = 0 then some (.mwait (guardOf w) (fld w 0 6))
    else none
  | _ => none

/-- The Y slot's column of Table 2-7: the instruction of a word, before the checks of WellFormed. -/
def decodeY (w : Nat) (_k : Option Word) : Option Instr :=
  match w / 2 ^ 26 with
  | 0 =>
    if seg w 3 4 = 0 then some (.ysort (guardOf w) (fld w 17 5) (fld w 12 5) (fld w 7 5) (fld w 2 1) (fld w 0 2))
    else none
  | 1 =>
    if seg w 4 3 = 0 then some (.ymerge (guardOf w) (fld w 17 5) (fld w 12 5) (fld w 7 5) (fld w 3 1) (fld w 2 1) (fld w 0 2))
    else none
  | 2 =>
    if seg w 17 5 = 0 ∧ seg w 3 9 = 0 then some (.ytopkInit (guardOf w) (fld w 12 5) (fld w 2 1) (fld w 0 2))
    else if seg w 17 5 = 0 ∧ seg w 3 4 = 4 then some (.ytopkAdd (guardOf w) (fld w 12 5) (fld w 7 5) (fld w 0 3))
    else if seg w 0 7 = 64 then some (.ytopkOut (guardOf w) (fld w 17 5) (fld w 12 5) (fld w 7 5))
    else none
  | 3 =>
    if seg w 3 1 = 0 then some (.ysums (guardOf w) (fld w 17 5) (fld w 12 5) (fld w 7 5) (fld w 4 3) (fld w 2 1) (fld w 0 2))
    else none
  | 4 =>
    if seg w 3 9 = 0 then some (.yrank (guardOf w) (fld w 17 5) (fld w 12 5) (fld w 2 1) (fld w 0 2))
    else none
  | 5 =>
    if seg w 6 1 = 0 ∧ seg w 2 1 = 0 then some (.ybkt (guardOf w) (fld w 17 5) (fld w 12 5) (fld w 7 5) (fld w 3 3) (fld w 0 2))
    else none
  | 6 =>
    if seg w 0 7 = 0 then some (.ycmpr (guardOf w) (fld w 17 5) (fld w 12 5) (fld w 7 5))
    else none
  | 7 =>
    if seg w 4 3 = 0 ∧ seg w 0 3 = 0 then some (.yexpd (guardOf w) (fld w 17 5) (fld w 12 5) (fld w 7 5) (fld w 3 1))
    else none
  | 8 =>
    if seg w 4 3 = 0 then some (.yhist (guardOf w) (fld w 17 5) (fld w 12 5) (fld w 7 5) (fld w 3 1) (fld w 0 3))
    else none
  | 9 =>
    if seg w 6 6 = 0 then some (.yargx (guardOf w) (fld w 17 5) (fld w 12 5) (fld w 3 3) (fld w 2 1) (fld w 0 2))
    else none
  | _ => none

/-- The X slot's column of Table 2-7: the instruction of a word, before the checks of WellFormed. -/
def decodeX (w : Nat) (k : Option Word) : Option Instr :=
  match w / 2 ^ 26 with
  | 0 =>
    if seg w 17 5 = 0 then some (.cstage (guardOf w) (fld w 12 5) (fld w 0 12) (if fld w 0 12 = 0x800#12 then k else none))
    else none
  | 1 =>
    if seg w 17 5 = 0 ∧ seg w 0 7 = 0 then some (.carrive (guardOf w) (fld w 12 5) (fld w 7 5))
    else none
  | 2 =>
    if seg w 17 5 = 0 ∧ seg w 0 12 = 0 then some (.csched (guardOf w) (fld w 12 5))
    else none
  | 3 =>
    if seg w 0 12 = 2 then some (.rpushClose (guardOf w) (fld w 17 5) (fld w 12 5))
    else if seg w 0 7 = 0 then some (.rpush (guardOf w) (fld w 17 5) (fld w 12 5) (fld w 7 5))
    else if seg w 0 7 = 1 then some (.rpushOpen (guardOf w) (fld w 17 5) (fld w 12 5) (fld w 7 5))
    else none
  | 4 =>
    if seg w 3 9 = 0 then some (.rpop (guardOf w) (fld w 17 5) (fld w 12 5) (fld w 0 3))
    else none
  | 5 =>
    if seg w 3 9 = 0 then some (.rstat (guardOf w) (fld w 17 5) (fld w 12 5) (fld w 0 3))
    else none
  | 6 =>
    if seg w 0 7 = 0 then some (.mqsend (guardOf w) (fld w 17 5) (fld w 12 5) (fld w 7 5))
    else none
  | 7 =>
    if seg w 4 8 = 0 then some (.mqrecv (guardOf w) (fld w 17 5) (fld w 12 5) (fld w 3 1) (fld w 0 3))
    else none
  | 8 =>
    if seg w 0 12 = 0 then some (.mqstat (guardOf w) (fld w 17 5) (fld w 12 5))
    else none
  | 9 =>
    if seg w 0 12 = 0 then some (.tsubmit (guardOf w) (fld w 17 5) (fld w 12 5))
    else none
  | 10 =>
    if seg w 17 5 = 0 ∧ seg w 0 12 = 0 then some (.tsignal (guardOf w) (fld w 12 5))
    else none
  | 11 =>
    if seg w 17 5 = 0 ∧ seg w 2 10 = 0 ∧ seg w 0 1 = 0 then some (.launch (guardOf w) (fld w 12 5) (fld w 1 1))
    else if seg w 2 10 = 0 ∧ seg w 0 1 = 1 then some (.launchNb (guardOf w) (fld w 17 5) (fld w 12 5) (fld w 1 1))
    else none
  | 12 =>
    if seg w 0 7 = 0 then some (.fred (guardOf w) (fld w 17 5) (fld w 12 5) (fld w 7 5))
    else none
  | 13 =>
    if seg w 0 7 = 0 then some (.sladd (guardOf w) (fld w 17 5) (fld w 12 5) (fld w 7 5))
    else none
  | 14 =>
    if seg w 0 17 = 0 then some (.slsend (guardOf w) (fld w 17 5))
    else none
  | 15 =>
    if seg w 0 12 = 0 then some (.slrecv (guardOf w) (fld w 17 5) (fld w 12 5))
    else none
  | 16 =>
    some (.bbmark (guardOf w) (fld w 17 5) (fld w 12 5) (fld w 0 12) (if fld w 0 12 = 0x800#12 then k else none))
  | 17 =>
    if seg w 3 14 = 0 then some (.pwrq (guardOf w) (fld w 17 5) (fld w 0 3))
    else none
  | 18 =>
    if seg w 0 17 = 1 then some (.pwrresRel (guardOf w) (fld w 17 5))
    else if seg w 0 12 = 0 then some (.pwrres (guardOf w) (fld w 17 5) (fld w 12 5))
    else none
  | 19 =>
    if seg w 0 7 = 0 then some (.tlbi (guardOf w) (fld w 17 5) (fld w 12 5) (fld w 7 5))
    else none
  | 20 =>
    if seg w 1 11 = 0 then some (.selft (guardOf w) (fld w 17 5) (fld w 12 5) (fld w 0 1))
    else none
  | _ => none

/-- Table 2-5: the pair word (R44). -/
def decodePair (w : Nat) : Option Instr :=
  if seg w 0 1 = 0 ∧ seg w 14 1 = 0 then some (.pairWord ⟨seg w 31 1 = 1, fld w 28 3⟩ (fld w 24 4) (fld w 21 3) (fld w 18 3) (fld w 15 3) (fld w 10 4) (fld w 7 3) (fld w 4 3) (fld w 1 3)) else none

/-- The instruction of a slot word with the K word the bundle holds, if the encoding is legal (R42). -/
def decodeSlot (sl : Slot) (w : Nat) (k : Option Word) : Option Instr :=
  let i := match sl with
    | .C => decodeC w k
    | .S => decodeS w k
    | .V => decodeV w k
    | .L => decodeL w k
    | .M => decodeM w k
    | .Y => decodeY w k
    | .X => decodeX w k
    | .P => decodePair w
  match i with
  | some j => if j.wellFormed then some j else none
  | none => none

/-- The bit field a slot word's form gives its immediate, by slot and opcode (Tables 2-4 and 2-7): its width, or 0 where the
form has none or the instruction never requests K (R141, R286). -/
def immWidth (sl : Slot) (op : Nat) : Nat :=
  match sl with
  | .C => if [1, 3].contains op then 21 else if [6, 11, 12, 25].contains op then 12 else if [22, 23].contains op then 17 else 0
  | .S => if [1, 11, 13, 15, 18, 20, 22, 24, 32, 33, 36].contains op then 12 else if [34, 35, 37, 39, 40].contains op then 17 else 0
  | .V => if [36, 42, 43].contains op then 12 else 0
  | .L => if [0, 1, 2, 3, 4, 5, 6, 7, 8, 9, 10, 11, 12].contains op then 12 else 0
  | .M => if [0, 3, 4, 9, 10, 11, 12, 15].contains op then 12 else 0
  | .Y => 0
  | .X => if [0, 16].contains op then 12 else 0
  | .P => 0

/-- R43: the word's immediate field holds the value that requests extension. Made on the encoding alone (R37). -/
def requestsK (sl : Slot) (w : Nat) : Bool :=
  let n := immWidth sl (w / 2 ^ 26)
  n != 0 && seg w 0 n == 2 ^ (n - 1)

/-- The slot word of an instruction, from the same tables; 0 for an event, which has no word. -/
def encode (i : Instr) : Nat :=
  match i with
  | .nop gd => encodeGuard gd
  | .br gd o _ => 67108864 + encodeGuard gd + o.toNat
  | .jmp gd a => 134217728 + encodeGuard gd + a.toNat * 4096
  | .call gd o _ => 201326592 + encodeGuard gd + o.toNat
  | .callr gd d a => 268435456 + encodeGuard gd + d.toNat * 131072 + a.toNat * 4096
  | .ret gd a => 335544320 + encodeGuard gd + a.toNat * 4096
  | .loop gd l c _ => 402653184 + encodeGuard gd + l.toNat * 4096 + c.toNat
  | .loopr gd h a l => 469762048 + encodeGuard gd + h.toNat * 131072 + a.toNat * 4096 + l.toNat * 128
  | .lbrk gd k => 536870912 + encodeGuard gd + k.toNat * 131072
  | .endThread gd => 603979776 + encodeGuard gd
  | .yield gd a => 671088640 + encodeGuard gd + a.toNat * 4096
  | .await gd d a i _ => 738197504 + encodeGuard gd + d.toNat * 131072 + a.toNat * 4096 + i.toNat
  | .joinNew gd => 807403520 + encodeGuard gd
  | .join gd a i _ => 805306368 + encodeGuard gd + a.toNat * 4096 + i.toNat
  | .leave gd => 872415232 + encodeGuard gd
  | .bar gd => 939524096 + encodeGuard gd
  | .fuse gd k f => 1006632960 + encodeGuard gd + k.toNat * 8 + f.toNat
  | .decouple gd => 1073741824 + encodeGuard gd
  | .rejoin gd d => 1140850688 + encodeGuard gd + d.toNat * 131072
  | .suspend gd d a => 1207959552 + encodeGuard gd + d.toNat * 131072 + a.toNat * 4096
  | .suspendComplete _ _ => 0
  | .resume gd a p => 1275068416 + encodeGuard gd + a.toNat * 4096 + p.toNat
  | .hamperLoadComplete _ _ => 0
  | .hcopy gd d a b => 1342177280 + encodeGuard gd + d.toNat * 131072 + a.toNat * 4096 + b.toNat * 128
  | .hcopyComplete _ _ => 0
  | .hdiscard gd d a => 1409286144 + encodeGuard gd + d.toNat * 131072 + a.toNat * 4096
  | .trap gd i _ => 1476395008 + encodeGuard gd + i.toNat
  | .gate gd i => 1543503872 + encodeGuard gd + i.toNat
  | .rft gd a => 1610612736 + encodeGuard gd + a.toNat * 4096
  | .rftN gd => 1610612737 + encodeGuard gd
  | .snapst gd b o _ => 1677721600 + encodeGuard gd + b.toNat * 4096 + o.toNat
  | .snaprel gd => 1744830464 + encodeGuard gd
  | .step gd d a t => 1811939328 + encodeGuard gd + d.toNat * 131072 + a.toNat * 4096 + t.toNat
  | .add gd d a b k => encodeGuard gd + d.toNat * 131072 + a.toNat * 4096 + b.toNat * 128 + k.toNat
  | .addi gd d a i _ => 67108864 + encodeGuard gd + d.toNat * 131072 + a.toNat * 4096 + i.toNat
  | .sub gd d a b k => 134217728 + encodeGuard gd + d.toNat * 131072 + a.toNat * 4096 + b.toNat * 128 + k.toNat
  | .mul gd d a b k => 201326592 + encodeGuard gd + d.toNat * 131072 + a.toNat * 4096 + b.toNat * 128 + k.toNat
  | .mulh gd d a b => 268435456 + encodeGuard gd + d.toNat * 131072 + a.toNat * 4096 + b.toNat * 128
  | .mulhu gd d a b => 335544320 + encodeGuard gd + d.toNat * 131072 + a.toNat * 4096 + b.toNat * 128
  | .div gd d a b => 402653184 + encodeGuard gd + d.toNat * 131072 + a.toNat * 4096 + b.toNat * 128
  | .divu gd d a b => 469762048 + encodeGuard gd + d.toNat * 131072 + a.toNat * 4096 + b.toNat * 128
  | .rem gd d a b => 536870912 + encodeGuard gd + d.toNat * 131072 + a.toNat * 4096 + b.toNat * 128
  | .remu gd d a b => 603979776 + encodeGuard gd + d.toNat * 131072 + a.toNat * 4096 + b.toNat * 128
  | .andS gd d a b => 671088640 + encodeGuard gd + d.toNat * 131072 + a.toNat * 4096 + b.toNat * 128
  | .andi gd d a i _ => 738197504 + encodeGuard gd + d.toNat * 131072 + a.toNat * 4096 + i.toNat
  | .orS gd d a b => 805306368 + encodeGuard gd + d.toNat * 131072 + a.toNat * 4096 + b.toNat * 128
  | .ori gd d a i _ => 872415232 + encodeGuard gd + d.toNat * 131072 + a.toNat * 4096 + i.toNat
  | .xorS gd d a b => 939524096 + encodeGuard gd + d.toNat * 131072 + a.toNat * 4096 + b.toNat * 128
  | .xori gd d a i _ => 1006632960 + encodeGuard gd + d.toNat * 131072 + a.toNat * 4096 + i.toNat
  | .andn gd d a b => 1073741824 + encodeGuard gd + d.toNat * 131072 + a.toNat * 4096 + b.toNat * 128
  | .shl gd d a b => 1140850688 + encodeGuard gd + d.toNat * 131072 + a.toNat * 4096 + b.toNat * 128
  | .shli gd d a i _ => 1207959552 + encodeGuard gd + d.toNat * 131072 + a.toNat * 4096 + i.toNat
  | .shr gd d a b => 1275068416 + encodeGuard gd + d.toNat * 131072 + a.toNat * 4096 + b.toNat * 128
  | .shri gd d a i _ => 1342177280 + encodeGuard gd + d.toNat * 131072 + a.toNat * 4096 + i.toNat
  | .sar gd d a b => 1409286144 + encodeGuard gd + d.toNat * 131072 + a.toNat * 4096 + b.toNat * 128
  | .sari gd d a i _ => 1476395008 + encodeGuard gd + d.toNat * 131072 + a.toNat * 4096 + i.toNat
  | .cmp gd d a b c => 1543503872 + encodeGuard gd + d.toNat * 131072 + a.toNat * 4096 + b.toNat * 128 + c.toNat
  | .cmpi gd c q a i _ => 1610612736 + encodeGuard gd + c.toNat * 1048576 + q.toNat * 131072 + a.toNat * 4096 + i.toNat
  | .sel gd d a b x k => 1677721600 + encodeGuard gd + d.toNat * 131072 + a.toNat * 4096 + b.toNat * 128 + x.toNat * 8 + k.toNat
  | .min gd d a b => 1744830464 + encodeGuard gd + d.toNat * 131072 + a.toNat * 4096 + b.toNat * 128
  | .max gd d a b => 1811939328 + encodeGuard gd + d.toNat * 131072 + a.toNat * 4096 + b.toNat * 128
  | .minu gd d a b => 1879048192 + encodeGuard gd + d.toNat * 131072 + a.toNat * 4096 + b.toNat * 128
  | .maxu gd d a b => 1946157056 + encodeGuard gd + d.toNat * 131072 + a.toNat * 4096 + b.toNat * 128
  | .clz gd d a => 2013265920 + encodeGuard gd + d.toNat * 131072 + a.toNat * 4096
  | .popc gd d a => 2080374784 + encodeGuard gd + d.toNat * 131072 + a.toNat * 4096
  | .bfx gd d a i _ => 2147483648 + encodeGuard gd + d.toNat * 131072 + a.toNat * 4096 + i.toNat
  | .bfi gd d a i _ => 2214592512 + encodeGuard gd + d.toNat * 131072 + a.toNat * 4096 + i.toNat
  | .li gd d i _ => 2281701376 + encodeGuard gd + d.toNat * 131072 + i.toNat
  | .lih gd d i _ => 2348810240 + encodeGuard gd + d.toNat * 131072 + i.toNat
  | .lea gd d a i _ => 2415919104 + encodeGuard gd + d.toNat * 131072 + a.toNat * 4096 + i.toNat
  | .addpc gd d i _ => 2483027968 + encodeGuard gd + d.toNat * 131072 + i.toNat
  | .gop gd d a b f => 2550136832 + encodeGuard gd + d.toNat * 131072 + a.toNat * 4096 + b.toNat * 128 + f.toNat
  | .movs gd d i _ => 2617245696 + encodeGuard gd + d.toNat * 131072 + i.toNat
  | .movz gd d i _ => 2684354560 + encodeGuard gd + d.toNat * 131072 + i.toNat
  | .fadd gd d a b r => 2751463424 + encodeGuard gd + d.toNat * 131072 + a.toNat * 4096 + b.toNat * 128 + r.toNat
  | .fsub gd d a b r => 2818572288 + encodeGuard gd + d.toNat * 131072 + a.toNat * 4096 + b.toNat * 128 + r.toNat
  | .fmul gd d a b r => 2885681152 + encodeGuard gd + d.toNat * 131072 + a.toNat * 4096 + b.toNat * 128 + r.toNat
  | .fma gd d a b r => 2952790016 + encodeGuard gd + d.toNat * 131072 + a.toNat * 4096 + b.toNat * 128 + r.toNat
  | .fmin gd d a b => 3019898880 + encodeGuard gd + d.toNat * 131072 + a.toNat * 4096 + b.toNat * 128
  | .fmax gd d a b => 3087007744 + encodeGuard gd + d.toNat * 131072 + a.toNat * 4096 + b.toNat * 128
  | .fcmp gd d a b c => 3154116608 + encodeGuard gd + d.toNat * 131072 + a.toNat * 4096 + b.toNat * 128 + c.toNat
  | .fcvti gd d a u r => 3221225472 + encodeGuard gd + d.toNat * 131072 + a.toNat * 4096 + u.toNat * 16 + r.toNat
  | .fcvtf gd d a u r => 3288334336 + encodeGuard gd + d.toNat * 131072 + a.toNat * 4096 + u.toNat * 16 + r.toNat
  | .pairWord gd s d a b v x y z => (if gd.neg then 2147483648 else 0) + gd.reg.toNat * 268435456 + s.toNat * 16777216 + d.toNat * 2097152 + a.toNat * 262144 + b.toNat * 32768 + v.toNat * 1024 + x.toNat * 128 + y.toNat * 16 + z.toNat * 2
  | .vadd gd d a b e s z k => encodeGuard gd + d.toNat * 131072 + a.toNat * 4096 + b.toNat * 128 + e.toNat * 64 + s.toNat * 16 + z.toNat * 8 + k.toNat
  | .vsub gd d a b e s z k => 67108864 + encodeGuard gd + d.toNat * 131072 + a.toNat * 4096 + b.toNat * 128 + e.toNat * 64 + s.toNat * 16 + z.toNat * 8 + k.toNat
  | .vmul gd d a b e z k => 134217728 + encodeGuard gd + d.toNat * 131072 + a.toNat * 4096 + b.toNat * 128 + e.toNat * 64 + z.toNat * 8 + k.toNat
  | .vmulh gd d a b e u z k => 201326592 + encodeGuard gd + d.toNat * 131072 + a.toNat * 4096 + b.toNat * 128 + e.toNat * 64 + u.toNat * 16 + z.toNat * 8 + k.toNat
  | .vmad gd d a b e s z k => 268435456 + encodeGuard gd + d.toNat * 131072 + a.toNat * 4096 + b.toNat * 128 + e.toNat * 64 + s.toNat * 16 + z.toNat * 8 + k.toNat
  | .vand gd d a b e z k => 335544320 + encodeGuard gd + d.toNat * 131072 + a.toNat * 4096 + b.toNat * 128 + e.toNat * 64 + z.toNat * 8 + k.toNat
  | .vor gd d a b e z k => 402653184 + encodeGuard gd + d.toNat * 131072 + a.toNat * 4096 + b.toNat * 128 + e.toNat * 64 + z.toNat * 8 + k.toNat
  | .vxor gd d a b e z k => 469762048 + encodeGuard gd + d.toNat * 131072 + a.toNat * 4096 + b.toNat * 128 + e.toNat * 64 + z.toNat * 8 + k.toNat
  | .vshl gd d a b e z k => 536870912 + encodeGuard gd + d.toNat * 131072 + a.toNat * 4096 + b.toNat * 128 + e.toNat * 64 + z.toNat * 8 + k.toNat
  | .vshr gd d a b e z k => 603979776 + encodeGuard gd + d.toNat * 131072 + a.toNat * 4096 + b.toNat * 128 + e.toNat * 64 + z.toNat * 8 + k.toNat
  | .vsar gd d a b e z k => 671088640 + encodeGuard gd + d.toNat * 131072 + a.toNat * 4096 + b.toNat * 128 + e.toNat * 64 + z.toNat * 8 + k.toNat
  | .vmin gd d a b e u z k => 738197504 + encodeGuard gd + d.toNat * 131072 + a.toNat * 4096 + b.toNat * 128 + e.toNat * 64 + u.toNat * 16 + z.toNat * 8 + k.toNat
  | .vmax gd d a b e u z k => 805306368 + encodeGuard gd + d.toNat * 131072 + a.toNat * 4096 + b.toNat * 128 + e.toNat * 64 + u.toNat * 16 + z.toNat * 8 + k.toNat
  | .vabs gd d a f z k => 872415232 + encodeGuard gd + d.toNat * 131072 + a.toNat * 4096 + f.toNat * 16 + z.toNat * 8 + k.toNat
  | .vcmp gd d a b c z k => 939524096 + encodeGuard gd + d.toNat * 131072 + a.toNat * 4096 + b.toNat * 128 + c.toNat * 16 + z.toNat * 8 + k.toNat
  | .vsel gd d a b x s => 1006632960 + encodeGuard gd + d.toNat * 131072 + a.toNat * 4096 + b.toNat * 128 + x.toNat * 8 + s.toNat
  | .vfadd gd d a b r z k => 1073741824 + encodeGuard gd + d.toNat * 131072 + a.toNat * 4096 + b.toNat * 128 + r.toNat * 16 + z.toNat * 8 + k.toNat
  | .vfsub gd d a b r z k => 1140850688 + encodeGuard gd + d.toNat * 131072 + a.toNat * 4096 + b.toNat * 128 + r.toNat * 16 + z.toNat * 8 + k.toNat
  | .vfmul gd d a b r z k => 1207959552 + encodeGuard gd + d.toNat * 131072 + a.toNat * 4096 + b.toNat * 128 + r.toNat * 16 + z.toNat * 8 + k.toNat
  | .vfma gd d a b r z k => 1275068416 + encodeGuard gd + d.toNat * 131072 + a.toNat * 4096 + b.toNat * 128 + r.toNat * 16 + z.toNat * 8 + k.toNat
  | .vfmin gd d a b z k => 1342177280 + encodeGuard gd + d.toNat * 131072 + a.toNat * 4096 + b.toNat * 128 + z.toNat * 8 + k.toNat
  | .vfmax gd d a b z k => 1409286144 + encodeGuard gd + d.toNat * 131072 + a.toNat * 4096 + b.toNat * 128 + z.toNat * 8 + k.toNat
  | .vfcmp gd d a b c z k => 1476395008 + encodeGuard gd + d.toNat * 131072 + a.toNat * 4096 + b.toNat * 128 + c.toNat * 16 + z.toNat * 8 + k.toNat
  | .vrcp gd d a z k => 1543503872 + encodeGuard gd + d.toNat * 131072 + a.toNat * 4096 + z.toNat * 8 + k.toNat
  | .vrsq gd d a z k => 1610612736 + encodeGuard gd + d.toNat * 131072 + a.toNat * 4096 + z.toNat * 8 + k.toNat
  | .vexp2 gd d a z k => 1677721600 + encodeGuard gd + d.toNat * 131072 + a.toNat * 4096 + z.toNat * 8 + k.toNat
  | .vlog2 gd d a z k => 1744830464 + encodeGuard gd + d.toNat * 131072 + a.toNat * 4096 + z.toNat * 8 + k.toNat
  | .vcvt gd d a p r f => 1811939328 + encodeGuard gd + d.toNat * 131072 + a.toNat * 4096 + p.toNat * 128 + r.toNat * 16 + f.toNat
  | .vcvtWide gd d a p f => 1811939440 + encodeGuard gd + d.toNat * 131072 + a.toNat * 4096 + p.toNat * 128 + f.toNat
  | .vqnt gd d a b r h f => 1879048192 + encodeGuard gd + d.toNat * 131072 + a.toNat * 4096 + b.toNat * 128 + r.toNat * 16 + h.toNat * 8 + f.toNat
  | .vdqnt gd d a b r h f => 1946157056 + encodeGuard gd + d.toNat * 131072 + a.toNat * 4096 + b.toNat * 128 + r.toNat * 16 + h.toNat * 8 + f.toNat
  | .vbsc gd d a h f => 2013265920 + encodeGuard gd + d.toNat * 131072 + a.toNat * 4096 + h.toNat * 8 + f.toNat
  | .vperm gd d a b z k => 2080374784 + encodeGuard gd + d.toNat * 131072 + a.toNat * 4096 + b.toNat * 128 + z.toNat * 8 + k.toNat
  | .vbcast gd d a b l z k => 2147483648 + encodeGuard gd + d.toNat * 131072 + a.toNat * 4096 + b.toNat * 128 + l.toNat * 16 + z.toNat * 8 + k.toNat
  | .vslide gd d a r s => 2214592512 + encodeGuard gd + d.toNat * 131072 + a.toNat * 4096 + r.toNat * 64 + s.toNat
  | .vred gd d a p k => 2281701376 + encodeGuard gd + d.toNat * 131072 + a.toNat * 4096 + p.toNat * 8 + k.toNat
  | .vscan gd d a x p k => 2348810240 + encodeGuard gd + d.toNat * 131072 + a.toNat * 4096 + x.toNat * 128 + p.toNat * 8 + k.toNat
  | .viota gd d a i _ => 2415919104 + encodeGuard gd + d.toNat * 131072 + a.toNat * 4096 + i.toNat
  | .vmop gd d a b f => 2483027968 + encodeGuard gd + d.toNat * 131072 + a.toNat * 4096 + b.toNat * 128 + f.toNat
  | .vmpopPopc gd d a => 2550136832 + encodeGuard gd + d.toNat * 131072 + a.toNat * 4096
  | .vmpopFfs gd d a => 2550136833 + encodeGuard gd + d.toNat * 131072 + a.toNat * 4096
  | .vmpopGet gd d a => 2550136834 + encodeGuard gd + d.toNat * 131072 + a.toNat * 4096
  | .vmpopSet gd d a => 2550136835 + encodeGuard gd + d.toNat * 131072 + a.toNat * 4096
  | .vrng gd d t z k => 2617245696 + encodeGuard gd + d.toNat * 131072 + t.toNat * 16 + z.toNat * 8 + k.toNat
  | .vprune gd d a b z k => 2684354560 + encodeGuard gd + d.toNat * 131072 + a.toNat * 4096 + b.toNat * 128 + z.toNat * 8 + k.toNat
  | .vnm gd d a b i s => 2751463424 + encodeGuard gd + d.toNat * 131072 + a.toNat * 4096 + b.toNat * 128 + i.toNat * 64 + s.toNat * 16
  | .vmovs gd d a u l => 2818572288 + encodeGuard gd + d.toNat * 131072 + a.toNat * 4096 + u.toNat * 32 + l.toNat
  | .vins gd d a l => 2885681152 + encodeGuard gd + d.toNat * 131072 + a.toNat * 4096 + l.toNat
  | .ldB gd d b i _ => encodeGuard gd + d.toNat * 131072 + b.toNat * 4096 + i.toNat
  | .ldH gd d b i _ => 67108864 + encodeGuard gd + d.toNat * 131072 + b.toNat * 4096 + i.toNat
  | .ldW gd d b i _ => 134217728 + encodeGuard gd + d.toNat * 131072 + b.toNat * 4096 + i.toNat
  | .ldD gd d b i _ => 201326592 + encodeGuard gd + d.toNat * 131072 + b.toNat * 4096 + i.toNat
  | .lduB gd d b i _ => 268435456 + encodeGuard gd + d.toNat * 131072 + b.toNat * 4096 + i.toNat
  | .lduH gd d b i _ => 335544320 + encodeGuard gd + d.toNat * 131072 + b.toNat * 4096 + i.toNat
  | .lduW gd d b i _ => 402653184 + encodeGuard gd + d.toNat * 131072 + b.toNat * 4096 + i.toNat
  | .stB gd d b i _ => 469762048 + encodeGuard gd + d.toNat * 131072 + b.toNat * 4096 + i.toNat
  | .stH gd d b i _ => 536870912 + encodeGuard gd + d.toNat * 131072 + b.toNat * 4096 + i.toNat
  | .stW gd d b i _ => 603979776 + encodeGuard gd + d.toNat * 131072 + b.toNat * 4096 + i.toNat
  | .stD gd d b i _ => 671088640 + encodeGuard gd + d.toNat * 131072 + b.toNat * 4096 + i.toNat
  | .ldv gd d b i _ => 738197504 + encodeGuard gd + d.toNat * 131072 + b.toNat * 4096 + i.toNat
  | .stv gd d b i _ => 805306368 + encodeGuard gd + d.toNat * 131072 + b.toNat * 4096 + i.toNat
  | .ldvs gd d a b z k => 872415232 + encodeGuard gd + d.toNat * 131072 + a.toNat * 4096 + b.toNat * 128 + z.toNat * 8 + k.toNat
  | .stvs gd d a b k => 939524096 + encodeGuard gd + d.toNat * 131072 + a.toNat * 4096 + b.toNat * 128 + k.toNat
  | .ldvx gd d a b z k => 1006632960 + encodeGuard gd + d.toNat * 131072 + a.toNat * 4096 + b.toNat * 128 + z.toNat * 8 + k.toNat
  | .stvx gd d a b k => 1073741824 + encodeGuard gd + d.toNat * 131072 + a.toNat * 4096 + b.toNat * 128 + k.toNat
  | .lda gd d a w s o => 1140850688 + encodeGuard gd + d.toNat * 131072 + a.toNat * 4096 + w.toNat * 64 + s.toNat * 8 + o.toNat
  | .sta gd d a w s o => 1207959552 + encodeGuard gd + d.toNat * 131072 + a.toNat * 4096 + w.toNat * 64 + s.toNat * 8 + o.toNat
  | .amo gd d a w s p o => 1275068416 + encodeGuard gd + d.toNat * 131072 + a.toNat * 4096 + w.toNat * 1024 + s.toNat * 128 + p.toNat * 8 + o.toNat
  | .cas gd d a b w s o => 1342177280 + encodeGuard gd + d.toNat * 131072 + a.toNat * 4096 + b.toNat * 128 + w.toNat * 64 + s.toNat * 8 + o.toNat
  | .vamo gd d a b s o => 1409286144 + encodeGuard gd + d.toNat * 131072 + a.toNat * 4096 + b.toNat * 128 + s.toNat * 16 + o.toNat
  | .fence gd s o => 1476395008 + encodeGuard gd + s.toNat * 8 + o.toNat
  | .tld gd d a b t x y => 1543503872 + encodeGuard gd + d.toNat * 131072 + a.toNat * 4096 + b.toNat * 128 + t.toNat * 4 + x.toNat * 2 + y.toNat
  | .tlda gd t a b p f => 1610612736 + encodeGuard gd + t.toNat * 131072 + a.toNat * 4096 + b.toNat * 128 + p.toNat * 64 + f.toNat
  | .tst gd t a b p r f => 1677721600 + encodeGuard gd + t.toNat * 131072 + a.toNat * 4096 + b.toNat * 128 + p.toNat * 64 + r.toNat * 8 + f.toNat
  | .mcall gd v q x w p r => encodeGuard gd + v.toNat * 131072 + q.toNat * 4096 + x.toNat * 256 + w.toNat * 128 + p.toNat * 64 + r.toNat
  | .mcallEngineStart _ => 0
  | .mcallRetire _ => 0
  | .routineStop _ _ => 0
  | .msetp gd d a h y => 67108864 + encodeGuard gd + d.toNat * 131072 + a.toNat * 4096 + h.toNat * 4 + y.toNat
  | .mgetp gd d a => 134217728 + encodeGuard gd + d.toNat * 131072 + a.toNat * 4096
  | .mclaim gd d a t => 201326592 + encodeGuard gd + d.toNat * 131072 + a.toNat * 4096 + t.toNat
  | .mrel gd a t => 268435456 + encodeGuard gd + a.toNat * 4096 + t.toNat
  | .mzero gd t a b p j i => 335544320 + encodeGuard gd + t.toNat * 131072 + a.toNat * 4096 + b.toNat * 128 + p.toNat * 8 + j.toNat * 2 + i.toNat
  | .mnorm gd t a b p x => 402653184 + encodeGuard gd + t.toNat * 131072 + a.toNat * 4096 + b.toNat * 128 + p.toNat * 8 + x.toNat
  | .mrdrow gd d t b r f => 469762048 + encodeGuard gd + d.toNat * 131072 + t.toNat * 4096 + b.toNat * 128 + r.toNat * 4 + f.toNat
  | .mwrrow gd d t b f => 536870912 + encodeGuard gd + d.toNat * 131072 + t.toNat * 4096 + b.toNat * 128 + f.toNat
  | .mcell gd a i _ => 603979776 + encodeGuard gd + a.toNat * 4096 + i.toNat
  | .mcellPre gd p => 603979776 + encodeGuard gd + p.toNat * 131072
  | .mflow gd y p a i _ => 671088640 + encodeGuard gd + y.toNat * 524288 + p.toNat * 131072 + a.toNat * 4096 + i.toNat
  | .mrout gd d a i _ => 738197504 + encodeGuard gd + d.toNat * 131072 + a.toNat * 4096 + i.toNat
  | .configCommandApply _ => 0
  | .mtid gd a e => 805306368 + encodeGuard gd + a.toNat * 4096 + e.toNat
  | .mtidr gd d a k e => 872415232 + encodeGuard gd + d.toNat * 131072 + a.toNat * 4096 + k.toNat * 2 + e.toNat
  | .mdup gd d a b q e => 939524096 + encodeGuard gd + d.toNat * 131072 + a.toNat * 4096 + b.toNat * 128 + q.toNat * 2 + e.toNat
  | .tableCommandApply _ => 0
  | .mcode gd a i _ => 1006632960 + encodeGuard gd + a.toNat * 4096 + i.toNat
  | .mcodeFixed gd => 1006764032 + encodeGuard gd
  | .codeTableFlip _ => 0
  | .mpred gd d a b f => 1073741824 + encodeGuard gd + d.toNat * 131072 + a.toNat * 4096 + b.toNat * 128 + f.toNat
  | .mwait gd c => 1140850688 + encodeGuard gd + c.toNat
  | .ysort gd d a b x t => encodeGuard gd + d.toNat * 131072 + a.toNat * 4096 + b.toNat * 128 + x.toNat * 4 + t.toNat
  | .ymerge gd d a b h x t => 67108864 + encodeGuard gd + d.toNat * 131072 + a.toNat * 4096 + b.toNat * 128 + h.toNat * 8 + x.toNat * 4 + t.toNat
  | .ytopkInit gd a x t => 134217728 + encodeGuard gd + a.toNat * 4096 + x.toNat * 4 + t.toNat
  | .ytopkAdd gd a b k => 134217760 + encodeGuard gd + a.toNat * 4096 + b.toNat * 128 + k.toNat
  | .ytopkOut gd d a b => 134217792 + encodeGuard gd + d.toNat * 131072 + a.toNat * 4096 + b.toNat * 128
  | .ysums gd d a b r y t => 201326592 + encodeGuard gd + d.toNat * 131072 + a.toNat * 4096 + b.toNat * 128 + r.toNat * 16 + y.toNat * 4 + t.toNat
  | .yrank gd d a x t => 268435456 + encodeGuard gd + d.toNat * 131072 + a.toNat * 4096 + x.toNat * 4 + t.toNat
  | .ybkt gd d a b k t => 335544320 + encodeGuard gd + d.toNat * 131072 + a.toNat * 4096 + b.toNat * 128 + k.toNat * 8 + t.toNat
  | .ycmpr gd d a b => 402653184 + encodeGuard gd + d.toNat * 131072 + a.toNat * 4096 + b.toNat * 128
  | .yexpd gd d a b z => 469762048 + encodeGuard gd + d.toNat * 131072 + a.toNat * 4096 + b.toNat * 128 + z.toNat * 8
  | .yhist gd d a b w k => 536870912 + encodeGuard gd + d.toNat * 131072 + a.toNat * 4096 + b.toNat * 128 + w.toNat * 8 + k.toNat
  | .yargx gd d a k x t => 603979776 + encodeGuard gd + d.toNat * 131072 + a.toNat * 4096 + k.toNat * 8 + x.toNat * 4 + t.toNat
  | .cstage gd a i _ => encodeGuard gd + a.toNat * 4096 + i.toNat
  | .carrive gd a b => 67108864 + encodeGuard gd + a.toNat * 4096 + b.toNat * 128
  | .csched gd a => 134217728 + encodeGuard gd + a.toNat * 4096
  | .rpush gd d a b => 201326592 + encodeGuard gd + d.toNat * 131072 + a.toNat * 4096 + b.toNat * 128
  | .rpushOpen gd d a b => 201326593 + encodeGuard gd + d.toNat * 131072 + a.toNat * 4096 + b.toNat * 128
  | .rpushClose gd d a => 201326594 + encodeGuard gd + d.toNat * 131072 + a.toNat * 4096
  | .rpop gd d a k => 268435456 + encodeGuard gd + d.toNat * 131072 + a.toNat * 4096 + k.toNat
  | .rstat gd d a k => 335544320 + encodeGuard gd + d.toNat * 131072 + a.toNat * 4096 + k.toNat
  | .ringDeliveryLand _ _ => 0
  | .mqsend gd d a b => 402653184 + encodeGuard gd + d.toNat * 131072 + a.toNat * 4096 + b.toNat * 128
  | .mqrecv gd d a x k => 469762048 + encodeGuard gd + d.toNat * 131072 + a.toNat * 4096 + x.toNat * 8 + k.toNat
  | .mqstat gd d a => 536870912 + encodeGuard gd + d.toNat * 131072 + a.toNat * 4096
  | .queueEntryApply _ => 0
  | .queueCreditReturn _ => 0
  | .tsubmit gd d a => 603979776 + encodeGuard gd + d.toNat * 131072 + a.toNat * 4096
  | .tsubmitRetry _ => 0
  | .tsignal gd a => 671088640 + encodeGuard gd + a.toNat * 4096
  | .launch gd a o => 738197504 + encodeGuard gd + a.toNat * 4096 + o.toNat * 2
  | .launchNb gd d a o => 738197505 + encodeGuard gd + d.toNat * 131072 + a.toNat * 4096 + o.toNat * 2
  | .pendingLaunchDrain _ => 0
  | .fred gd d a b => 805306368 + encodeGuard gd + d.toNat * 131072 + a.toNat * 4096 + b.toNat * 128
  | .sladd gd d a b => 872415232 + encodeGuard gd + d.toNat * 131072 + a.toNat * 4096 + b.toNat * 128
  | .slsend gd d => 939524096 + encodeGuard gd + d.toNat * 131072
  | .slrecv gd d a => 1006632960 + encodeGuard gd + d.toNat * 131072 + a.toNat * 4096
  | .bbmark gd d a i _ => 1073741824 + encodeGuard gd + d.toNat * 131072 + a.toNat * 4096 + i.toNat
  | .pwrq gd d i => 1140850688 + encodeGuard gd + d.toNat * 131072 + i.toNat
  | .pwrres gd d a => 1207959552 + encodeGuard gd + d.toNat * 131072 + a.toNat * 4096
  | .pwrresRel gd d => 1207959553 + encodeGuard gd + d.toNat * 131072
  | .tlbi gd d a b => 1275068416 + encodeGuard gd + d.toNat * 131072 + a.toNat * 4096 + b.toNat * 128
  | .tlbiComplete _ => 0
  | .selft gd d a w => 1342177280 + encodeGuard gd + d.toNat * 131072 + a.toNat * 4096 + w.toNat
  | .emptyBundle _ => 0
  | .lineSkip => 0
  | .lineFill _ => 0
  | .asyncTrap _ => 0
  | .yieldExpiry _ => 0
  | .threadFree _ => 0
  | .taskPlacement _ => 0
  | .priorityAgeing _ _ => 0
  | .reservationTaken _ => 0
  | .readyQueueEntry _ => 0
  | .stopLands _ => 0
  | .stopRequestTimeout _ => 0
  | .killRequeue _ _ => 0
  | .checkpointWrite _ _ => 0
  | .copyChunk _ _ => 0
  | .copyEntryComplete _ _ => 0
  | .copyEntryStop _ _ => 0
  | .translationWalk _ => 0
  | .packageReset _ => 0
  | .attestationQuote _ => 0
  | .keySlotWrite _ _ => 0
  | .packetIngress _ => 0
  | .hubRegisterWrite _ => 0
  | .grantWrite _ => 0
  | .energySample _ => 0
  | .energyInterval => 0
  | .selfTestVerdict _ _ => 0
  | .blackBoxClear _ _ _ => 0
  | .fatalHardwareEvent _ _ _ _ => 0
  | .flitCrcFail _ _ => 0
  | .laneOutOfService _ _ => 0
  | .linkDown _ => 0
  | .packetRoute _ _ => 0
  | .escapeMove _ => 0
  | .fabricPacketSend _ => 0
  | .creditRequest _ => 0
  | .creditGrant _ _ => 0
  | .creditExpiry _ => 0
  | .ackReceive _ _ => 0
  | .writePlace _ => 0
  | .fredApply _ => 0
  | .tokenPlace _ => 0
  | .flushComplete => 0
  | .coordinatorGo => 0
  | .harvestApply => 0
  | .boundaryComplete => 0
  | .stepSkew => 0
  | .declareFailed _ => 0
  | .failedNotice _ => 0
  | .fixedLatencyWriteLands _ => 0
  | .accessPerformsAtHome _ => 0
  | .matrixCommandEngineApply _ => 0
  | .dieEngineCommandApply _ => 0
  | .thermalWarning _ _ => 0
  | .systemCoreLineWriteback _ _ => 0
  | .decodeCheckTrap _ _ _ => 0

/-- The K word an instruction takes, if it requests one. -/
def kWordOf (i : Instr) : Option Word :=
  match i with
  | .br _ _ kw => kw
  | .call _ _ kw => kw
  | .loop _ _ _ kw => kw
  | .await _ _ _ _ kw => kw
  | .join _ _ _ kw => kw
  | .trap _ _ kw => kw
  | .snapst _ _ _ kw => kw
  | .addi _ _ _ _ kw => kw
  | .andi _ _ _ _ kw => kw
  | .ori _ _ _ _ kw => kw
  | .xori _ _ _ _ kw => kw
  | .shli _ _ _ _ kw => kw
  | .shri _ _ _ _ kw => kw
  | .sari _ _ _ _ kw => kw
  | .cmpi _ _ _ _ _ kw => kw
  | .bfx _ _ _ _ kw => kw
  | .bfi _ _ _ _ kw => kw
  | .li _ _ _ kw => kw
  | .lih _ _ _ kw => kw
  | .lea _ _ _ _ kw => kw
  | .addpc _ _ _ kw => kw
  | .movs _ _ _ kw => kw
  | .movz _ _ _ kw => kw
  | .viota _ _ _ _ kw => kw
  | .ldB _ _ _ _ kw => kw
  | .ldH _ _ _ _ kw => kw
  | .ldW _ _ _ _ kw => kw
  | .ldD _ _ _ _ kw => kw
  | .lduB _ _ _ _ kw => kw
  | .lduH _ _ _ _ kw => kw
  | .lduW _ _ _ _ kw => kw
  | .stB _ _ _ _ kw => kw
  | .stH _ _ _ _ kw => kw
  | .stW _ _ _ _ kw => kw
  | .stD _ _ _ _ kw => kw
  | .ldv _ _ _ _ kw => kw
  | .stv _ _ _ _ kw => kw
  | .mcell _ _ _ kw => kw
  | .mflow _ _ _ _ _ kw => kw
  | .mrout _ _ _ _ kw => kw
  | .mcode _ _ _ kw => kw
  | .cstage _ _ _ kw => kw
  | .bbmark _ _ _ _ kw => kw
  | _ => none

/-- The slot of an instruction; `none` for an event. -/
def slotOf (i : Instr) : Option Slot :=
  match i with
  | .nop _ => some .C
  | .br _ _ _ => some .C
  | .jmp _ _ => some .C
  | .call _ _ _ => some .C
  | .callr _ _ _ => some .C
  | .ret _ _ => some .C
  | .loop _ _ _ _ => some .C
  | .loopr _ _ _ _ => some .C
  | .lbrk _ _ => some .C
  | .endThread _ => some .C
  | .yield _ _ => some .C
  | .await _ _ _ _ _ => some .C
  | .joinNew _ => some .C
  | .join _ _ _ _ => some .C
  | .leave _ => some .C
  | .bar _ => some .C
  | .fuse _ _ _ => some .C
  | .decouple _ => some .C
  | .rejoin _ _ => some .C
  | .suspend _ _ _ => some .C
  | .suspendComplete _ _ => none
  | .resume _ _ _ => some .C
  | .hamperLoadComplete _ _ => none
  | .hcopy _ _ _ _ => some .C
  | .hcopyComplete _ _ => none
  | .hdiscard _ _ _ => some .C
  | .trap _ _ _ => some .C
  | .gate _ _ => some .C
  | .rft _ _ => some .C
  | .rftN _ => some .C
  | .snapst _ _ _ _ => some .C
  | .snaprel _ => some .C
  | .step _ _ _ _ => some .C
  | .add _ _ _ _ _ => some .S
  | .addi _ _ _ _ _ => some .S
  | .sub _ _ _ _ _ => some .S
  | .mul _ _ _ _ _ => some .S
  | .mulh _ _ _ _ => some .S
  | .mulhu _ _ _ _ => some .S
  | .div _ _ _ _ => some .S
  | .divu _ _ _ _ => some .S
  | .rem _ _ _ _ => some .S
  | .remu _ _ _ _ => some .S
  | .andS _ _ _ _ => some .S
  | .andi _ _ _ _ _ => some .S
  | .orS _ _ _ _ => some .S
  | .ori _ _ _ _ _ => some .S
  | .xorS _ _ _ _ => some .S
  | .xori _ _ _ _ _ => some .S
  | .andn _ _ _ _ => some .S
  | .shl _ _ _ _ => some .S
  | .shli _ _ _ _ _ => some .S
  | .shr _ _ _ _ => some .S
  | .shri _ _ _ _ _ => some .S
  | .sar _ _ _ _ => some .S
  | .sari _ _ _ _ _ => some .S
  | .cmp _ _ _ _ _ => some .S
  | .cmpi _ _ _ _ _ _ => some .S
  | .sel _ _ _ _ _ _ => some .S
  | .min _ _ _ _ => some .S
  | .max _ _ _ _ => some .S
  | .minu _ _ _ _ => some .S
  | .maxu _ _ _ _ => some .S
  | .clz _ _ _ => some .S
  | .popc _ _ _ => some .S
  | .bfx _ _ _ _ _ => some .S
  | .bfi _ _ _ _ _ => some .S
  | .li _ _ _ _ => some .S
  | .lih _ _ _ _ => some .S
  | .lea _ _ _ _ _ => some .S
  | .addpc _ _ _ _ => some .S
  | .gop _ _ _ _ _ => some .S
  | .movs _ _ _ _ => some .S
  | .movz _ _ _ _ => some .S
  | .fadd _ _ _ _ _ => some .S
  | .fsub _ _ _ _ _ => some .S
  | .fmul _ _ _ _ _ => some .S
  | .fma _ _ _ _ _ => some .S
  | .fmin _ _ _ _ => some .S
  | .fmax _ _ _ _ => some .S
  | .fcmp _ _ _ _ _ => some .S
  | .fcvti _ _ _ _ _ => some .S
  | .fcvtf _ _ _ _ _ => some .S
  | .pairWord _ _ _ _ _ _ _ _ _ => some .P
  | .vadd _ _ _ _ _ _ _ _ => some .V
  | .vsub _ _ _ _ _ _ _ _ => some .V
  | .vmul _ _ _ _ _ _ _ => some .V
  | .vmulh _ _ _ _ _ _ _ _ => some .V
  | .vmad _ _ _ _ _ _ _ _ => some .V
  | .vand _ _ _ _ _ _ _ => some .V
  | .vor _ _ _ _ _ _ _ => some .V
  | .vxor _ _ _ _ _ _ _ => some .V
  | .vshl _ _ _ _ _ _ _ => some .V
  | .vshr _ _ _ _ _ _ _ => some .V
  | .vsar _ _ _ _ _ _ _ => some .V
  | .vmin _ _ _ _ _ _ _ _ => some .V
  | .vmax _ _ _ _ _ _ _ _ => some .V
  | .vabs _ _ _ _ _ _ => some .V
  | .vcmp _ _ _ _ _ _ _ => some .V
  | .vsel _ _ _ _ _ _ => some .V
  | .vfadd _ _ _ _ _ _ _ => some .V
  | .vfsub _ _ _ _ _ _ _ => some .V
  | .vfmul _ _ _ _ _ _ _ => some .V
  | .vfma _ _ _ _ _ _ _ => some .V
  | .vfmin _ _ _ _ _ _ => some .V
  | .vfmax _ _ _ _ _ _ => some .V
  | .vfcmp _ _ _ _ _ _ _ => some .V
  | .vrcp _ _ _ _ _ => some .V
  | .vrsq _ _ _ _ _ => some .V
  | .vexp2 _ _ _ _ _ => some .V
  | .vlog2 _ _ _ _ _ => some .V
  | .vcvt _ _ _ _ _ _ => some .V
  | .vcvtWide _ _ _ _ _ => some .V
  | .vqnt _ _ _ _ _ _ _ => some .V
  | .vdqnt _ _ _ _ _ _ _ => some .V
  | .vbsc _ _ _ _ _ => some .V
  | .vperm _ _ _ _ _ _ => some .V
  | .vbcast _ _ _ _ _ _ _ => some .V
  | .vslide _ _ _ _ _ => some .V
  | .vred _ _ _ _ _ => some .V
  | .vscan _ _ _ _ _ _ => some .V
  | .viota _ _ _ _ _ => some .V
  | .vmop _ _ _ _ _ => some .V
  | .vmpopPopc _ _ _ => some .V
  | .vmpopFfs _ _ _ => some .V
  | .vmpopGet _ _ _ => some .V
  | .vmpopSet _ _ _ => some .V
  | .vrng _ _ _ _ _ => some .V
  | .vprune _ _ _ _ _ _ => some .V
  | .vnm _ _ _ _ _ _ => some .V
  | .vmovs _ _ _ _ _ => some .V
  | .vins _ _ _ _ => some .V
  | .ldB _ _ _ _ _ => some .L
  | .ldH _ _ _ _ _ => some .L
  | .ldW _ _ _ _ _ => some .L
  | .ldD _ _ _ _ _ => some .L
  | .lduB _ _ _ _ _ => some .L
  | .lduH _ _ _ _ _ => some .L
  | .lduW _ _ _ _ _ => some .L
  | .stB _ _ _ _ _ => some .L
  | .stH _ _ _ _ _ => some .L
  | .stW _ _ _ _ _ => some .L
  | .stD _ _ _ _ _ => some .L
  | .ldv _ _ _ _ _ => some .L
  | .stv _ _ _ _ _ => some .L
  | .ldvs _ _ _ _ _ _ => some .L
  | .stvs _ _ _ _ _ => some .L
  | .ldvx _ _ _ _ _ _ => some .L
  | .stvx _ _ _ _ _ => some .L
  | .lda _ _ _ _ _ _ => some .L
  | .sta _ _ _ _ _ _ => some .L
  | .amo _ _ _ _ _ _ _ => some .L
  | .cas _ _ _ _ _ _ _ => some .L
  | .vamo _ _ _ _ _ _ => some .L
  | .fence _ _ _ => some .L
  | .tld _ _ _ _ _ _ _ => some .L
  | .tlda _ _ _ _ _ _ => some .L
  | .tst _ _ _ _ _ _ _ => some .L
  | .mcall _ _ _ _ _ _ _ => some .M
  | .mcallEngineStart _ => none
  | .mcallRetire _ => none
  | .routineStop _ _ => none
  | .msetp _ _ _ _ _ => some .M
  | .mgetp _ _ _ => some .M
  | .mclaim _ _ _ _ => some .M
  | .mrel _ _ _ => some .M
  | .mzero _ _ _ _ _ _ _ => some .M
  | .mnorm _ _ _ _ _ _ => some .M
  | .mrdrow _ _ _ _ _ _ => some .M
  | .mwrrow _ _ _ _ _ => some .M
  | .mcell _ _ _ _ => some .M
  | .mcellPre _ _ => some .M
  | .mflow _ _ _ _ _ _ => some .M
  | .mrout _ _ _ _ _ => some .M
  | .configCommandApply _ => none
  | .mtid _ _ _ => some .M
  | .mtidr _ _ _ _ _ => some .M
  | .mdup _ _ _ _ _ _ => some .M
  | .tableCommandApply _ => none
  | .mcode _ _ _ _ => some .M
  | .mcodeFixed _ => some .M
  | .codeTableFlip _ => none
  | .mpred _ _ _ _ _ => some .M
  | .mwait _ _ => some .M
  | .ysort _ _ _ _ _ _ => some .Y
  | .ymerge _ _ _ _ _ _ _ => some .Y
  | .ytopkInit _ _ _ _ => some .Y
  | .ytopkAdd _ _ _ _ => some .Y
  | .ytopkOut _ _ _ _ => some .Y
  | .ysums _ _ _ _ _ _ _ => some .Y
  | .yrank _ _ _ _ _ => some .Y
  | .ybkt _ _ _ _ _ _ => some .Y
  | .ycmpr _ _ _ _ => some .Y
  | .yexpd _ _ _ _ _ => some .Y
  | .yhist _ _ _ _ _ _ => some .Y
  | .yargx _ _ _ _ _ _ => some .Y
  | .cstage _ _ _ _ => some .X
  | .carrive _ _ _ => some .X
  | .csched _ _ => some .X
  | .rpush _ _ _ _ => some .X
  | .rpushOpen _ _ _ _ => some .X
  | .rpushClose _ _ _ => some .X
  | .rpop _ _ _ _ => some .X
  | .rstat _ _ _ _ => some .X
  | .ringDeliveryLand _ _ => none
  | .mqsend _ _ _ _ => some .X
  | .mqrecv _ _ _ _ _ => some .X
  | .mqstat _ _ _ => some .X
  | .queueEntryApply _ => none
  | .queueCreditReturn _ => none
  | .tsubmit _ _ _ => some .X
  | .tsubmitRetry _ => none
  | .tsignal _ _ => some .X
  | .launch _ _ _ => some .X
  | .launchNb _ _ _ _ => some .X
  | .pendingLaunchDrain _ => none
  | .fred _ _ _ _ => some .X
  | .sladd _ _ _ _ => some .X
  | .slsend _ _ => some .X
  | .slrecv _ _ _ => some .X
  | .bbmark _ _ _ _ _ => some .X
  | .pwrq _ _ _ => some .X
  | .pwrres _ _ _ => some .X
  | .pwrresRel _ _ => some .X
  | .tlbi _ _ _ _ => some .X
  | .tlbiComplete _ => none
  | .selft _ _ _ _ => some .X
  | .emptyBundle _ => none
  | .lineSkip => none
  | .lineFill _ => none
  | .asyncTrap _ => none
  | .yieldExpiry _ => none
  | .threadFree _ => none
  | .taskPlacement _ => none
  | .priorityAgeing _ _ => none
  | .reservationTaken _ => none
  | .readyQueueEntry _ => none
  | .stopLands _ => none
  | .stopRequestTimeout _ => none
  | .killRequeue _ _ => none
  | .checkpointWrite _ _ => none
  | .copyChunk _ _ => none
  | .copyEntryComplete _ _ => none
  | .copyEntryStop _ _ => none
  | .translationWalk _ => none
  | .packageReset _ => none
  | .attestationQuote _ => none
  | .keySlotWrite _ _ => none
  | .packetIngress _ => none
  | .hubRegisterWrite _ => none
  | .grantWrite _ => none
  | .energySample _ => none
  | .energyInterval => none
  | .selfTestVerdict _ _ => none
  | .blackBoxClear _ _ _ => none
  | .fatalHardwareEvent _ _ _ _ => none
  | .flitCrcFail _ _ => none
  | .laneOutOfService _ _ => none
  | .linkDown _ => none
  | .packetRoute _ _ => none
  | .escapeMove _ => none
  | .fabricPacketSend _ => none
  | .creditRequest _ => none
  | .creditGrant _ _ => none
  | .creditExpiry _ => none
  | .ackReceive _ _ => none
  | .writePlace _ => none
  | .fredApply _ => none
  | .tokenPlace _ => none
  | .flushComplete => none
  | .coordinatorGo => none
  | .harvestApply => none
  | .boundaryComplete => none
  | .stepSkew => none
  | .declareFailed _ => none
  | .failedNotice _ => none
  | .fixedLatencyWriteLands _ => none
  | .accessPerformsAtHome _ => none
  | .matrixCommandEngineApply _ => none
  | .dieEngineCommandApply _ => none
  | .thermalWarning _ _ => none
  | .systemCoreLineWriteback _ _ => none
  | .decodeCheckTrap _ _ _ => none

/-- How many bits of its word an instruction's row fixes: the row of a bare word is the one that fixes the most. -/
def fixedBits (i : Instr) : Nat :=
  match i with
  | .nop _ => 28
  | .br _ _ _ => 7
  | .jmp _ _ => 23
  | .call _ _ _ => 7
  | .callr _ _ _ => 18
  | .ret _ _ => 23
  | .loop _ _ _ _ => 6
  | .loopr _ _ _ _ => 13
  | .lbrk _ _ => 23
  | .endThread _ => 28
  | .yield _ _ => 23
  | .await _ _ _ _ _ => 6
  | .joinNew _ => 28
  | .join _ _ _ _ => 11
  | .leave _ => 28
  | .bar _ => 28
  | .fuse _ _ _ => 21
  | .decouple _ => 28
  | .rejoin _ _ => 23
  | .suspend _ _ _ => 18
  | .suspendComplete _ _ => 0
  | .resume _ _ _ => 19
  | .hamperLoadComplete _ _ => 0
  | .hcopy _ _ _ _ => 13
  | .hcopyComplete _ _ => 0
  | .hdiscard _ _ _ => 18
  | .trap _ _ _ => 11
  | .gate _ _ => 20
  | .rft _ _ => 23
  | .rftN _ => 28
  | .snapst _ _ _ _ => 11
  | .snaprel _ => 28
  | .step _ _ _ _ => 17
  | .add _ _ _ _ _ => 12
  | .addi _ _ _ _ _ => 6
  | .sub _ _ _ _ _ => 12
  | .mul _ _ _ _ _ => 12
  | .mulh _ _ _ _ => 13
  | .mulhu _ _ _ _ => 13
  | .div _ _ _ _ => 13
  | .divu _ _ _ _ => 13
  | .rem _ _ _ _ => 13
  | .remu _ _ _ _ => 13
  | .andS _ _ _ _ => 13
  | .andi _ _ _ _ _ => 6
  | .orS _ _ _ _ => 13
  | .ori _ _ _ _ _ => 6
  | .xorS _ _ _ _ => 13
  | .xori _ _ _ _ _ => 6
  | .andn _ _ _ _ => 13
  | .shl _ _ _ _ => 13
  | .shli _ _ _ _ _ => 6
  | .shr _ _ _ _ => 13
  | .shri _ _ _ _ _ => 6
  | .sar _ _ _ _ => 13
  | .sari _ _ _ _ _ => 6
  | .cmp _ _ _ _ _ => 10
  | .cmpi _ _ _ _ _ _ => 6
  | .sel _ _ _ _ _ _ => 9
  | .min _ _ _ _ => 13
  | .max _ _ _ _ => 13
  | .minu _ _ _ _ => 13
  | .maxu _ _ _ _ => 13
  | .clz _ _ _ => 18
  | .popc _ _ _ => 18
  | .bfx _ _ _ _ _ => 6
  | .bfi _ _ _ _ _ => 6
  | .li _ _ _ _ => 6
  | .lih _ _ _ _ => 6
  | .lea _ _ _ _ _ => 6
  | .addpc _ _ _ _ => 6
  | .gop _ _ _ _ _ => 6
  | .movs _ _ _ _ => 6
  | .movz _ _ _ _ => 6
  | .fadd _ _ _ _ _ => 9
  | .fsub _ _ _ _ _ => 9
  | .fmul _ _ _ _ _ => 9
  | .fma _ _ _ _ _ => 9
  | .fmin _ _ _ _ => 13
  | .fmax _ _ _ _ => 13
  | .fcmp _ _ _ _ _ => 10
  | .fcvti _ _ _ _ _ => 13
  | .fcvtf _ _ _ _ _ => 13
  | .pairWord _ _ _ _ _ _ _ _ _ => 2
  | .vadd _ _ _ _ _ _ _ _ => 6
  | .vsub _ _ _ _ _ _ _ _ => 6
  | .vmul _ _ _ _ _ _ _ => 8
  | .vmulh _ _ _ _ _ _ _ _ => 7
  | .vmad _ _ _ _ _ _ _ _ => 6
  | .vand _ _ _ _ _ _ _ => 8
  | .vor _ _ _ _ _ _ _ => 8
  | .vxor _ _ _ _ _ _ _ => 8
  | .vshl _ _ _ _ _ _ _ => 8
  | .vshr _ _ _ _ _ _ _ => 8
  | .vsar _ _ _ _ _ _ _ => 8
  | .vmin _ _ _ _ _ _ _ _ => 7
  | .vmax _ _ _ _ _ _ _ _ => 7
  | .vabs _ _ _ _ _ _ => 13
  | .vcmp _ _ _ _ _ _ _ => 6
  | .vsel _ _ _ _ _ _ => 9
  | .vfadd _ _ _ _ _ _ _ => 6
  | .vfsub _ _ _ _ _ _ _ => 6
  | .vfmul _ _ _ _ _ _ _ => 6
  | .vfma _ _ _ _ _ _ _ => 6
  | .vfmin _ _ _ _ _ _ => 9
  | .vfmax _ _ _ _ _ _ => 9
  | .vfcmp _ _ _ _ _ _ _ => 6
  | .vrcp _ _ _ _ _ => 14
  | .vrsq _ _ _ _ _ => 14
  | .vexp2 _ _ _ _ _ => 14
  | .vlog2 _ _ _ _ _ => 14
  | .vcvt _ _ _ _ _ _ => 6
  | .vcvtWide _ _ _ _ _ => 9
  | .vqnt _ _ _ _ _ _ _ => 6
  | .vdqnt _ _ _ _ _ _ _ => 6
  | .vbsc _ _ _ _ _ => 14
  | .vperm _ _ _ _ _ _ => 9
  | .vbcast _ _ _ _ _ _ _ => 8
  | .vslide _ _ _ _ _ => 11
  | .vred _ _ _ _ _ => 11
  | .vscan _ _ _ _ _ _ => 10
  | .viota _ _ _ _ _ => 6
  | .vmop _ _ _ _ _ => 6
  | .vmpopPopc _ _ _ => 18
  | .vmpopFfs _ _ _ => 18
  | .vmpopGet _ _ _ => 18
  | .vmpopSet _ _ _ => 18
  | .vrng _ _ _ _ _ => 17
  | .vprune _ _ _ _ _ _ => 9
  | .vnm _ _ _ _ _ _ => 10
  | .vmovs _ _ _ _ _ => 12
  | .vins _ _ _ _ => 13
  | .ldB _ _ _ _ _ => 6
  | .ldH _ _ _ _ _ => 6
  | .ldW _ _ _ _ _ => 6
  | .ldD _ _ _ _ _ => 6
  | .lduB _ _ _ _ _ => 6
  | .lduH _ _ _ _ _ => 6
  | .lduW _ _ _ _ _ => 6
  | .stB _ _ _ _ _ => 6
  | .stH _ _ _ _ _ => 6
  | .stW _ _ _ _ _ => 6
  | .stD _ _ _ _ _ => 6
  | .ldv _ _ _ _ _ => 6
  | .stv _ _ _ _ _ => 6
  | .ldvs _ _ _ _ _ _ => 9
  | .stvs _ _ _ _ _ => 10
  | .ldvx _ _ _ _ _ _ => 9
  | .stvx _ _ _ _ _ => 10
  | .lda _ _ _ _ _ _ => 11
  | .sta _ _ _ _ _ _ => 11
  | .amo _ _ _ _ _ _ _ => 7
  | .cas _ _ _ _ _ _ _ => 6
  | .vamo _ _ _ _ _ _ => 6
  | .fence _ _ _ => 22
  | .tld _ _ _ _ _ _ _ => 10
  | .tlda _ _ _ _ _ _ => 10
  | .tst _ _ _ _ _ _ _ => 7
  | .mcall _ _ _ _ _ _ _ => 9
  | .mcallEngineStart _ => 0
  | .mcallRetire _ => 0
  | .routineStop _ _ => 0
  | .msetp _ _ _ _ _ => 15
  | .mgetp _ _ _ => 18
  | .mclaim _ _ _ _ => 17
  | .mrel _ _ _ => 22
  | .mzero _ _ _ _ _ _ _ => 10
  | .mnorm _ _ _ _ _ _ => 12
  | .mrdrow _ _ _ _ _ _ => 9
  | .mwrrow _ _ _ _ _ => 12
  | .mcell _ _ _ _ => 11
  | .mcellPre _ _ => 23
  | .mflow _ _ _ _ _ _ => 8
  | .mrout _ _ _ _ _ => 6
  | .configCommandApply _ => 0
  | .mtid _ _ _ => 17
  | .mtidr _ _ _ _ _ => 14
  | .mdup _ _ _ _ _ _ => 10
  | .tableCommandApply _ => 0
  | .mcode _ _ _ _ => 11
  | .mcodeFixed _ => 28
  | .codeTableFlip _ => 0
  | .mpred _ _ _ _ _ => 6
  | .mwait _ _ => 22
  | .ysort _ _ _ _ _ _ => 10
  | .ymerge _ _ _ _ _ _ _ => 9
  | .ytopkInit _ _ _ _ => 20
  | .ytopkAdd _ _ _ _ => 15
  | .ytopkOut _ _ _ _ => 13
  | .ysums _ _ _ _ _ _ _ => 7
  | .yrank _ _ _ _ _ => 15
  | .ybkt _ _ _ _ _ _ => 8
  | .ycmpr _ _ _ _ => 13
  | .yexpd _ _ _ _ _ => 12
  | .yhist _ _ _ _ _ _ => 9
  | .yargx _ _ _ _ _ _ => 12
  | .cstage _ _ _ _ => 11
  | .carrive _ _ _ => 18
  | .csched _ _ => 23
  | .rpush _ _ _ _ => 13
  | .rpushOpen _ _ _ _ => 13
  | .rpushClose _ _ _ => 18
  | .rpop _ _ _ _ => 15
  | .rstat _ _ _ _ => 15
  | .ringDeliveryLand _ _ => 0
  | .mqsend _ _ _ _ => 13
  | .mqrecv _ _ _ _ _ => 14
  | .mqstat _ _ _ => 18
  | .queueEntryApply _ => 0
  | .queueCreditReturn _ => 0
  | .tsubmit _ _ _ => 18
  | .tsubmitRetry _ => 0
  | .tsignal _ _ => 23
  | .launch _ _ _ => 22
  | .launchNb _ _ _ _ => 17
  | .pendingLaunchDrain _ => 0
  | .fred _ _ _ _ => 13
  | .sladd _ _ _ _ => 13
  | .slsend _ _ => 23
  | .slrecv _ _ _ => 18
  | .bbmark _ _ _ _ _ => 6
  | .pwrq _ _ _ => 20
  | .pwrres _ _ _ => 18
  | .pwrresRel _ _ => 23
  | .tlbi _ _ _ _ => 13
  | .tlbiComplete _ => 0
  | .selft _ _ _ _ => 17
  | .emptyBundle _ => 0
  | .lineSkip => 0
  | .lineFill _ => 0
  | .asyncTrap _ => 0
  | .yieldExpiry _ => 0
  | .threadFree _ => 0
  | .taskPlacement _ => 0
  | .priorityAgeing _ _ => 0
  | .reservationTaken _ => 0
  | .readyQueueEntry _ => 0
  | .stopLands _ => 0
  | .stopRequestTimeout _ => 0
  | .killRequeue _ _ => 0
  | .checkpointWrite _ _ => 0
  | .copyChunk _ _ => 0
  | .copyEntryComplete _ _ => 0
  | .copyEntryStop _ _ => 0
  | .translationWalk _ => 0
  | .packageReset _ => 0
  | .attestationQuote _ => 0
  | .keySlotWrite _ _ => 0
  | .packetIngress _ => 0
  | .hubRegisterWrite _ => 0
  | .grantWrite _ => 0
  | .energySample _ => 0
  | .energyInterval => 0
  | .selfTestVerdict _ _ => 0
  | .blackBoxClear _ _ _ => 0
  | .fatalHardwareEvent _ _ _ _ => 0
  | .flitCrcFail _ _ => 0
  | .laneOutOfService _ _ => 0
  | .linkDown _ => 0
  | .packetRoute _ _ => 0
  | .escapeMove _ => 0
  | .fabricPacketSend _ => 0
  | .creditRequest _ => 0
  | .creditGrant _ _ => 0
  | .creditExpiry _ => 0
  | .ackReceive _ _ => 0
  | .writePlace _ => 0
  | .fredApply _ => 0
  | .tokenPlace _ => 0
  | .flushComplete => 0
  | .coordinatorGo => 0
  | .harvestApply => 0
  | .boundaryComplete => 0
  | .stepSkew => 0
  | .declareFailed _ => 0
  | .failedNotice _ => 0
  | .fixedLatencyWriteLands _ => 0
  | .accessPerformsAtHome _ => 0
  | .matrixCommandEngineApply _ => 0
  | .dieEngineCommandApply _ => 0
  | .thermalWarning _ _ => 0
  | .systemCoreLineWriteback _ _ => 0
  | .decodeCheckTrap _ _ _ => 0

/-- The engine of Table 1-7 that owns an opcode of a slot, and the slot's default engine for an unassigned one
(R48). -/
def engineOf (sl : Slot) (op : Nat) : Nat :=
  match sl with
  | .C => if 0x0F ≤ op ∧ op ≤ 0x11 then 5 else if 0x12 ≤ op ∧ op ≤ 0x15 then 6 else if op = 0x1B then 7 else 0
  | .S => 0
  | .P => 0
  | .V => 1
  | .Y => 2
  | .L => 3
  | .M => 4
  | .X =>
    if op ≤ 0x02 then 6 else if op ≤ 0x08 then 5 else if op ≤ 0x0B then 6 else if op ≤ 0x0F then 7
    else if op ≤ 0x14 then 6 else 5

/-- Why a bundle is rejected. -/
inductive DecodeError where
  /-- ILLEGAL_BUNDLE with its sub-code of Table 2-2. -/
  | illegalBundle (sub : Nat)
  /-- ILLEGAL_OP: the presence bit of the slot, whether the vector half of a pair word, and the opcode (R48). -/
  | illegalOp (slotBit : Nat) (vectorHalf : Bool) (opcode engine : Nat)
  deriving DecidableEq, Repr

/-- $estat of a decode rejection (R37, R48). -/
def DecodeError.estat : DecodeError → DWord
  | .illegalBundle sub => BitVec.ofNat 64 sub
  | .illegalOp b v op _ => BitVec.ofNat 64 (b + (if v then 8 else 0) + op * 16)

/-- $engine of a decode rejection (R37, R48). -/
def DecodeError.engine : DecodeError → BitVec 3
  | .illegalBundle _ => 0
  | .illegalOp _ _ _ e => BitVec.ofNat 3 e

/-- The trap cause of a decode rejection. -/
def DecodeError.cause : DecodeError → Cause
  | .illegalBundle _ => .illegalBundle
  | .illegalOp _ _ _ _ => .illegalOp

/-- A decoded bundle: its length in bytes, its stall count and its operations in presence order. The line-skip and
the empty bundle are the one operation of theirs (R35, R36). -/
structure Bundle where
  len : Nat
  stall : Nat
  ops : List Instr
  deriving DecidableEq, Repr

/-- Little-endian value of a list of bytes (R3). -/
def leNat : List Byte → Nat
  | [] => 0
  | b :: bs => b.toNat + 256 * leNat bs

/-- The words a header announces, in their order: C, then S and V or the pair word, then L, M, Y, X (R33). -/
def headerSlots (h : Nat) : List Slot :=
  let pair := seg h 12 1 = 1
  (if seg h 0 1 = 1 then [.C] else []) ++
  (if pair then [.P] else (if seg h 1 1 = 1 then [.S] else []) ++ (if seg h 2 1 = 1 then [.V] else [])) ++
  (if seg h 3 1 = 1 then [.L] else []) ++ (if seg h 4 1 = 1 then [.M] else []) ++
  (if seg h 5 1 = 1 then [.Y] else []) ++ (if seg h 6 1 = 1 then [.X] else [])

/-- The byte length of the bundle a header opens (R33), P counted as packing only where S and V are present. -/
def headerLen (h : Nat) : Nat :=
  let n := seg h 0 1 + seg h 1 1 + seg h 2 1 + seg h 3 1 + seg h 4 1 + seg h 5 1 + seg h 6 1 + seg h 7 1
  2 + 4 * (if seg h 12 1 = 1 ∧ seg h 1 2 = 3 then n - 1 else n)

/-- The header checks of Table 2-2 that need no slot word, smallest sub-code first (R36, R37); `off` is the header's
offset in its 64-byte line. -/
def headerError (h off : Nat) : Option Nat :=
  let pres := seg h 0 7
  let stall := seg h 8 4
  if seg h 13 2 ≠ 0 then some 0x01
  else if seg h 15 1 = 1 ∧ pres ≠ 0 then some 0x02
  else if seg h 15 1 = 1 ∧ stall ≠ 0 then some 0x03
  else if off + headerLen h > 64 then some 0x04
  else if seg h 12 1 = 1 ∧ seg h 1 2 ≠ 3 then some 0x05
  else none

/-- The slot words of a bundle after its header, each with its slot. -/
def slotWords : List Slot → Nat → List (Slot × Nat)
  | [], _ => []
  | sl :: rest, n => (sl, n % 2 ^ 32) :: slotWords rest (n / 2 ^ 32)

/-- How many of the words request extension. -/
def countRequests (ws : List (Slot × Nat)) : Nat :=
  (ws.filter (fun p => requestsK p.1 p.2)).length

/-- R48: the record of a slot word that has no legal reading. -/
def slotError (sl : Slot) (w : Nat) : DecodeError :=
  match sl with
  | .P =>
    if seg w 14 1 = 1 then .illegalOp 1 false (seg w 24 4) 0 else .illegalOp 1 true (seg w 10 4) 1
  | _ => .illegalOp sl.bit false (w / 2 ^ 26) (engineOf sl (w / 2 ^ 26))

/-- Decodes the words in order; the first that has no legal reading is the one recorded (R49). -/
def decodeWords (k : Option Word) : List (Slot × Nat) → Except DecodeError (List Instr)
  | [] => .ok []
  | (sl, w) :: rest =>
    match decodeSlot sl w (if requestsK sl w then k else none) with
    | none => .error (slotError sl w)
    | some i =>
      match decodeWords k rest with
      | .error e => .error e
      | .ok is => .ok (i :: is)

/-- The bundle whose header is the low halfword of `n`, at offset `off` of its fetch line; `n` holds the bytes from the
header to the end of the line, little-endian. -/
def decodeNat (n off : Nat) : Except DecodeError Bundle :=
  let h := n % 2 ^ 16
  if h = 0x8000 then .ok ⟨64 - off, 0, [.lineSkip]⟩
  else
    match headerError h off with
    | some sub => .error (.illegalBundle sub)
    | none =>
      let sls := headerSlots h
      let body := n / 2 ^ 16
      let ws := slotWords sls body
      let hasK := seg h 7 1 = 1
      let k : Word := BitVec.ofNat 32 (body / 2 ^ (32 * sls.length))
      let reqs := countRequests ws
      if hasK ∧ reqs = 0 then .error (.illegalBundle 0x06)
      else if reqs ≠ 0 ∧ ¬ hasK then .error (.illegalBundle 0x07)
      else if 1 < reqs then .error (.illegalBundle 0x08)
      else if ws = [] then .ok ⟨2, seg h 8 4, [.emptyBundle (fld h 8 4)]⟩
      else
        match decodeWords (if hasK then some k else none) ws with
        | .error e => .error e
        | .ok is => .ok ⟨headerLen h, seg h 8 4, is⟩

/-- The bundle at the start of the given bytes, which run from the header to the end of its 64-byte fetch line: total
on any bytes, and rejecting by name. -/
def decodeBundle (bs : List Byte) : Except DecodeError Bundle := decodeNat (leNat bs) (64 - bs.length)

/-- `n` bytes of a number, little-endian (R3). -/
def natBytes : Nat → Nat → List Byte
  | 0, _ => []
  | k + 1, n => BitVec.ofNat 8 n :: natBytes k (n / 256)

/-- The header of a bundle that holds one word of a slot, with or without K (Table 2-1). -/
def oneSlotHeader (sl : Slot) (k : Bool) : Nat :=
  (match sl with
    | .P => 0x1006
    | _ => 2 ^ sl.bit) + (if k then 0x80 else 0)

/-- The bytes of a one-slot bundle: header, word and, where the word requests extension, the K word `k`. -/
def oneSlotBytes (sl : Slot) (w : Nat) (k : Word) : List Byte :=
  let rk := requestsK sl w
  natBytes 2 (oneSlotHeader sl rk) ++ natBytes 4 w ++ (if rk then natBytes 4 k.toNat else [])

/-- A fetch line that starts with the given bytes and is 0 after them. -/
def lineOf (bs : List Byte) : List Byte := (bs ++ List.replicate (64 - bs.length) 0)

/-- The reading of a bare 32-bit word in one slot, through the whole decoder. -/
def decodeInSlot (w : Nat) (sl : Slot) : Option Instr :=
  match decodeBundle (lineOf (oneSlotBytes sl w 0)) with
  | .ok b => b.ops.head?
  | .error _ => none

/-- The slot whose row fixes the most bits of the word, among the slots that have a legal reading of it. -/
def bestSlot (w : Nat) : List Slot → Option (Slot × Instr)
  | [] => none
  | sl :: rest =>
    match decodeInSlot w sl, bestSlot w rest with
    | some i, some (s2, j) => if fixedBits j ≤ fixedBits i then some (sl, i) else some (s2, j)
    | some i, none => some (sl, i)
    | none, r => r

/-- Every word kind, in presence order. -/
def allSlots : List Slot := [.C, .S, .V, .L, .M, .Y, .X, .P]

/-- The instruction the decoder reads from a bare table word. A word does not name its slot (the header does, R33), so
it is laid out in a one-slot bundle of each slot and the reading whose row fixes the most bits is taken. -/
def decodeTableWord (nbits w : Nat) : Option Instr :=
  if nbits ≤ 32 then (bestSlot (w % 2 ^ 32) allSlots).map (·.2) else none

end Sys2Proof
end

