-- ==== Sys2Proof/Machine/Table.lean ====
section
/-! DEFINITION. Finite maps from numbers as sorted lists of pairs: the register files, the tables of the machine, and
(in canonical form, without entries equal to the default) its memory. -/

namespace Sys2Proof

/-- A finite map from numbers; a key that is not listed reads as a default the reader names. -/
abbrev Table (α : Type) := List (Nat × α)

/-- The entry of key `k`, or `d`. -/
def tget {α : Type} (d : α) : Table α → Nat → α
  | [], _ => d
  | (j, w) :: t, k => if j = k then w else tget d t k

/-- The entry of key `k` becomes `v`. -/
def tset {α : Type} : Table α → Nat → α → Table α
  | [], k, v => [(k, v)]
  | (j, w) :: t, k, v =>
    if j = k then (k, v) :: t else if k < j then (k, v) :: (j, w) :: t else (j, w) :: tset t k v

/-- The entry of key `k` is removed. -/
def tdel {α : Type} : Table α → Nat → Table α
  | [], _ => []
  | (j, w) :: t, k => if j = k then tdel t k else (j, w) :: tdel t k

/-- The entry of key `k` becomes `v`, and an entry equal to the default is not listed: the canonical form is kept. -/
def tput {α : Type} [DecidableEq α] (d : α) : Table α → Nat → α → Table α
  | [], k, v => if v = d then [] else [(k, v)]
  | (j, w) :: t, k, v =>
    if j = k then (if v = d then t else (k, v) :: t)
    else if k < j then (if v = d then (j, w) :: t else (k, v) :: (j, w) :: t)
    else (j, w) :: tput d t k v

/-- Keys strictly rising from `lo` on, and no entry equal to the default. -/
def tcanon {α : Type} [DecidableEq α] (d : α) : Nat → Table α → Bool
  | _, [] => true
  | lo, (j, w) :: t => decide (lo ≤ j) && decide (w ≠ d) && tcanon d (j + 1) t

/-- The element of a list at a position, or `d`. -/
def nth {α : Type} (d : α) (l : List α) (i : Nat) : α := (l[i]?).getD d

/-- The element at a position becomes `v`, where the list has it. -/
def setNth {α : Type} : List α → Nat → α → List α
  | [], _, _ => []
  | _ :: t, 0, v => v :: t
  | x :: t, i + 1, v => x :: setNth t i v

/-- The element at a position is removed. -/
def delNth {α : Type} : List α → Nat → List α
  | [], _ => []
  | _ :: t, 0 => t
  | x :: t, i + 1 => x :: delNth t i

end Sys2Proof
end

