-- ==== Sys2Proof/Machine/State.lean ====
section
/-! DEFINITION. State: everything the spec gives the machine, as plain data, and State.reset. INVENTORY.md lists each field
with the rule that names it. -/

namespace Sys2Proof.Machine

open Sys2Proof

/-- No step of this model ends in a fault: every exception the spec describes is taken, and every access to an address that does
not exist traps (R297). Closed and empty; nobody raises it. -/
inductive Fault where
  deriving DecidableEq, Repr

/-- Why a step is refused. -/
inductive Refusal where
  /-- The instruction has no meaning yet; raised by an arm of exec alone. Safe: the run stops. -/
  | notModelled (mnemonic : String)
  deriving DecidableEq, Repr

/-! ## Threads -/

/-- The states of Table 1-6 (R19). -/
inductive TState where
  | free | ready | running | waiting | trapped | suspended | retiring
  deriving DecidableEq, Repr, Inhabited

/-- A loop-stack entry (R10). -/
structure LoopEntry where
  start : VAddr
  last : VAddr
  remaining : Word
  index : Word
  deriving DecidableEq, Repr, Inhabited

/-- A destination of a register write: the files of Table 1-2, the system registers of Table 1-3 by number, the flags of
$fstat alone, or none. -/
inductive Dest where
  | s (r : Nat) | v (r : Nat) | g (r : Nat) | m (r : Nat) | q (r : Nat) | p (r : Nat)
  | n
  | sys (num : Nat)
  | gid
  | none
  deriving DecidableEq, Repr, Inhabited

/-- A fixed-latency write in flight (R51): its value, the cycle at whose end it lands, the bundle's issue number and the writing slot's presence bit (R53). -/
structure Flight where
  dest : Dest
  val : Nat
  land : Nat
  ord : Nat
  slot : Nat
  deriving DecidableEq, Repr, Inhabited

/-- One record of the pipeline snapshot (Table 10-1). -/
structure SnapRec where
  dest : Dest
  val : Nat
  rem : Nat
  slot : Nat
  ord : Nat
  deriving DecidableEq, Repr, Inhabited

/-- The interlock of a destination (R52): the command whose result it waits for, that command's bundle and slot (R53), and whether the result is
discarded when it comes, because the record of a trap has taken its place (R258). -/
structure Lock where
  dest : Dest
  id : Nat
  ord : Nat
  slot : Nat
  void : Bool
  deriving DecidableEq, Repr, Inhabited

/-- The trap record a cause fills (R247); `xpc` is `none` for the bundle in issue. -/
structure TrapInfo where
  cause : Cause
  engine : BitVec 3
  estat : DWord
  badaddr : VAddr
  cmdidx : Word
  deriving DecidableEq, Repr, Inhabited

/-- The register files of Table 1-2 and the seed and window registers, each by number; what is not listed reads 0. -/
structure Regs where
  s : Table DWord
  v : Table VecReg
  g : Table Bool
  m : Table Word
  q : Table DWord
  p : Table DWord
  seed : Table DWord
  win : Table DWord
  allow : Table DWord
  deriving DecidableEq, Repr, Inhabited

/-- The control registers of Table 1-3. -/
structure Ctl where
  round : BitVec 3
  fstat : BitVec 6
  stallchk : BitVec 1
  cmask : BitVec 2
  cause : BitVec 8
  cmdidx : Word
  engine : BitVec 3
  estat : DWord
  badaddr : VAddr
  xpc : VAddr
  deriving DecidableEq, Repr, Inhabited

/-- The return level and state recorded at trap entry (R248). -/
structure Ret where
  atF : Bool
  st : TState
  deriving DecidableEq, Repr, Inhabited

/-- An entry of the select state (R148). -/
structure SelEntry where
  key : Word
  index : Word
  arrival : DWord
  deriving DecidableEq, Repr, Inhabited

/-- The select state of Table 6-2; LEFT is the accumulator of R157 with its four flags. -/
structure Sel where
  isOpen : Bool
  kt : BitVec 2
  d : Bool
  k : BitVec 7
  count : BitVec 7
  seq : DWord
  entries : List SelEntry
  left : BitVec 320
  leftNan : Bool
  leftSnan : Bool
  leftPinf : Bool
  leftNinf : Bool
  deriving DecidableEq, Repr, Inhabited

/-- An entry of an inbound queue (Table 12-1); `asker` is the thread an atomic answers. -/
structure QEntry where
  kind : Nat
  src : Nat
  ln : Nat
  seq : Nat
  tag : Word
  addr : Nat
  bmask : BitVec 128
  data : Nat
  asker : Nat
  size : Nat
  aop : Nat
  operand : Nat
  operand2 : Nat
  place : Nat
  /-- The cycle from which the queue unit can process it; and, for a message, the cycle it became ready. -/
  ready : Nat
  marked : Option Nat
  deriving DecidableEq, Repr, Inhabited

/-- Where a byte access goes (Table 14-1): its physical place as a number (HBM below 2^39; die memory, scratchpads and firmware
stores above), the kind of its home, whether it is checked (R317), and the encryption key id of its leaf (R374). -/
inductive Home where
  | own | peer (core : Nat) | window (k : Nat) | die (same : Bool) | hbm
  deriving DecidableEq, Repr, Inhabited

structure Place where
  key : Nat
  home : Home
  checked : Bool
  keyId : Nat
  deriving DecidableEq, Repr, Inhabited

/-- Where a command comes from: its thread and placement number, its bundle's address and issue number. -/
structure Origin where
  tid : Nat
  born : Nat
  pc : VAddr
  bundle : Nat
  deriving DecidableEq, Repr, Inhabited

/-- The data movement of an access that has passed its checks and waits to perform at its home (R308). A lane is its
number, its place and, for a write, its word. -/
inductive MemOp where
  | ld (dest : Dest) (pl : Place) (size : Nat) (sgn : Bool)
  | st (pl : Place) (size : Nat) (val : Nat)
  | ldv (d : Nat) (lanes : List (Nat × Place)) (base : VecReg)
  /-- Lanes of a vector store; `blocks`: a store to a peer makes one entry a 128-byte block (STV), not one a lane (R270). -/
  | stv (lanes : List (Place × Word)) (blocks : Bool)
  | amo (dest : Dest) (pl : Place) (size op : Nat) (operand : Nat)
  | cas (dest : Dest) (pl : Place) (size : Nat) (expected new : Nat)
  /-- Lanes of a VAMO that are still to be applied, with the flags of those that have been. -/
  | vamo (d : Nat) (lanes : List (Nat × Place × Word)) (op : Nat) (base : VecReg) (flags : BitVec 6)
  /-- An atomic sent to a peer core, and its bytes there: it waits for the queue unit's answer, the old value with the operation's flags. -/
  | peerAmo (dest : Dest) (pl : Place) (size : Nat) (answer : Option (Nat × BitVec 6))
  | peerVamo (d : Nat) (lanes : List (Nat × Place × Word)) (op : Nat) (base : VecReg) (flags : BitVec 6) (lane : Nat) (answer : Option (Nat × BitVec 6))
  | fence
  /-- A CARRIVE on its way to its object's bank (R352). -/
  | carrive (key : Nat) (n : Int)
  /-- TLD: slot, entry, T, row0 and k0, and the places and lengths it reads. -/
  | tld (slot entry : Nat) (t : Bool) (row0 k0 : Nat) (spans : List (Nat × Nat))
  /-- TLDA: tile, format, first offset and stride. -/
  | tlda (tile af base stride : Nat)
  /-- TST: tile, format, first offset, stride, the rounding mode's code and the values drawn at issue. -/
  | tst (tile af base stride mode : Nat) (rnd : List Nat)
  /-- The read of an image by the matrix command `cmd` of the thread: offset and length. -/
  | image (cmd base len : Nat)
  /-- The store of a snapshot image (R251). -/
  | snapst (base : Nat) (bytes : List Byte)
  /-- A message that has taken its credits and is appended behind the earlier entries of its core to core `to` (R273, R276). -/
  | msg (tgt : Nat) (e : QEntry)
  /-- The source read of RPUSH: ring, slot and push number, source, length, target offset and consumer cores. -/
  | rpush (ring slot : Nat) (src len dst mask : Nat) (rel : List Nat)
  /-- The payload read of a SLADD. -/
  | sladd (cmd : Nat) (base len : Nat)
  /-- Packets of a window store or FRED that leave through the hub in their order: where they come from and, packet by packet, the window's number
  (16 for FRED) and the first byte's address. -/
  | packets (org : Origin) (pkts : List (Nat × VAddr × Packet))
  /-- The packets have been handed to the hub and not all have been sent. -/
  | sending
  deriving DecidableEq, Repr, Inhabited

/-- An entry of a thread's load/store queue (R169): the identifier of its interlocks, the cycle of issue and that from which it can perform, the
bundle's issue number, whether it is a synchronisation operation, and the level its release reaches (0 for none). -/
structure Access where
  id : Nat
  at_ : Nat
  ready : Nat
  ord : Nat
  op : MemOp
  sync : Bool
  relLevel : Nat
  deriving DecidableEq, Repr, Inhabited

/-- The registered wait of a thread in WAITING at a C-slot instruction (R19, R24). -/
inductive Wait where
  | yield (until_ : Nat)
  | await (key : Nat) (v : BitVec 16)
  | bar
  | rejoin (d : Nat)
  /-- A participant held because another has trapped (R290). -/
  | lockstep
  /-- A STEP's status register and interlock, T, and its boundary (R411, R417). -/
  | step (d id : Nat) (t : Bool) (n : Nat)
  deriving DecidableEq, Repr, Inhabited

/-- A wait that a bundle at F has made while the thread already waits below it, or is TRAPPED (R19, R24): of its C slot, and of its command; and the place of
that bundle. -/
structure Pause where
  wait : Option Wait
  xwait : Option Nat
  back : VAddr × List LoopEntry
  deriving DecidableEq, Repr, Inhabited

/-- Who asked a thread to stop (R261): the SUSPEND of a thread, a checkpoint, or a kill; when; and whether it has stopped. -/
inductive StopKind where
  | suspend (issuer : Nat) | checkpoint | kill
  deriving DecidableEq, Repr, Inhabited

structure StopReq where
  kind : StopKind
  at_ : Nat
  landed : Bool
  deriving DecidableEq, Repr, Inhabited

/-- A command in a thread's matrix queue (R220): its number, its kind with operands read at issue, and its progress. -/
inductive MatOp where
  /-- A predicated command whose bit was 0 (R225). -/
  | nop
  /-- MCALL: routine, the p0-p7 snapshot, gather index, rounding mode, the levels it reads and their bank (R226, R83). -/
  | call (routine : Nat) (p : List DWord) (gather : Option VecReg) (mode : Nat) (levels : List (BitVec 16)) (bank : Nat)
  | zero (tile : Nat) (i : Bool) (idn : Nat) (e : BitVec 16)
  | norm (tile : Nat) (t : Bool) (target : BitVec 16)
  | rdrow (tile row v : Nat) (af mode : Nat) (rnd : List Nat)
  /-- An MRDROW that has started, with the row it read and its flags (R231). -/
  | rowRead (v : Nat) (row : VecReg) (flags : BitVec 6)
  | wrrow (tile row : Nat) (af : Nat) (data : VecReg)
  | cell (preset : Nat)
  | flow (pattern : Nat) (d : Bool)
  | rout (start : Nat)
  | tid (entry : Nat) (atF : Bool)
  | dup (entry : Nat) (halfwords : DWord) (ndup : DWord) (q : Nat) (atF : Bool)
  | mcode (fixed : Bool)
  | rel (tiles : Bool) (mask : DWord)
  deriving DecidableEq, Repr, Inhabited

/-- Progress of a queued matrix command. -/
inductive MatSt where
  | queued
  /-- Running until a cycle. -/
  | running (until_ : Nat)
  /-- Stopped by a fault at the head of a halted queue; `steps` tile steps are done (R242). -/
  | failed (steps : Nat)
  /-- Restarted by RFT from tile step `steps`, when it stands at the head (R243). -/
  | restart (steps : Nat)
  /-- A part of a gang that has ended and waits for the others (R292). -/
  | done
  deriving DecidableEq, Repr, Inhabited

/-- The command's number and the identifier of its interlocks; its issue order on the core; where it comes from and its cycle; and its
footprint (slots in bits 0-63, tiles above): `wide` until the cycle its walk ends, then `foot` (R221). -/
structure MatCmd where
  num : Nat
  id : Nat
  op : MatOp
  image : Option (List Byte)
  st : MatSt
  ord : Nat
  org : Origin
  issued : Nat
  wide : Nat
  foot : Nat
  walkEnd : Nat
  /-- A part of a ganged MCALL: its participants' threads and its cycle of issue (R292). -/
  gang : Option (List Nat × Nat)
  deriving DecidableEq, Repr, Inhabited

/-- A thread's matrix queue: commands in order, the number of the next, and the halted bit (R220, R222). -/
structure Mat where
  queue : List MatCmd
  next : Nat
  halted : Bool
  deriving DecidableEq, Repr, Inhabited

/-- A pending asynchronous fault (R246): its record, the cycle of its report, and where its command comes from. -/
structure AFault where
  info : TrapInfo
  cycle : Nat
  org : Origin
  deriving DecidableEq, Repr, Inhabited

/-- A leaf in a translation buffer (R303): domain, page address and size, and the leaf's fields (Table 14-2b). -/
structure Leaf where
  dom : BitVec 6
  va : Nat
  size : Nat
  pa : Nat
  r : Bool
  w : Bool
  x : Bool
  chk : Bool
  key : BitVec 6
  stamp : Nat
  deriving DecidableEq, Repr, Inhabited

/-- What a walk ends with: a leaf and its level, or a fault's sub-code and level (R301). -/
inductive WalkEnd where
  | leaf (l : Leaf) (level : Nat)
  | fault (sub level : Nat)
  deriving DecidableEq, Repr, Inhabited

/-- A translation that a requester has asked for: domain, virtual page of 64 KiB, and the walk's result once it has come (R303). -/
structure PageWalk where
  dom : BitVec 6
  page : Nat
  res : Option WalkEnd
  deriving DecidableEq, Repr, Inhabited

/-- The requesters of walks beside the threads' bundles (R302): the streams of a thread's calls, a copy, the entry a task reads next, the checkpoint of a task, and
the scheduler for a ready task, by its SEQ. -/
inductive Asker where
  | stream (tid : Nat)
  | copy (num : Nat)
  | entry (task : Nat)
  | checkpoint (task : Nat)
  | ready (seq : Nat)
  deriving DecidableEq, Repr, Inhabited

/-- What a sequencer holds of its thread (R10 to R28). -/
structure Thread where
  st : TState
  pc : VAddr
  loops : List LoopEntry
  regs : Regs
  ctl : Ctl
  atF : Bool
  dom : BitVec 6
  grp : Option (Nat × Nat)
  flight : List Flight
  locks : List Lock
  /-- Interlocked results that have come and wait to land, behind earlier fixed-latency writes of their registers (R52). -/
  due : List Flight
  /-- Records of snapshots the thread has not returned from, each with the issue number of the last bundle before its trap (R52, R248). -/
  snapped : List (SnapRec × Nat)
  /-- Records restored by an RFT that land once the thread may issue again (R56, R258). -/
  parked : List SnapRec
  ready : Nat
  wait : Option Wait
  /-- The TSUBMIT or blocking LAUNCH it waits for, by its command (R330, R334). -/
  xwait : Option Nat
  /-- The place of the waiting bundle: its address and the loops before it (R261, R359). -/
  back : Option (VAddr × List LoopEntry)
  /-- The waits made at F in handlers it has not returned from, the latest first; and whether it stands at the latest. -/
  inner : List Pause
  paused : Bool
  /-- For each trap it has not returned from, the latest first, the issue number of its last bundle before (R52, R258). -/
  traps : List Nat
  /-- The last bundle left a loop's end: whether by a back edge, and the body start (R261, R262). -/
  edge : Option (Bool × VAddr)
  wdone : Bool
  ret : Ret
  faults : List AFault
  stop : Option StopReq
  /-- A second request, which waits until the first has come to nothing: of a SUSPEND, and of a checkpoint or a kill (R341, R358). -/
  stop2 : Option StopReq
  /-- In SUSPENDED, the state it held (R358). -/
  held : TState
  ord : Nat
  born : Nat
  nextId : Nat
  memQ : List Access
  mat : Mat
  sel : Sel
  rel : List Nat
  seen : List (Nat × Nat)
  /-- The walks that its next bundle has asked for (R301, R303). -/
  walked : List PageWalk
  /-- The line of code it waits for (R21), and the cycle from which its fill can complete. -/
  want : Option (Nat × Nat)
  task : Option Nat
  member : Nat
  /-- The reload table it has registered with the resident firmware (R294). -/
  reload : Option Nat
  /-- Resident firmware has delivered a cause to its domain's handler, which has not yet come back by GATE 0 (R260). -/
  delivered : Bool
  /-- Resident firmware holds it for the verdict on its operand memory, with its snapshot stored (R295). -/
  mend : Bool
  deriving DecidableEq, Repr, Inhabited
/-! ## Cores -/

/-- An accumulator element (R86): its mantissa and its flag, 0 none, 1 NaN, 2 PINF, 3 NINF. -/
structure Elem where
  m : Int
  flag : Nat
  deriving DecidableEq, Repr, Inhabited

/-- An accumulator tile (R86): exponent, integer mode, and the elements by 32 x row + column; what is not listed is 0. -/
structure Tile where
  e : Int
  int : Bool
  el : Table Elem
  deriving DecidableEq, Repr, Inhabited

/-- The pipeline snapshot of a core (R250). -/
structure Snap where
  tid : Nat
  /-- The issue number of the thread's last bundle before the trap. -/
  ord : Nat
  dom : BitVec 6
  retF : Bool
  retSt : TState
  wdone : Bool
  cause : BitVec 8
  cmdidx : Word
  engine : BitVec 3
  estat : DWord
  badaddr : VAddr
  xpc : VAddr
  recs : List SnapRec
  deriving DecidableEq, Repr, Inhabited

/-- An entry of the range scoreboard (R168): offsets lo to hi - 1 of the scratchpad, and whose transfer it is. -/
structure RangeEnt where
  lo : Nat
  hi : Nat
  owner : Nat
  deriving DecidableEq, Repr, Inhabited

/-- A line of the instruction store (R21): its tag, its bytes and the cycle of its last fetch. -/
structure Line where
  dom : BitVec 6
  va : Nat
  data : BitVec 512
  stamp : Nat
  deriving DecidableEq, Repr, Inhabited

/-- An inbound queue: its occupied entries, oldest first, and the arrivals counted (R270, R278). -/
structure InQ where
  ents : List QEntry
  tail : Nat
  deriving DecidableEq, Repr, Inhabited

/-- A credit on its way back to a sending core (R272): the cycle it arrives, the target core and whether a message's. -/
structure CredBack where
  at_ : Nat
  target : Nat
  msg : Bool
  deriving DecidableEq, Repr, Inhabited

/-- The cell program of a core (R191, R192, R201): its image words, the initial c0 and c1, its domain if loaded from memory, and whether it
is valid. -/
structure CellProg where
  words : List Word
  c0i : Int
  c1i : Int
  dom : Option (BitVec 6)
  valid : Bool
  deriving DecidableEq, Repr, Inhabited

/-- The flow state of a core (R208): the pattern, and the descriptor's doublewords. -/
structure Flow where
  pattern : Nat
  desc : List DWord
  deriving DecidableEq, Repr, Inhabited

/-- One entry of the routine table (R209). -/
structure RoutEnt where
  v : Bool
  start : Nat
  len : Nat
  dom : BitVec 6
  deriving DecidableEq, Repr, Inhabited

/-- The code table (R82, R83): the entries of two banks and their domains, and the active bank; a loaded bank that waits to
become active. -/
structure CodeTab where
  bank0 : List (BitVec 16)
  bank1 : List (BitVec 16)
  dom0 : Option (BitVec 6)
  dom1 : Option (BitVec 6)
  active : Nat
  flip : Bool
  deriving DecidableEq, Repr, Inhabited

/-- A routine in execution: its thread and command, the accumulators and cell values before it (what a stop restores, R242), the flags it raises
when it retires, the fault it is to report, the cycle its feeding begins, those in which its tile steps are complete, and the
translations of its streams. -/
structure Run where
  tid : Nat
  cmd : Nat
  tiles : Table Tile
  c0 : Table Elem
  c1 : Table Elem
  h : Table Elem
  first : Nat
  flags : BitVec 6
  fault : Option TrapInfo
  stopped : Option Nat
  t0 : Nat
  ends : List Nat
  leaves : List PageWalk
  deriving DecidableEq, Repr, Inhabited

/-- A core: operand memory and array (R170, R86), claims (R218), tables (R172, R191, R209, R82), snapshot (R250), instruction
store and translation buffer (R21, R303), inbound queues and credits (R270, R272), and the issue order (R29). -/
structure Array where
  slots : Table Nat
  tiles : Table Tile
  slotOwn : Table Nat
  tileOwn : Table Nat
  entries : Table (BitVec 512)
  entryDom : Table (BitVec 6)
  cell : CellProg
  c0 : Table Elem
  c1 : Table Elem
  h : Table Elem
  flow : Flow
  rstore : Table DWord
  rtab : Table RoutEnt
  code : CodeTab
  runs : List Run
  /-- The cycle in which the last K-group of the last MCALL enters cell (0, 0) (R228). -/
  feedEnd : Nat
  ord : Nat
  deriving DecidableEq, Repr, Inhabited

structure Core where
  arr : Array
  snap : Option Snap
  halted : Bool
  inService : Bool
  ranges : List RangeEnt
  istore : List Line
  tlb : List Leaf
  inq : Table InQ
  cred : Table Nat
  mcred : Table Nat
  back : List CredBack
  served : Nat
  last : Nat
  tried : Nat
  /-- The cycle from which the sequencers that a fused participant kept from issuing may issue again (R291). -/
  openAt : Nat
  deriving DecidableEq, Repr, Inhabited

/-! ## Clusters -/

/-- A ring delivery in flight (R282): the slot, the consumer it goes to, the target offset, the bytes, when it lands once it
has its range entry, and the producer with its release counters at the push (R285). -/
structure Delivery where
  ring : Nat
  slot : Nat
  core : Nat
  dst : Nat
  bytes : List Byte
  lands : Option Nat
  producer : Nat
  rel : List Nat
  deriving DecidableEq, Repr, Inhabited

/-- A slot of a ring: cores still to pop, cores landed, push number (Table 12-5). -/
structure RingSlot where
  ms : BitVec 8
  land : BitVec 8
  ps : Nat
  deriving DecidableEq, Repr, Inhabited

/-- A sheaf ring (Table 12-5). -/
structure Ring where
  st : Nat
  owner : Nat
  pcore : Nat
  base : Nat
  sz : Nat
  ns : Nat
  cm : BitVec 8
  pushes : Nat
  opens : Nat
  slots : Table RingSlot
  deriving DecidableEq, Repr, Inhabited

/-- A fused set (R287, R288): its range, its participants' threads by core, whether it has formed and runs in lock step, the inputs
of the wired-AND line by core, PF, the
cores whose participant has left lock step by a trap (R290), those that have joined since lock step began and run on by themselves until their REJOIN
(R287), and the cycle from which the line is tested (R291). -/
structure FuseSet where
  f : Nat
  n : Nat
  parts : Table Nat
  formed : Bool
  lock : Bool
  high : Table Bool
  pf : BitVec 8
  out : List Nat
  solo : List Nat
  retest : Nat
  deriving DecidableEq, Repr, Inhabited

/-- A cluster: its domain (R268), rings and fused sets, and the cores that have left a set by a halt with the partners to be told (R293). -/
structure Cluster where
  dom : BitVec 6
  rings : Table Ring
  deliveries : List Delivery
  sets : List FuseSet
  lost : List (Nat × List Nat)
  deriving DecidableEq, Repr, Inhabited

/-! ## Conflict tags -/

/-- What a pop of a ring slot orders before the slot's later deliveries (R285): the ring, the push popped and the number of slots; and the units that the
record's thread has written and read since. -/
structure Popped where
  ring : Nat
  push : Nat
  slots : Nat
  wr : BitVec 16
  rd : BitVec 16
  deriving DecidableEq, Repr, Inhabited

/-- A record of a tag (R316): the thread, the units it wrote and read, AT, and the release counters with their wrap counts. -/
structure Rec where
  tid : Nat
  wr : BitVec 16
  rd : BitVec 16
  atom : Bool
  cnt : List Nat
  /-- A ring delivery: the ring and its push (R285). -/
  ring : Option (Nat × Nat)
  /-- A pop of the slot that followed accesses of the record (R285). -/
  popped : Option Popped
  deriving DecidableEq, Repr, Inhabited

/-- The tag of a granule (R316). -/
structure Tag where
  writer : Option Rec
  readers : List Rec
  lr : Bool
  la : Bool
  lw : BitVec 16
  /-- The bytes of its tag frame that data has overwritten since the tag was last written (R317). -/
  lost : BitVec 8
  deriving DecidableEq, Repr, Inhabited

/-! ## Dies -/

/-- An entry of the black-box record (Table 18-7). -/
structure BBEntry where
  time : Nat
  event : BitVec 16
  unit : BitVec 24
  tid : BitVec 11
  dom : BitVec 6
  data0 : DWord
  data1 : DWord
  deriving DecidableEq, Repr, Inhabited

/-- The black-box record of a die (R391): its entries, oldest first, the frozen bit and the count of dropped entries. -/
structure BlackBox where
  ents : List BBEntry
  frozen : Bool
  drops : Word
  deriving DecidableEq, Repr, Inhabited

/-- An entry of the group table (R25): the domain, the member threads by member index, and the members that have arrived at the
barrier (R113). -/
structure Group where
  dom : BitVec 6
  members : Table Nat
  arrived : List Nat
  deriving DecidableEq, Repr, Inhabited

/-- How a ready task starts: from its record; from the hamper of its checkpoint, which may lie in the die's pool; or from the hamper of a RESUME,
with the die, domain and level of the thread that reaches it, the address, and the GEN that was swapped to RESUMING (R357). -/
inductive Start where
  | fresh
  | checkpointed (pool : Bool)
  | resume (die : Nat) (hamper : Nat) (via : BitVec 6) (atF : Bool) (gen : Nat)
  deriving DecidableEq, Repr, Inhabited

/-- A declared range (Table 15-1): first granule, granules, R and W. -/
structure DepRange where
  lo : Nat
  len : Nat
  r : Bool
  w : Bool
  deriving DecidableEq, Repr, Inhabited

/-- A task in a ready queue (R327): its record's place (0 for a RESUME), domain, priority, enqueue number, the cycle from which its wait counts, the
times it has aged, the cycle of its first refusal, how it starts, and its declared ranges as read at submission (R326). -/
structure ReadyTask where
  record : Nat
  dom : BitVec 6
  prio : Nat
  seq : Nat
  since : Nat
  aged : Nat
  refused : Option Nat
  start : Start
  ranges : List DepRange
  deriving DecidableEq, Repr, Inhabited

/-- A submitted task with JOIN > 0 (R325): its record, domain and declared ranges. -/
structure Blocked where
  record : Nat
  dom : BitVec 6
  ranges : List DepRange
  deriving DecidableEq, Repr, Inhabited

/-- A task in the pending-launch store (R334): the record's place, where its LAUNCH comes from (`none` for the network), and the domain. -/
structure PendLaunch where
  record : Nat
  org : Option Origin
  dom : BitVec 6
  deriving DecidableEq, Repr, Inhabited

/-- A task's entries in the address-matching table (R330): its record, domain, ranges and waiters. -/
structure Dep where
  record : Nat
  dom : BitVec 6
  ranges : List DepRange
  waiters : List Nat
  deriving DecidableEq, Repr, Inhabited

/-- A task whose threads are placed (R337): its record (`none` for a RESUME), its threads and their member indices, and the copy state of R344, with whether an
entry's translation is waited for; how its threads are being stopped, for which task (by die and SEQ), and whether a kill has taken effect; ENERGY, EST and the energy hold of R384; the cycles it had waited (R336); the
loop form's trip count and kernel body (R262) and the back edges of R340; and its declared ranges (R326). -/
structure RunTask where
  id : Nat
  record : Option Nat
  dom : BitVec 6
  prio : Nat
  seq : Nat
  aged : Nat
  threads : List Nat
  mems : List Nat
  freed : List Nat
  placed : Nat
  energy : Nat
  est : Nat
  hold : Nat
  excl : Bool
  sched : DWord
  stage : Nat
  next : Nat
  fetching : Bool
  waited : Nat
  stopping : Option StopKind
  onBehalf : Option (Nat × Nat)
  killed : Bool
  draining : Bool
  form : Bool
  trip : Nat
  edges : Nat
  kernLo : Nat
  kernHi : Nat
  ranges : List DepRange
  deriving DecidableEq, Repr, Inhabited

/-- A started copy entry (R344, R346): its task, index and address, its eight doublewords (or the sub-code and level of the fault that its reading
met), the members of its task with their sequencers, the domain, the chunks done, the cycle its chunk in flight is done (none while it waits for a
channel), and whether it is detached (R358); `num` tells the die's entries apart. -/
structure Copy where
  num : Nat
  task : Nat
  index : Nat
  addr : Nat
  words : List DWord
  unread : Option Nat
  members : List (Nat × Nat)
  dom : BitVec 6
  chunks : Nat
  busy : Option Nat
  detached : Bool
  deriving DecidableEq, Repr, Inhabited

/-- A command that has reached the die engine (R331). -/
inductive DieOp where
  /-- A submission, its status register, and the cycle it issues again once refused (R330). -/
  | submit (record d : Nat) (retry : Option Nat)
  /-- A launch, on the other die, and the guard of the non-blocking form (R334). -/
  | launch (record : Nat) (od : Bool) (nb : Option Nat)
  | cstage (t : Nat)
  | csched (w : DWord)
  /-- SLADD's operands, and its payload once it has been read (R423); its guard. -/
  | sladd (a b : DWord) (d : Nat) (payload : Option (List Byte))
  /-- SLSEND: its status register and the STEPNUM of its issue (R424, R429). -/
  | slsend (d stepno : Nat)
  /-- SLRECV: its status register and selector (R426). -/
  | slrecv (d sel : Nat)
  /-- TSIGNAL, with the domain of its thread (R332). -/
  | signal (record : Nat) (dom : BitVec 6)
  /-- A command that has failed: it stands at the head of its thread's halted queue of this engine until its thread returns from the trap. The thread's commands
  up to bundle `last` wait behind it (R246). -/
  | halted (last : Nat)
  deriving DecidableEq, Repr, Inhabited

structure DieCmd where
  org : Origin
  id : Nat
  at_ : Nat
  op : DieOp
  deriving DecidableEq, Repr, Inhabited

/-- A SUSPEND or a scheduler checkpoint in progress (R342, R358): its issuer (a SUSPEND's thread, whose status register is `d`), or the task
checkpointed; the hamper's address in the domain, or in the pool (physical); its carry set; the translations it has pinned; the members in order; when it began; and, once its
header is written, the bytes written, the cycle of the last, and whether an error has poisoned it. -/
structure Susp where
  issuer : Option Nat
  d : Nat
  lock : Nat
  task : Nat
  dom : BitVec 6
  va : Nat
  pool : Bool
  size : Nat
  carry : List DWord
  pins : List PageWalk
  members : List Nat
  start : Nat
  writing : Option (Nat × Nat × Bool)
  deriving DecidableEq, Repr, Inhabited

/-- A hamper whose members are placed and being loaded (R360): the die and domain that reach it, its address in the domain or the pool, the GEN of its swap to RESUMING
(R357), its record if it is a checkpoint, the translations of its header, and the cycle it is loaded. -/
structure HLoad where
  die : Nat
  dom : BitVec 6
  va : Nat
  pool : Bool
  pins : List PageWalk
  gen : Nat
  record : Nat
  until_ : Nat
  deriving DecidableEq, Repr, Inhabited

/-- A hamper copy in progress (R361): where it comes from, its status register and interlock, source, destination and bytes, the translations of
the destination it has pinned, the source's header as read at the start, and the cycle of its last byte. -/
structure HCopy where
  org : Origin
  d : Nat
  lock : Nat
  dom : BitVec 6
  atF : Bool
  src : Nat
  dst : Nat
  used : Nat
  pins : List PageWalk
  /-- The translations of the source. -/
  from_ : List PageWalk
  header : List Byte
  /-- STATE, GEN and SELF at the destination when the copy began (R357). -/
  seen : Nat × Nat × Nat
  until_ : Nat
  deriving DecidableEq, Repr, Inhabited

/-- The reservation of a die (R338, R340): the task that holds it, by SEQ. -/
structure Resv where
  seq : Nat
  deriving DecidableEq, Repr, Inhabited

/-- The checkpoint pool of a die (R342): its base in HBM, its bytes, and the ranges in use. -/
structure Pool where
  base : Nat
  bytes : Nat
  used : List (Nat × Nat)
  deriving DecidableEq, Repr, Inhabited

/-- A swap of a hamper's header that waits for the end of its cycle (R357): where it comes from, whether at F, the hamper's address, the STATE, GEN and SELF
that it expects there, the translations by which it reaches it, and what it does; a RESUME with its priority, an HDISCARD with its status register and interlock, an
HCOPY with the new header too. -/
inductive SwapOp where
  | resume (prio : Nat)
  | discard (d lock : Nat)
  | copy (d lock : Nat) (header : List Byte)
  deriving DecidableEq, Repr, Inhabited

structure HSwap where
  org : Origin
  dom : BitVec 6
  atF : Bool
  va : Nat
  st : Nat
  gen : Nat
  self : Nat
  pins : List PageWalk
  op : SwapOp
  deriving DecidableEq, Repr, Inhabited

/-- A table walk in progress (R303): domain, virtual page of 64 KiB, the cores that have asked for it, the cycle it started, and whether a TLBI that covers the
page has begun since. -/
structure Walk where
  dom : BitVec 6
  page : Nat
  cores : List Nat
  start : Nat
  cancelled : Bool
  deriving DecidableEq, Repr, Inhabited

structure Die where
  own : Table (BitVec 8)
  fwLock : Bool
  groups : Table Group
  /-- Threads whose LEAVE of this cycle is applied at its end, after its JOINs (R27). -/
  leaves : List Nat
  ready : List ReadyTask
  overflow : List ReadyTask
  seq : Nat
  blocked : List Blocked
  pending : List PendLaunch
  drained : Nat
  deps : List Dep
  running : List RunTask
  resv : Option Resv
  draint : Nat
  pool : Pool
  copies : List Copy
  /-- Copy entries started. -/
  copyNum : Nat
  cmds : List DieCmd
  susp : List Susp
  hloads : List HLoad
  hcopies : List HCopy
  tlb : List Leaf
  walks : List Walk
  /-- The walks that the die's engines have asked for, each until the access it is for has been made (R303). -/
  walked : List (Asker × PageWalk)
  swaps : List HSwap
  bb : BlackBox
  /-- Markers of this cycle: the thread and its entry (R391, R392). -/
  marks : List (Nat × BBEntry)
  /-- Rows lost by step (R425). -/
  disp : Table Nat
  deriving DecidableEq, Repr, Inhabited

/-! ## The hub -/

/-- A key slot (R375): whether it holds a key, its owner domain, and how often it has been written. -/
structure KeySlot where
  loaded : Bool
  owner : BitVec 6
  version : Nat
  deriving DecidableEq, Repr, Inhabited

/-- The pod context (Table 19-3); a device MEMBERS does not list is a member when it is the own one. -/
structure Pod where
  dom : BitVec 6
  members : Table Bool
  failed : List Nat
  pcount : Nat
  gback : Nat
  skewlim : Nat
  rq : Nat
  thr : Nat
  dcb0 : Nat
  dcb1 : Nat
  stepnum : Nat
  deriving DecidableEq, Repr, Inhabited

/-- A packet handed to the hub and not yet sent, or sent and not yet acknowledged (R406, R412, R419): where it comes from (`none` for a token row),
the identifier of its store, the window (16 for none), the address of its first byte; for a forwarded row, the packet to acknowledge once
it is acknowledged itself, by source and SEQ (R425); and the packet. -/
structure OutPkt where
  org : Option Origin
  id : Nat
  win : Nat
  va : VAddr
  ack : Option (Nat × Nat)
  pkt : Packet
  deriving DecidableEq, Repr, Inhabited

/-- A packet at a router's output (R397 to R401): the port, the virtual channel and, in VC 3, its hop class (0 elsewhere); the input port whose buffer holds it
(33 for the device's own packets) and which buffer of that port (0 to 2 by channel, 3 and 4 the escape buffers); and the cycle since which it stands at the
head of its queue. -/
structure QPkt where
  port : Nat
  vc : Nat
  cls : Nat
  inp : Nat
  buf : Nat
  head : Option Nat
  pkt : Packet
  deriving DecidableEq, Repr, Inhabited

/-- An entry of the granary (R408): its step, its packet, and for a token its die, its local expert (64 for the spill area) and its slot (R425). -/
structure GranEnt where
  step : Nat
  pkt : Packet
  tok : Option (Nat × Nat × Nat)
  deriving DecidableEq, Repr, Inhabited

/-- The boundary protocol of the device (Table 19-6a): the oldest step not applied, its state (0 RUN, 1 FLUSHING, 2 FLUSHED, 3 APPLYING), the
arrivals of that step and of the next with the largest capacity they supplied (R409, R411), the capacity and the overflow of that step and the overflow of the
next (R410), GO as received (FAIL, the failed id, SKEW), the conflicts of the application with the first of them, whether an entry was rejected (R413), and
the cycle in which the device enters the boundary without arrivals (PCOUNT = 0, R411), and the devices newly failed when it sent FLUSHED (R415). -/
structure Bnd where
  n : Nat
  st : Nat
  arrivals : Nat
  supplied : Nat
  arrivalsNext : Nat
  suppliedNext : Nat
  cap : Nat
  excess : Nat
  overNext : Nat
  go : Option (Bool × Nat × Bool)
  conflicts : Nat
  first : Option Nat
  rejected : Bool
  enterAt : Option Nat
  told : List Nat
  deriving DecidableEq, Repr, Inhabited

/-- The fabric side of the hub (R396 to R429): the next SEQ; credits held toward each device with the cycle of each, and the requests outstanding
(R402); requests received, in arrival order, and credits granted; the receive queue; packets sent and not acknowledged; router outputs; the granary; routing
tables with the ports beside the minimal one and the devices a link leads to, lanes out of service and links down; the flits sent and not credited, by port and buffer; the retry buffers, and
the flits that are still to be replayed, by port (R396); replays by lane, link errors and escape events by port; the boundary; the coordinator's FLUSHED by step and
device, the cycle of its first, whether the skew limit has passed; devices newly failed; the GO that it received last, by boundary and content; and writes of DOM and MEMBERS that wait for a boundary. -/
structure Fab where
  seq : Nat
  credits : Table (List Nat)
  asked : List Nat
  waiting : List Nat
  given : Table (List Nat)
  rxq : List Packet
  sent : List OutPkt
  queues : List QPkt
  gran : List GranEnt
  routes : Table Nat
  others : Table (List Nat)
  direct : List Nat
  lanesOut : Table Nat
  down : List Nat
  flits : Table Nat
  retry : Table (List Nat)
  replay : Table Nat
  replays : Table Nat
  errors : Nat
  escapes : Table Nat
  bnd : Bnd
  flushed : List (Nat × Nat)
  held : Option Nat
  skewed : Bool
  newFailed : List Nat
  lastGo : Option (Nat × BitVec 32)
  later : List HubWrite
  deriving DecidableEq, Repr, Inhabited

/-- The targeted self-tests of a unit (R388, R390): 0 idle, 1 running, 2 waiting for its turn; the cycle it began; whether a spare serves for a memory bank during it; its place in the order of errors; further errors;
the cycles of its transient verdicts; its last verdict (Table 18-6); and the SELFTs that wait: thread, placement number, interlock, register. -/
structure UnitTest where
  phase : Nat
  began : Nat
  moved : Bool
  order : Nat
  errors : Nat
  verdicts : List Nat
  last : Nat
  waiters : List (Nat × Nat × Nat × Nat)
  deriving DecidableEq, Repr, Inhabited

/-- The energy account (Table 18-3): G in force and G written, CARRY, BAL, the remainder of a sample in nJ, RESV and EXP by domain, the energy of
the interval so far and of the last, INTV, and whether BAL has been below 0 in this interval. -/
structure Energy where
  g : Nat
  gNext : Nat
  carry : Nat
  bal : Int
  rem : Nat
  resv : Table Nat
  exp : Table Nat
  used : Nat
  spent : Nat
  intv : Nat
  below : Bool
  /-- Samples taken (R383). -/
  samples : Nat
  deriving DecidableEq, Repr, Inhabited

/-- A command to the account (R386, R387): its thread and placement number, its interlock and register, and an item to read, an amount to
reserve, or the release. -/
inductive AcctOp where
  | item (i : Nat)
  | reserve (x : Nat)
  | release
  deriving DecidableEq, Repr, Inhabited

structure AcctCmd where
  tid : Nat
  born : Nat
  id : Nat
  d : Nat
  op : AcctOp
  deriving DecidableEq, Repr, Inhabited

/-- A TLBI in progress (R393): its thread and placement number, interlock and guard, the range and domains it covers, and its start. -/
structure Tlbi where
  tid : Nat
  born : Nat
  id : Nat
  d : Nat
  lo : Nat
  hi : Nat
  dom : Option (BitVec 6)
  start : Nat
  deriving DecidableEq, Repr, Inhabited

/-- An attestation quote (R378). -/
structure Quote where
  version : Nat
  serial : DWord
  nonce : BitVec 256
  measurement : BitVec 256
  owners : List (Nat × BitVec 6)
  count : Nat
  /-- The one-time keys that sign it: that of the top tree, which signs the second-level tree, and that of the second-level tree. -/
  topKey : Nat
  leafKey : Nat
  signature : BitVec 256
  deriving DecidableEq, Repr, Inhabited

structure Hub where
  units : Table UnitTest
  testSeq : Nat
  device : BitVec 11
  pod : Pod
  fab : Fab
  outq : List OutPkt
  roots : Table DWord
  tpbase : Nat
  tplo : Nat
  tphi : Nat
  irqs : Nat
  keys : Table KeySlot
  partLo : Nat
  partHi : Nat
  energy : Energy
  acct : List AcctCmd
  /-- The package's generation counter (Table 15-7). -/
  gen : Nat
  tlbis : List Tlbi
  flows : Table (List DWord)
  /-- The system cores' receive queue (R379). -/
  sysq : List EthPacket
  measurement : BitVec 256
  quotes : Nat
  quote : Option Quote
  /-- Boot has finished (R377). -/
  booted : Bool
  /-- Spare banks and rows in use, by pool: a core's, a die's (2^16 + die), the HBM regions' (2^17) (Table 18-5). -/
  spares : Table Nat
  /-- Banks and regions whose reads trap UNCORRECTABLE_MEMORY (Table 18-5). -/
  dead : List Nat
  /-- What has been reported to the system cores of them: the unit, with a domain that owns one of its blocks, or its frame (Table 18-5). -/
  reports : List (Nat × Nat)
  /-- The black-box events that the system cores mark fatal (R391). -/
  fatal : List Nat
  /-- The tenant handlers that domains have registered with the resident firmware: handler and frame address (R260). -/
  handlers : Table (VAddr × Nat)
  deriving DecidableEq, Repr, Inhabited

/-! ## The bundle in issue -/

/-- What the operations of the bundle in issue have come to: all well; held as not issued; held for a translation (domain and page of
64 KiB); held for a line of code; or trapped. -/
inductive Issued where
  | ok
  | held
  | walk (dom : BitVec 6) (page : Nat)
  | line (va : Nat)
  | trapped (t : TrapInfo)
  /-- A TLD met an error in the operand memory: it traps, and its slot is left cleared (R190). -/
  | spoiled (slot : Nat) (t : TrapInfo)
  deriving DecidableEq, Repr, Inhabited

/-- The bundle in issue: the thread it acts on, the thread whose operands the C slot reads (R289), its address and the
next, the slot in execution, the immediate target chosen by the C slot and whether it is a transfer (R50). -/
structure Issue where
  tid : Nat
  src : Nat
  pc : VAddr
  next : VAddr
  slot : Nat
  stall : Nat
  target : Option VAddr
  transfer : Bool
  out : Issued
  deriving DecidableEq, Repr, Inhabited

/-- The whole machine. -/
structure State where
  cycle : Nat
  cur : Issue
  agenda : List Instr
  free : Nat
  mem : List Host.Cell
  keyOf : Table Nat
  ecc : Table Nat
  /-- Banks whose atomic unit has applied an atomic in this cycle (R184). -/
  atoms : List Nat
  tags : Table Tag
  threads : Table Thread
  cores : Table Core
  clusters : Table Cluster
  dies : Table Die
  hub : Hub
  deriving DecidableEq, Repr, Inhabited

/-! ## Reset -/

def Regs.zero : Regs := ⟨[], [], [], [], [], [], [], [], []⟩
def Ctl.zero : Ctl := ⟨0, 0, 0, 0, 0, 0, 0, 0, 0, 0⟩
def Sel.closed : Sel := ⟨false, 0, false, 0, 0, 0, [], 0, false, false, false, false⟩
def Mat.empty : Mat := ⟨[], 0, false⟩

/-- A sequencer without a thread (R19): the reset values of Table 1-2 and Table 1-3; the rest by log entry 2. -/
def Thread.free : Thread :=
  { st := .free, pc := 0, loops := [], regs := .zero, ctl := .zero, atF := false, dom := 0, grp := none, flight := [],
    locks := [], due := [], snapped := [], parked := [], ready := 0, wait := none, xwait := none, back := none, inner := [], paused := false, traps := [], edge := none, wdone := false, ret := ⟨false, .running⟩, faults := [], stop := none, stop2 := none, held := .running, ord := 0,
    born := 0, nextId := 0, memQ := [], mat := .empty, sel := .closed, rel := [0, 0, 0, 0, 0], seen := [], walked := [], want := none, task := none,
    member := 0, reload := none, delivered := false, mend := false }

def Tile.zero : Tile := ⟨0, false, []⟩

/-- The fixed QC4 levels (Table 3-6). -/
def fixedLevels : List (BitVec 16) :=
  [0xBF80, 0xBF3C, 0xBF0F, 0xBEDA, 0xBEA0, 0xBE54, 0xBDD0, 0x0000, 0x3DB0, 0x3E28, 0x3E78, 0x3EAE, 0x3EE4, 0x3F13, 0x3F40, 0x3F80]

/-- The MA preset (Table 8-6). -/
def CellProg.ma : CellProg := ⟨[0x06020000, 0x31000000, 0xF0000000], 0, 0, none, true⟩

/-- A core after reset (R170, R172, R82, R191, R208, R209, R270, R272; log entry 2). -/
def Core.init : Core :=
  { arr := { slots := [], tiles := [], slotOwn := [], tileOwn := [], entries := [], entryDom := [], cell := .ma, c0 := [], c1 := [],
             h := [], flow := ⟨0, []⟩, rstore := [], rtab := [],
             code := ⟨fixedLevels, fixedLevels, none, none, 0, false⟩, runs := [], feedEnd := 0, ord := 0 },
    snap := none, halted := false, inService := true, ranges := [], istore := [], tlb := [], inq := [], cred := [], mcred := [],
    back := [], served := 7, last := 3, tried := 0, openAt := 0 }

def Cluster.init : Cluster := ⟨0, [], [], [], []⟩

/-- A die after reset (R299, R340; log entry 2). -/
def Die.init : Die :=
  { own := [], fwLock := false, groups := [], leaves := [], ready := [], overflow := [], seq := 0, blocked := [], pending := [], drained := 0, deps := [],
    running := [], resv := none, draint := 16384, pool := ⟨0, 0, []⟩, copies := [], copyNum := 0, cmds := [], susp := [],
    hloads := [], hcopies := [], tlb := [], walks := [], walked := [], swaps := [], bb := ⟨[], false, 0⟩, marks := [], disp := [] }

def Pod.init : Pod := ⟨0, [], [], 0, 0, 11000000, 64, 16, 0, 0, 0⟩

def Bnd.init : Bnd := ⟨0, 0, 0, 0, 0, 0, 2 ^ 24, 0, 0, none, 0, none, false, none, []⟩

def Fab.init : Fab :=
  { seq := 0, credits := [], asked := [], waiting := [], given := [], rxq := [], sent := [], queues := [], gran := [], routes := [], others := [],
    direct := [], lanesOut := [], down := [], flits := [], retry := [], replay := [], replays := [], errors := 0, escapes := [], bnd := .init,
    flushed := [], held := none, skewed := false, newFailed := [], lastGo := none, later := [] }

def Hub.init : Hub := ⟨[], 0, 0, .init, .init, [], [], 0, 0, 0, 0, [], 0x7C00000000, 0x8000000000,
  ⟨0, 0, 0, 0, 0, [], [], 0, 0, 0, false, 0⟩, [], 0, [], [], [], 0, 0, none, false, [], [], [], [], []⟩

def Issue.idle : Issue := ⟨0, 0, 0, 0, 0, 0, none, false, .ok⟩

/-- The machine right after package reset, before the boot of R377. -/
def State.reset : State :=
  { cycle := 0, cur := .idle, agenda := [], free := 0, mem := [], keyOf := [], ecc := [], atoms := [], tags := [], threads := [], cores := [],
    clusters := [], dies := [], hub := .init }

end Sys2Proof.Machine
end

