-- ==== Sys2Proof/Machine/Ops.lean ====
section
/-! DEFINITION. The named operations on the state: threads, cores, registers and writes in flight, the black-box record,
waits, groups, and taking a trap (R247 to R253). -/

namespace Sys2Proof.Machine

open Sys2Proof

/-! ## The parts of the machine by number -/

def State.thread (s : State) (t : Nat) : Thread := tget .free s.threads t
def State.setThread (s : State) (t : Nat) (x : Thread) : State := { s with threads := tset s.threads t x }
def State.updThread (s : State) (t : Nat) (f : Thread → Thread) : State := s.setThread t (f (s.thread t))

/-- The core, cluster and die of a sequencer (Table 1-1). -/
def coreOf (t : Nat) : Nat := t / 4
def clusterOf (t : Nat) : Nat := t / 32
def dieOf (t : Nat) : Nat := t / 1024

def State.core (s : State) (c : Nat) : Core := tget .init s.cores c
def State.setCore (s : State) (c : Nat) (x : Core) : State := { s with cores := tset s.cores c x }
def State.updCore (s : State) (c : Nat) (f : Core → Core) : State := s.setCore c (f (s.core c))
def State.updArr (s : State) (c : Nat) (f : Array → Array) : State := s.updCore c (fun x => { x with arr := f x.arr })

def State.cluster (s : State) (c : Nat) : Cluster := tget .init s.clusters c
def State.updCluster (s : State) (c : Nat) (f : Cluster → Cluster) : State :=
  { s with clusters := tset s.clusters c (f (s.cluster c)) }

def State.die (s : State) (d : Nat) : Die := tget .init s.dies d
def State.updDie (s : State) (d : Nat) (f : Die → Die) : State := { s with dies := tset s.dies d (f (s.die d)) }

def State.updHub (s : State) (f : Hub → Hub) : State := { s with hub := f s.hub }

/-- The thread the operation in execution acts on, and the one whose operands and guard it reads (R289). -/
def State.me (s : State) : Thread := s.thread s.cur.tid
def State.src (s : State) : Thread := s.thread s.cur.src
def State.updMe (s : State) (f : Thread → Thread) : State := s.updThread s.cur.tid f

/-! ## Physical places -/

/-- The places of the four memories in the one numbering of State.mem: HBM by its physical address, a die's shared memory, a core's
scratchpad and a die's firmware store above it. -/
def diePlace (d off : Nat) : Nat := 2 ^ 40 + d * 2 ^ 26 + off
def padPlace (c off : Nat) : Nat := 2 ^ 41 + c * 2 ^ 20 + off
def storePlace (d off : Nat) : Nat := 2 ^ 42 + d * 2 ^ 18 + off

/-- What an unlisted byte reads as (log entry 1). -/
def unlisted : Byte := 0

/-- The canonical form of a memory: addresses strictly rising, and no entry equal to what an unlisted byte reads as. -/
def Memory.wf (m : List Host.Cell) : Bool := tcanon unlisted 0 m

def State.byteAt (s : State) (k : Nat) : Byte := tget unlisted s.mem k
def State.putByte (s : State) (k : Nat) (b : Byte) : State := { s with mem := tput unlisted s.mem k b }

/-- `n` bytes from place `k` on, lowest first. -/
def State.bytesAt (s : State) (k : Nat) : Nat → List Byte
  | 0 => []
  | n + 1 => s.byteAt k :: s.bytesAt (k + 1) n

/-- The little-endian number of `n` bytes from place `k` on (R3). -/
def State.read (s : State) (k n : Nat) : Nat := leNat (s.bytesAt k n)

def State.putBytes (s : State) (k : Nat) : List Byte → State
  | [] => s
  | b :: bs => (s.putByte k b).putBytes (k + 1) bs

/-- The low `n` bytes of `v` are stored from place `k` on (R3). -/
def State.write (s : State) (k n v : Nat) : State := s.putBytes k (natBytes n v)

/-- A byte of the queue entries of a scratchpad, whose fields only the queue hardware writes (R5, R270, Table 12-1). -/
def isQueueByte (k : Nat) : Bool :=
  decide (2 ^ 41 ≤ k) && decide (k < 2 ^ 42) && decide (0xF6000 ≤ (k - 2 ^ 41) % 2 ^ 20) && decide ((k - 2 ^ 41) % 2 ^ 20 < 0xFC000)

/-- One ownership entry (R299): domain, R and W; at reset domain 0 with both bits set. -/
def State.ownEntry (s : State) (d block : Nat) : BitVec 8 := tget 0xC0#8 (s.die d).own block

/-- A byte, at an offset of a dispatch context, of the fields that only the engine writes (Table 19-8): SPILLN and LOST, a basket's DEV, V and NROW, a local
expert's COUNT and NSEC. -/
def ctxReadOnly (o : Nat) : Bool :=
  (decide (8 ≤ o) && decide (o < 12)) || (decide (0x40 ≤ o) && decide (o < 0x440) && decide (o % 16 < 4)) ||
  (decide (0x440 ≤ o) && decide (o < 0x840) && decide (12 ≤ o % 16))

/-- A byte of such a field in the context of a die that the pod context's domain has set up: in a block it owns (R403, R422, log entry 82). -/
def State.isCtxByte (s : State) (k : Nat) : Bool :=
  (List.range 2).any (fun d =>
    let c := if d = 0 then s.hub.pod.dcb0 else s.hub.pod.dcb1
    s.hub.pod.dom != 0 && (s.ownEntry d (c / 65536)).setWidth 6 == s.hub.pod.dom && decide (diePlace d c ≤ k) && ctxReadOnly (k - diePlace d c))

/-- Bytes that a store cannot change (R5): those of queue entries, and those of the read-only fields of a dispatch context, where software writes only 0
(R422). -/
def State.roByte (s : State) (k : Nat) : Bool := isQueueByte k || s.isCtxByte k

/-- A store leaves a byte as it is. -/
def State.keeps (s : State) (k : Nat) (b : Byte) : Bool := isQueueByte k || (b != 0 && s.isCtxByte k)

/-- Bytes are stored from place `k` on by an instruction or an engine: those that a store cannot change are ignored (R5). -/
def State.softBytes (s : State) (k : Nat) : List Byte → State
  | [] => s
  | b :: bs => (if s.keeps k b then s else s.putByte k b).softBytes (k + 1) bs

/-- Error keys of cells and of slot rows in State.ecc, beyond the words of every memory (R190, R201, R240). -/
def cellErrKey (core i : Nat) : Nat := 2 ^ 46 + core * 4096 + i
def slotErrKey (core slot row : Nat) : Nat := 2 ^ 47 + core * 4096 + slot * 32 + row

/-- Slots whose every row is written hold no error. -/
def State.clearSlotErrs (s : State) (core : Nat) (slots : List Nat) : State :=
  { s with ecc := s.ecc.filter (fun e => !slots.any (fun o => decide (slotErrKey core o 0 ≤ e.1) && decide (e.1 < slotErrKey core (o + 1) 0))) }

/-! ## Register reads (R12, R40) -/

/-- s0 reads 0. -/
def Thread.sreg (t : Thread) (r : Nat) : DWord := if r = 0 then 0 else tget 0 t.regs.s r
def Thread.vreg (t : Thread) (r : Nat) : VecReg := tget 0 t.regs.v r
/-- g0 reads true. -/
def Thread.greg (t : Thread) (r : Nat) : Bool := if r = 0 then true else tget false t.regs.g r
/-- m0 reads all ones. -/
def Thread.mreg (t : Thread) (r : Nat) : Word := if r = 0 then 0xFFFFFFFF#32 else tget 0 t.regs.m r
def Thread.qreg (t : Thread) (r : Nat) : DWord := tget 0 t.regs.q r
def Thread.preg (t : Thread) (r : Nat) : DWord := tget 0 t.regs.p r
/-- n_k is the index of the k-th live loop from the innermost, and reads 0 when fewer are live. -/
def Thread.nreg (t : Thread) (k : Nat) : Word := (t.loops[k]?.map LoopEntry.index).getD 0

def State.s (s : State) (r : BitVec 5) : DWord := s.src.sreg r.toNat
def State.v (s : State) (r : BitVec 5) : VecReg := s.src.vreg r.toNat
def State.g (s : State) {n : Nat} (r : BitVec n) : Bool := s.src.greg r.toNat
def State.m (s : State) {n : Nat} (r : BitVec n) : Word := s.src.mreg r.toNat
def State.q (s : State) {n : Nat} (r : BitVec n) : DWord := s.src.qreg r.toNat
def State.p (s : State) {n : Nat} (r : BitVec n) : DWord := s.src.preg r.toNat

/-- R39: the guard register's value, inverted when GN = 1. -/
def State.guard (s : State) (gd : Guard) : Bool := s.g gd.reg != gd.neg

/-! ## Register writes -/

/-- A write to s0, g0 or m0 is discarded (R12). -/
def Dest.discards : Dest → Bool
  | .s r => r == 0
  | .g r => r == 0
  | .m r => r == 0
  | .none => true
  | _ => false

/-- The register file after a write lands. -/
def Regs.land (r : Regs) (d : Dest) (v : Nat) : Regs :=
  match d with
  | .s i => { r with s := tset r.s i (BitVec.ofNat 64 v) }
  | .v i => { r with v := tset r.v i (BitVec.ofNat 1024 v) }
  | .g i => { r with g := tset r.g i (v % 2 == 1) }
  | .m i => { r with m := tset r.m i (BitVec.ofNat 32 v) }
  | .q i => { r with q := tset r.q i (BitVec.ofNat 64 v) }
  | .p i => { r with p := tset r.p i (BitVec.ofNat 64 v) }
  | .sys n =>
    if 0x018 ≤ n ∧ n ≤ 0x01B then { r with seed := tset r.seed (n - 0x018) (BitVec.ofNat 64 v) }
    else if 0x020 ≤ n ∧ n ≤ 0x02F then { r with win := tset r.win (n - 0x020) (BitVec.ofNat 64 v) }
    else if 0x030 ≤ n ∧ n ≤ 0x03F then
      -- OUT is written by the hub alone (R404)
      let k := n - 0x030
      { r with allow := tset r.allow k (BitVec.ofNat 64 (setBits (tget 0 r.allow k).toNat 0 16 v)) }
    else r
  | .n => r
  | .gid => r
  | .none => r

/-- The control registers after a write lands (Table 1-3). -/
def Ctl.land (c : Ctl) (d : Dest) (v : Nat) : Ctl :=
  match d with
  | .sys n =>
    if n = 0x008 then { c with cause := BitVec.ofNat 8 v }
    else if n = 0x009 then { c with cmdidx := BitVec.ofNat 32 v }
    else if n = 0x00A then { c with engine := BitVec.ofNat 3 v }
    else if n = 0x00B then { c with estat := BitVec.ofNat 64 v }
    else if n = 0x00C then { c with badaddr := BitVec.ofNat 48 v }
    else if n = 0x00D then { c with xpc := BitVec.ofNat 48 v }
    else if n = 0x010 then { c with round := BitVec.ofNat 3 v }
    else if n = 0x012 then { c with stallchk := BitVec.ofNat 1 v }
    else if n = 0x013 then { c with cmask := BitVec.ofNat 2 v }
    else c
  | _ => c

/-- A write lands in its register. -/
def Thread.land (t : Thread) (d : Dest) (v : Nat) : Thread :=
  { t with regs := t.regs.land d v, ctl := t.ctl.land d v }

/-- A result with fixed latency `lat` is on its way to its destination: it lands at the end of cycle t + lat - 1 (R51). -/
def State.post (s : State) (d : Dest) (v lat : Nat) : State :=
  if d.discards then s
  else s.updMe (fun t => { t with flight := t.flight ++ [⟨d, v, s.cycle + lat - 1, t.ord, s.cur.slot⟩] })

def State.postS (s : State) (r : BitVec 5) (x : DWord) (lat : Nat) : State := s.post (.s r.toNat) x.toNat lat
def State.postV (s : State) (r : BitVec 5) (x : VecReg) (lat : Nat) : State := s.post (.v r.toNat) x.toNat lat
def State.postG (s : State) {n : Nat} (r : BitVec n) (x : Bool) (lat : Nat) : State := s.post (.g r.toNat) (b2n x) lat
def State.postM (s : State) {n : Nat} (r : BitVec n) (x : Word) (lat : Nat) : State := s.post (.m r.toNat) x.toNat lat

/-- $fstat flags are sticky (R14). -/
def Thread.raiseFlags (t : Thread) (f : BitVec 6) : Thread := { t with ctl := { t.ctl with fstat := t.ctl.fstat ||| f } }
def State.flags (s : State) (f : BitVec 6) : State := s.updMe (·.raiseFlags f)

/-- The destination of an interlocked result of the bundle's slot is held until it lands (R52). -/
def Thread.lock (t : Thread) (slot : Nat) (d : Dest) (id : Nat) : Thread :=
  if d.discards then t else { t with locks := t.locks ++ [⟨d, id, t.ord, slot, false⟩] }

/-- Whether an interlocked write to a register is outstanding. -/
def Thread.locked (t : Thread) (d : Dest) : Bool := t.locks.any (fun l => l.dest == d)

/-- The interlocks of a command are released without a write (R52). -/
def Thread.unlock (t : Thread) (id : Nat) : Thread := { t with locks := t.locks.filter (fun l => l.id != id) }

/-- Another write of a register is on its way: in flight, interlocked, come and waiting, or a record not yet restored. -/
def Thread.writing (t : Thread) (d : Dest) : Bool :=
  t.flight.any (fun f => f.dest == d) || t.locked d || t.due.any (fun f => f.dest == d) || t.snapped.any (fun r => r.1.dest == d) ||
    t.parked.any (fun r => r.dest == d)

/-- An interlocked result comes (R52): it lands at once, or, where another write of its register is on its way, with those of its cycle. -/
def Thread.landLocked (t : Thread) (cycle id : Nat) (d : Dest) (v : Nat) : Thread :=
  let mine (l : Lock) : Bool := l.id == id && l.dest == d
  let l := (t.locks.find? mine).getD ⟨d, id, t.ord, 0, false⟩
  let t := { t with locks := t.locks.filter (fun l => !mine l) }
  if d.discards || l.void then t
  else if t.writing d then { t with due := t.due ++ [⟨d, v, cycle, l.ord, l.slot⟩] }
  else t.land d v

/-- An interlocked result that is known at issue (R52): it lands at the end of the cycle, or behind an earlier fixed-latency write. -/
def State.postVar (s : State) (d : Dest) (v : Nat) : State :=
  if d.discards then s else s.updMe (fun t => { t with due := t.due ++ [⟨d, v, s.cycle, t.ord, s.cur.slot⟩] })

/-- Whether write `a` lands before write `b`: earlier landing cycle, then earlier bundle, then lower slot (R53). -/
def Flight.before (a b : Flight) : Bool :=
  if a.land ≠ b.land then a.land < b.land else if a.ord ≠ b.ord then a.ord < b.ord else a.slot < b.slot

/-- A fixed-latency write of the register issued earlier than an interlocked result is still to land after a cycle (R52): in flight, in a record of
a trap that came after the result's bundle, or restored and not in flight again. -/
def Thread.behindFixed (t : Thread) (cycle : Nat) (e : Flight) : Bool :=
  t.flight.any (fun f => f.dest == e.dest && decide (f.ord < e.ord) && decide (cycle < f.land)) ||
    t.snapped.any (fun r => r.1.dest == e.dest && decide (r.1.ord < e.ord) && decide (e.ord ≤ r.2)) ||
    t.parked.any (fun r => r.dest == e.dest && decide (r.ord < e.ord))

/-- The writes of a thread that land at the end of a cycle: fixed-latency ones that are due, and interlocked results that wait for none. -/
def Thread.landing (t : Thread) (cycle : Nat) : List Flight :=
  t.flight.filter (fun f => f.land ≤ cycle) ++ (t.due.filter (fun f => !t.behindFixed cycle f)).map (fun f => { f with land := cycle })

/-- They land in the order of R53. -/
def Thread.landDue (t : Thread) (cycle : Nat) : Thread :=
  (stableSort Flight.before (t.landing cycle)).foldl (fun t f => t.land f.dest f.val)
    { t with flight := t.flight.filter (fun f => !(f.land ≤ cycle)), due := t.due.filter (t.behindFixed cycle) }

/-- No write of the thread is still to land after a cycle (R56). -/
def Thread.settled (t : Thread) (cycle : Nat) : Bool :=
  t.flight.all (fun f => decide (f.land ≤ cycle)) && t.parked == [] && t.due.all (fun f => !t.behindFixed cycle f)

/-- The thread may issue from cycle `u` on: each restored record lands `rem` such cycles later, in place of a write of its register that its handler
made and that would land no earlier (R56, R258). -/
def Thread.unpark (t : Thread) (u : Nat) : Thread :=
  let fl := t.parked.map (fun r => (⟨r.dest, r.val, u + r.rem - 1, r.ord, r.slot⟩ : Flight))
  { t with flight := t.flight.filter (fun f => !fl.any (fun r => r.dest == f.dest && decide (r.ord < f.ord) && decide (r.land ≤ f.land))) ++ fl, parked := [] }

/-! ## Waits of a thread (R19, R24) -/

def Pause.isDone (p : Pause) : Bool := p.wait.isNone && p.xwait.isNone

/-- The thread waits: in WAITING, or, where it is TRAPPED or a wait below it is still registered, at a wait of its own (R19, R24; log entry 81). A second wait of
the same bundle joins the first. `at_` is the bundle's place. -/
def Thread.park (t : Thread) (at_ : VAddr × List LoopEntry) (w : Option Wait) (x : Option Nat) : Thread :=
  let st : TState := if t.st = .trapped then .trapped else .waiting
  if t.paused then
    { t with inner := match t.inner with | p :: ps => { p with wait := w.orElse (fun _ => p.wait), xwait := x.orElse (fun _ => p.xwait) } :: ps | [] => [⟨w, x, at_⟩] }
  else if t.st = .trapped ∨ (t.st = .running ∧ (t.wait.isSome ∨ t.xwait.isSome ∨ t.inner ≠ [])) then
    { t with st := st, inner := ⟨w, x, at_⟩ :: t.inner, paused := true }
  else { t with st := st, back := some (t.back.getD at_), wait := w.orElse (fun _ => t.wait), xwait := x.orElse (fun _ => t.xwait) }

/-- The C-slot waits the thread has registered, and the one it stands at. -/
def Thread.waits (t : Thread) : List Wait := t.wait.toList ++ t.inner.filterMap Pause.wait
def Thread.nowWait (t : Thread) : Option Wait := if t.paused then t.inner.head?.bind Pause.wait else t.wait

/-- Waits that satisfy a condition are over. -/
def Thread.finish (t : Thread) (w : Wait → Bool) (x : Nat → Bool) : Thread :=
  { t with wait := t.wait.filter (fun y => !w y), xwait := t.xwait.filter (fun y => !x y),
           inner := t.inner.map (fun p => { p with wait := p.wait.filter (fun y => !w y), xwait := p.xwait.filter (fun y => !x y) }) }

/-- A waiting thread runs again from cycle `u` on (R19). -/
def Thread.resumeRun (t : Thread) (u : Nat) : Thread := { t with st := .running, back := none, ready := max t.ready u }

/-- The wait at which the thread stands in a handler is over, and the handler goes on from cycle `u` on. -/
def Thread.endPause (t : Thread) (u : Nat) : Thread :=
  { t with st := if t.st = .waiting then .running else t.st, inner := t.inner.drop 1, paused := false, ready := max t.ready u }

/-- The wait that the trap of a snapshot interrupted is over: of a trap at F, the latest of the waits made there but the one the thread stands at. -/
def Thread.overFor (t : Thread) (retF : Bool) : Bool :=
  match if retF then (if t.paused then t.inner.drop 1 else t.inner) else [] with
  | p :: _ => p.isDone
  | [] => t.wait.isNone && t.xwait.isNone

/-! ## The thread generator (R76, R78) -/

/-- One draw: the generator advances at once, so the next slot of the bundle sees the state left (R78). -/
def Thread.draw (t : Thread) : DWord × Thread :=
  let x := t.regs.seed
  let (r, a, b, c, d) := xoshiro (tget 0 x 0) (tget 0 x 1) (tget 0 x 2) (tget 0 x 3)
  (r, { t with regs := { t.regs with seed := [(0, a), (1, b), (2, c), (3, d)] } })

/-- `n` draws, in order. -/
def Thread.draws : Nat → Thread → List DWord × Thread
  | 0, t => ([], t)
  | n + 1, t =>
    let (x, t) := t.draw
    let (xs, t) := Thread.draws n t
    (x :: xs, t)

/-- A seed write of this bundle gives way to a draw of the bundle, which comes from a higher slot (R53). -/
def Thread.dropSeedWrites (t : Thread) : Thread :=
  { t with flight := t.flight.filter (fun f => !(f.ord == t.ord && (match f.dest with | .sys n => 0x018 ≤ n && n ≤ 0x01B | _ => false))) }

/-- The four 16-bit values of a draw (R77). -/
def quarters (x : DWord) : List Nat :=
  [nbits x.toNat 0 16, nbits x.toNat 16 16, nbits x.toNat 32 16, nbits x.toNat 48 16]

/-- `n` 64-bit draws by the thread in issue. -/
def State.draws64 (s : State) (n : Nat) : List DWord × State :=
  let (xs, t) := Thread.draws n s.me
  (xs, s.setThread s.cur.tid t.dropSeedWrites)

/-- `n` 16-bit uniform values, ceil(n/4) draws; values left over are discarded (R77). -/
def State.draws16 (s : State) (n : Nat) : List Nat × State :=
  let (xs, s) := s.draws64 ((n + 3) / 4)
  (xs.flatMap quarters, s)

/-! ## The black-box record (R391) -/

/-- A marker entry: EVENT 0x8000 to 0x8FFF. -/
def BBEntry.isMarker (e : BBEntry) : Bool := 0x8000 ≤ e.event.toNat

/-- An entry is written: at most 64 markers and 512 entries are held, the oldest giving way; a frozen record drops, and counts in 32 bits. -/
def BlackBox.push (b : BlackBox) (e : BBEntry) : BlackBox :=
  if b.frozen then { b with drops := (b.drops + 1) % 2 ^ 32 }
  else
    let es := if e.isMarker ∧ 64 ≤ (b.ents.filter BBEntry.isMarker).length then b.ents.eraseP BBEntry.isMarker else b.ents
    let es := if 512 ≤ es.length then es.drop 1 else es
    { b with ents := es ++ [e] }

/-- A value the spec leaves open (log entry 3). -/
def State.freeNat (s : State) : Nat × State := (Config.freeValue s.free, { s with free := s.free + 1 })

/-- A die's record is frozen: it drops and counts what follows (R391). -/
def State.freeze (s : State) (die : Nat) : State := s.updDie die (fun y => { y with bb := { y.bb with frozen := true } })

/-- An event freezes the record after its own entry: a thermal trip, a boot verification failure, or one the system cores have marked (R391). -/
def State.isFatal (s : State) (ev : Nat) : Bool := ev == 0x0121 || ev == 0x0150 || s.hub.fatal.contains ev

/-- An entry is written to a die's record. -/
def State.record (s : State) (die : Nat) (e : BBEntry) : State :=
  let s := s.updDie die (fun d => { d with bb := d.bb.push e })
  if s.isFatal e.event.toNat then s.freeze die else s

/-- A black-box event on a die; the unit and the data that the spec does not state for an event are free values. -/
def State.event (s : State) (die ev : Nat) (unit : Option Nat) (tid dom : Nat) (d0 d1 : Option DWord) : State :=
  let (u, s) := match unit with | some u => (u, s) | none => s.freeNat
  let (x, s) := match d0 with | some x => (x, s) | none => let (n, s) := s.freeNat; (BitVec.ofNat 64 n, s)
  let (y, s) := match d1 with | some y => (y, s) | none => let (n, s) := s.freeNat; (BitVec.ofNat 64 n, s)
  s.record die ⟨s.cycle, BitVec.ofNat 16 ev, BitVec.ofNat 24 u, BitVec.ofNat 11 tid, BitVec.ofNat 6 dom, x, y⟩

/-- TID of an entry without a thread. -/
def noTid : Nat := 0x7FF

/-- The system cores are interrupted. -/
def State.irq (s : State) : State := s.updHub (fun h => { h with irqs := h.irqs + 1 })

/-! ## Targeted self-tests (R388) -/

/-- A unit never tested. -/
def UnitTest.none : UnitTest := ⟨0, 0, false, 0, 0, [], 3, []⟩

/-- The die whose tests a unit counts among (Table 18-8): by its core, its die memory bank, its HBM stack (each die's half), its port. -/
def unitDie (u : Nat) : Nat :=
  let n := u % 2 ^ 20
  match u / 2 ^ 20 with
  | 4 => n / 256
  | 5 => n / 2 ^ 19
  | 6 => if n / 4 < 18 then 0 else 1
  | 7 => 0
  | 8 => n
  | 1 => n / 32 / 256
  | _ => n / 256

/-- The unit a byte of memory lies in (Table 18-8): a scratchpad bank (R164), a die memory bank (R305), an HBM region, a firmware store. -/
def unitOf (key : Nat) : Nat :=
  if key < 2 ^ 40 then 5 * 2 ^ 20 + key / 2 ^ 19
  else if key < 2 ^ 41 then 4 * 2 ^ 20 + (key - 2 ^ 40) / 2 ^ 26 * 256 + nbits key 6 8
  else if key < 2 ^ 42 then 2 ^ 20 + (key - 2 ^ 41) / 2 ^ 20 * 32 + nbits key 2 5
  else 8 * 2 ^ 20 + (key - 2 ^ 42) / 2 ^ 18

/-- Tests running on a die. -/
def State.testsRunning (s : State) (die : Nat) : Nat :=
  (s.hub.units.filter (fun e => unitDie e.1 == die && e.2.phase == 1)).length

/-- Cycles of a unit's test (Table 18-5). -/
def testTime (u : Nat) : Nat :=
  match u / 2 ^ 20 with
  | 1 => 22000
  | 2 => 33000
  | 3 => 88000
  | 4 => 44000
  | 5 => 66000
  | _ => 55000

/-- The spares for a unit (Table 18-5): their pool, a core's banks, a die's banks or the HBM rows, and how many there are. -/
def sparesOf (u : Nat) : Nat × Nat :=
  let n := u % 2 ^ 20
  match u / 2 ^ 20 with
  | 1 => (n / 32, 1)
  | 4 => (2 ^ 16 + n / 256, 4)
  | 5 => (2 ^ 17, Config.hbmSpares)
  | _ => (2 ^ 18, 0)

/-- A spare of the unit's pool serves neither for good nor for a running test. -/
def State.spareFree (s : State) (u : Nat) : Bool :=
  let (pool, n) := sparesOf u
  decide (tget 0 s.hub.spares pool + (s.hub.units.filter (fun e => e.2.moved && (sparesOf e.1).1 == pool)).length < n)

/-- A memory bank's data move to a spare: corrected errors do not move with them; uncorrectable words stay poisoned (Table 18-5). -/
def State.cleanBank (s : State) (u : Nat) : State := { s with ecc := s.ecc.filter (fun e => !(e.2 == 2 && unitOf (4 * e.1) == u)) }

/-- The test of a unit begins: the data of a memory bank move to a spare first, if one is free (Table 18-5, log entry 80). -/
def State.beginTest (s : State) (u : Nat) : State :=
  let moves := (u / 2 ^ 20 == 1 || u / 2 ^ 20 == 4) && s.spareFree u
  let s := if moves then s.cleanBank u else s
  s.updHub (fun h => { h with units := tset h.units u { tget .none h.units u with phase := 1, began := s.cycle, moved := moves } })

/-- An error in a unit of Table 18-5 starts its test, at most 8 at once on a die; an error in a unit under test is counted (R388). -/
def State.startTest (s : State) (u : Nat) : State :=
  let t := tget .none s.hub.units u
  let put (t : UnitTest) : State := s.updHub (fun h => { h with units := tset h.units u t, testSeq := h.testSeq + 1 })
  if u / 2 ^ 20 = 0 ∨ 6 < u / 2 ^ 20 then s
  else if t.phase ≠ 0 then put { t with errors := t.errors + 1 }
  else if s.testsRunning (unitDie u) < 8 then (put { t with order := s.hub.testSeq }).beginTest u
  else put { t with phase := 2, order := s.hub.testSeq }

/-- The die of a place in die memory, and the address by which a die's threads reach it (R298). -/
def placeDie (key : Nat) : Nat := (key - 2 ^ 40) / 2 ^ 26
def placeVa (die key : Nat) : Nat := (if placeDie key = die then 0x10000000 else 0x14000000) + (key - 2 ^ 40) % 2 ^ 26

/-- A corrected (0x0100) or detected (0x0101) error of a byte's unit: the event, and the unit's test (R388, R391). -/
def State.memError (s : State) (ev key tid dom : Nat) : State :=
  let u := unitOf key
  (s.event (unitDie u) ev (some u) tid dom none none).startTest u

/-- Corrected errors of the words among some ranges that have been read (R166, R305): each is counted, and its unit tested. -/
def State.corrected (s : State) (tid dom : Nat) (reads : List (Nat × Nat)) : State :=
  (s.ecc.filter (fun e => e.2 == 2 && reads.any (fun r => decide (4 * e.1 < r.1 + r.2) && decide (r.1 < 4 * e.1 + 4)))).foldl
    (fun s e => s.memError 0x0100 (4 * e.1) tid dom) s

/-- A test is running on a unit. -/
def State.underTest (s : State) (u : Nat) : Bool := (tget .none s.hub.units u).phase == 1

/-- A physical address of HBM lies in a region under test, whose accesses wait (Table 18-5). -/
def State.regionTested (s : State) (pa : Nat) : Bool := decide (pa < 2 ^ 39) && s.underTest (unitOf pa)

/-! ## Trap causes -/

/-- The codes of Table 10-4. -/
def causeCode : Cause → Nat
  | .illegalBundle => 0x01 | .illegalOp => 0x02 | .privileged => 0x03 | .stallShort => 0x04 | .misaligned => 0x05
  | .loopStack => 0x06 | .softwareTrap => 0x07 | .group => 0x10 | .slotUnclaimed => 0x20 | .tensorId => 0x21
  | .indexRange => 0x22 | .routine => 0x23 | .scratchRange => 0x25 | .windowLoad => 0x26 | .engineDataError => 0x27
  | .doubleFault => 0x2F | .gangPartner => 0x40 | .ringMisuse => 0x41 | .queueMisuse => 0x42 | .translation => 0x50
  | .permission => 0x51 | .memoryConflict => 0x52 | .memoryConflictUncertain => 0x53 | .atomicScope => 0x54
  | .copyFault => 0x55 | .counterUnderflow => 0x56 | .doubleResume => 0x57 | .hamperVersion => 0x58
  | .hamperRights => 0x59 | .hamperMoved => 0x5A | .hamperPoisoned => 0x5B | .launch => 0x5C
  | .uncorrectableMemory => 0x5D | .stepFailed => 0x80 | .stepOverflow => 0x81 | .harvestConflict => 0x82
  | .fabricUnreachable => 0x83

/-- A trap record; a register the cause does not name is 0 (R247). -/
def trapInfo (c : Cause) (engine : Nat) (estat : DWord := 0) (badaddr : VAddr := 0) (cmdidx : Word := 0) : TrapInfo :=
  ⟨c, BitVec.ofNat 3 engine, estat, badaddr, cmdidx⟩

/-! ## Waits, groups and leaving a sequencer -/

/-- The live snapshot of a thread whose interrupted wait is over says so (R24, Table 10-1). -/
def State.noteDone (s : State) (t : Nat) : State :=
  let th := s.thread t
  s.updCore (coreOf t) (fun c => { c with snap := c.snap.map (fun sn =>
    if sn.tid = t ∧ sn.retSt = .waiting ∧ th.overFor sn.retF then { sn with wdone := true } else sn) })

/-- A thread's waits are as `th` has them: with none left a WAITING thread runs from the next cycle, and one that trapped or was stopped while
it waited continues after its wait (R19, R24). A handler goes on when its own wait is over, whatever waits are registered below it. -/
def State.settle (s : State) (t : Nat) (th : Thread) : State :=
  if th.inner ≠ [] then
    (s.setThread t (if th.paused ∧ th.inner.head?.all Pause.isDone then th.endPause (s.cycle + 1) else th)).noteDone t
  else if th.wait.isSome ∨ th.xwait.isSome then s.setThread t th
  else if th.st = .waiting then s.setThread t (th.resumeRun (s.cycle + 1))
  else
    (s.setThread t { th with wdone := true }).noteDone t

/-- The registered waits of C-slot instructions that satisfy a condition complete; that of a TSUBMIT or LAUNCH, by its command. -/
def State.wakeIf (s : State) (t : Nat) (w : Wait → Bool) : State := s.settle t ((s.thread t).finish w (fun _ => false))
def State.wake (s : State) (t : Nat) : State := s.settle t { s.thread t with wait := none }
def State.wakeX (s : State) (t : Nat) (id : Nat) : State := s.settle t ((s.thread t).finish (fun _ => false) (· == id))

/-- The barrier of a group completes when every current member has arrived (R113): each waiting member is released. -/
def State.barrierTest (s : State) (die grp : Nat) : State :=
  match (s.die die).groups.find? (fun e => e.1 == grp) with
  | none => s
  | some (_, g) =>
    if g.members ≠ [] ∧ g.members.all (fun m => g.arrived.contains m.2) then
      let s := s.updDie die (fun d => { d with groups := tset d.groups grp { g with arrived := [] } })
      g.members.foldl (fun s m => if (s.thread m.2).waits.contains .bar then s.wakeIf m.2 (· == .bar) else s) s
    else s

/-- LEAVE, and leaving at RETIRING (R20, R25, R27): the expected count falls, and the last member frees the entry. -/
def State.groupLeave (s : State) (t : Nat) : State :=
  let th := s.thread t
  match th.grp with
  | none => s
  | some (grp, mem) =>
    let die := dieOf t
    let s := s.setThread t { th with grp := none }
    match (s.die die).groups.find? (fun e => e.1 == grp) with
    | none => s
    | some (_, g) =>
      let ms := tdel g.members mem
      if ms = [] then s.updDie die (fun d => { d with groups := tdel d.groups grp })
      else
        let s := s.updDie die (fun d => { d with groups := tset d.groups grp { g with members := ms, arrived := g.arrived.filter (· != t) } })
        s.barrierTest die grp

/-- The rings a thread owns become ORPHAN (R284). -/
def State.orphanRings (s : State) (t : Nat) : State :=
  s.updCluster (clusterOf t) (fun c =>
    { c with rings := c.rings.map (fun r => if r.2.st = 1 ∧ r.2.owner = t then (r.1, { r.2 with st := 2 }) else r) })

/-- A counter with its wrap count moves on by one (R310): 16 bits of counter below 2 bits of wrap count. -/
def bumpCount (n : Nat) : Nat := (n + 1) % 2 ^ 18

/-- A release of a scope of level `l` advances the counters of the levels up to it (R310). -/
def Thread.release (t : Thread) (l : Nat) : Thread :=
  { t with rel := (List.range 5).map (fun i => let c := nth 0 t.rel i; if i < l then bumpCount c else c) }

/-- The fused set a thread is a participant of. -/
def State.fuseOf (s : State) (t : Nat) : Option FuseSet := (s.cluster (clusterOf t)).sets.find? (fun f => f.parts.any (fun p => p.2 == t))

/-- A change of the fused set of a thread. -/
def State.updFuse (s : State) (t : Nat) (g : FuseSet → FuseSet) : State :=
  s.updCluster (clusterOf t) (fun c => { c with sets := c.sets.map (fun f => if f.parts.any (fun p => p.2 == t) then g f else f) })

/-- The other participants of a thread's set. -/
def State.partners (s : State) (t : Nat) : List Nat :=
  match s.fuseOf t with
  | none => []
  | some f => (f.parts.map Prod.snd).filter (· != t)

/-- The wait is for a fused set's line, or for lock step. -/
def Wait.isLine (w : Wait) : Bool :=
  match w with
  | .rejoin _ => true
  | .lockstep => true
  | _ => false

/-- The wait of a participant that leaves its set ends: one of lock step is over, and its REJOIN issues again, or, where it has trapped, is over too (log
entry 77). -/
def State.endLine (s : State) (t : Nat) : State :=
  let th := s.thread t
  match th.wait, th.st with
  | some .lockstep, _ => s.wakeIf t Wait.isLine
  | some (.rejoin _), .waiting =>
    let b := th.back.getD (th.pc, th.loops)
    s.settle t { th.finish Wait.isLine (fun _ => false) with pc := b.1, loops := b.2 }
  | _, _ => if th.waits.any Wait.isLine then s.wakeIf t Wait.isLine else s

/-- The participant leaves its fused set as by DECOUPLE; lock step ends with the last participant that runs in it; the set dissolves with its last participant, and otherwise its lowest
remaining core leads; the line is tested again, and the core's other sequencers issue, from the next cycle on (R290, R291). -/
def State.fuseLeave (s : State) (t : Nat) : State :=
  let k := coreOf t % 8
  if (s.fuseOf t).isNone then s
  else
  let s := s.updFuse t (fun f =>
    let left := tdel f.parts k
    { f with parts := left, high := tdel f.high k, out := f.out.filter (· != k), solo := f.solo.filter (· != k), retest := s.cycle + 1,
             lock := f.lock && left.any (fun p => !f.solo.contains p.1) })
  let s := s.endLine t
  let s := s.updCore (coreOf t) (fun c => { c with openAt := s.cycle + 1 })
  s.updCluster (clusterOf t) (fun c => { c with sets := c.sets.filter (fun f => f.parts != []) })

/-- The participants that run in lock step: those that have not joined since it began (R287). -/
def FuseSet.inLock (f : FuseSet) : Table Nat := f.parts.filter (fun p => !f.solo.contains p.1)

/-- A trap of a participant stops lock step (R290): the others wait before their next bundle with their inputs high; the input of one that has joined since
lock step began stays as it is. One whose own input is high when it traps lowers it until its return to T. -/
def State.stopLock (s : State) (t : Nat) : State :=
  match s.fuseOf t with
  | none => s
  | some f =>
    let k := coreOf t % 8
    if ¬ f.lock ∨ f.solo.contains k then
      if tget false f.high k then s.updFuse t (fun f => { f with out := k :: f.out, high := tdel f.high k }) else s
    else
      let others := f.inLock.filter (fun p => p.1 != k)
      let s := s.updFuse t (fun f =>
        { f with lock := false, out := [k], high := others.foldl (fun m p => tset m p.1 true) (f.high.filter (fun p => f.solo.contains p.1)) })
      (others.map Prod.snd).foldl (fun s p =>
        if (s.thread p).st = .running then s.updThread p (fun th => th.park (th.pc, th.loops) (some .lockstep) none) else s) s

/-- A LEAVE is applied after the JOINs of its cycle (R27). -/
def State.leaveLater (s : State) (t : Nat) : State :=
  if (s.thread t).grp.isSome then s.updDie (dieOf t) (fun d => { d with leaves := insertBy (fun a b => decide (a < b)) t d.leaves }) else s

/-- What a thread that ends leaves behind of its handlers: their waits, and the records of its traps, which land no more (R20). -/
def Thread.forget (t : Thread) : Thread := { t with inner := [], paused := false, traps := [], snapped := [], parked := [] }

/-- A thread enters RETIRING (R19, R20, R105): fetch halts, its loops are discarded, it leaves its group and its fused set, its rings
become ORPHAN; a SUSPEND of its group goes on without it. -/
def State.retire (s : State) (t : Nat) : State :=
  let s := s.updDie (dieOf t) (fun d => { d with susp := d.susp.map (fun x => { x with members := x.members.filter (· != t) }) })
  let s := s.updThread t (fun th => { th.forget with st := .retiring, loops := [], wait := none, xwait := none, back := none, stop := none, stop2 := none })
  ((s.leaveLater t).orphanRings t).fuseLeave t

/-- The request is a SUSPEND's. -/
def StopKind.isSuspend (k : StopKind) : Bool :=
  match k with
  | .suspend _ => true
  | _ => false

/-- A stop is asked of a thread (R261): one of another kind than the one it is asked already waits behind that; one of the same kind takes its place. -/
def Thread.askStop (t : Thread) (q : StopReq) : Thread :=
  match t.stop with
  | none => { t with stop := some q }
  | some p => if p.kind.isSuspend = q.kind.isSuspend then { t with stop := some { q with landed := p.landed } } else { t with stop2 := some q }

/-- The task of a thread whose core has left service is to be re-queued, and its other threads are asked to stop (R389). -/
def State.markStopping (s : State) (t : Nat) (k : StopKind) : State :=
  match (s.thread t).task with
  | none => s
  | some id =>
    let die := id % 2
    let ask (s : State) (r : RunTask) : State :=
      if r.id ≠ id then s
      else (r.threads.filter (fun x => !r.freed.contains x && x != t)).foldl (fun s x => s.updThread x (·.askStop ⟨k, s.cycle, false⟩)) s
    let s := (s.die die).running.foldl ask s
    s.updDie die (fun d => { d with running := d.running.map (fun r =>
      if r.id = id then { r with stopping := some k, killed := true } else r) })

/-- A command that has started on its engine. -/
def MatCmd.started (c : MatCmd) : Bool :=
  match c.st with
  | .running _ => true
  | .done => true
  | _ => false

/-- A command that a fault has stopped. -/
def MatCmd.isFailed (c : MatCmd) : Bool :=
  match c.st with
  | .failed _ => true
  | _ => false

/-- RFT on a halted queue (R222, R243): the failing command, the last to fail of several, restarts, interlocked afresh, or retires as it stands: it stays in
its place as the queue's first to start, so that nothing behind it starts before the handler's commands have retired. A restart goes on
from the tile steps that the command itself recorded, whatever $estat.DONE holds by then: the model's choice (log entry 76). The queue stays halted for the
handler of an earlier failing command. -/
def Thread.resumeMatrix (t : Thread) (rs : Bool) : Thread :=
  match t.mat.queue.find? MatCmd.isFailed with
  | none => t
  | some x =>
    let more := decide (1 < (t.mat.queue.filter MatCmd.isFailed).length)
    let one (c : MatCmd) : MatCmd :=
      if c.num = x.num then
        (match c.st with
        | .failed n => if rs then { c with st := .restart n } else { c with op := .nop, st := .restart 0, wide := 0, foot := 0 }
        | _ => c)
      else c
    let t := match x.op with
      | .rdrow _ _ d _ _ _ => if rs then t.lock 4 (.v d) x.id else t
      | _ => t
    { t with mat := { t.mat with queue := t.mat.queue.map one, halted := more } }

/-- A read that only feeds one of the discarded commands: its image, or its payload. -/
def Access.feeds (a : Access) (images payloads : List Nat) : Bool :=
  match a.op with
  | .image c _ _ => images.contains c
  | .sladd c _ _ => payloads.contains c
  | _ => false

/-- A command of a die engine that has failed and heads its thread's halted queue there (R246). -/
def DieCmd.isHalted (c : DieCmd) : Bool :=
  match c.op with
  | .halted _ => true
  | _ => false

/-- The bundle up to which the commands of a halted queue wait. -/
def DieCmd.last (c : DieCmd) : Nat :=
  match c.op with
  | .halted n => n
  | _ => 0

/-- RFT on the halted queue of a thread at its die's engine (R246, R258): the failing command, the last to fail of several, retires as it stands, and the
queue goes on (log entry 78). -/
def State.resumeDie (s : State) (tid : Nat) : State :=
  let mine (c : DieCmd) : Bool := c.isHalted && c.org.tid == tid && c.org.born == (s.thread tid).born
  let stuck := (s.die (dieOf tid)).cmds.filter mine
  if stuck = [] then s
  else
    let top := (stuck.map DieCmd.last).foldl max 0
    s.updDie (dieOf tid) (fun d => { d with cmds := d.cmds.filter (fun c => !(mine c && c.last == top)) })

/-- The commands of a thread that have not started on their engines are discarded, and their interlocks released (R20, R389): those of its matrix
queue and those that wait at the die engines, failing ones with their undelivered faults. An access that has issued has passed its checks, and performs (log entry 66). -/
def State.discardCommands (s : State) (tid : Nat) : State :=
  let t := s.thread tid
  let mats := t.mat.queue.filter (fun c => !c.started)
  let mine (c : DieCmd) : Bool := c.org.tid == tid && c.org.born == t.born
  let dies := (List.range 2).flatMap (fun d => ((s.die d).cmds.filter mine).map DieCmd.id)
  let ids := mats.map MatCmd.id ++ dies
  let stuck (f : AFault) : Bool := (List.range 2).any (fun d => (s.die d).cmds.any (fun c => mine c && c.isHalted && c.org.bundle == f.org.bundle))
  let gone (f : AFault) : Bool := (f.info.engine == 4 && mats.any (fun c => c.isFailed && c.num == f.info.cmdidx.toNat)) || (f.info.engine == 6 && stuck f)
  let s := (List.range 2).foldl (fun s d => if (s.die d).cmds.any mine then s.updDie d (fun x => { x with cmds := x.cmds.filter (fun c => !mine c) }) else s) s
  s.updThread tid (fun t =>
    { t with memQ := t.memQ.filter (fun a => !a.feeds (mats.map MatCmd.num) dies), locks := t.locks.filter (fun l => !(ids.contains l.id)),
             faults := t.faults.filter (fun f => !gone f),
             mat := { t.mat with queue := t.mat.queue.filter MatCmd.started } })

/-- A running task, by its number. -/
def State.runTask (s : State) (id : Nat) : Option RunTask := (s.die (id % 2)).running.find? (fun r => r.id == id)

/-- The tasks with a thread on a core, each once. -/
def State.tasksOn (s : State) (c : Nat) : List Nat :=
  (List.range 4).foldl (fun l k =>
    match (s.thread (4 * c + k)).task with
    | some id => if (s.thread (4 * c + k)).st = .free ∨ l.contains id then l else l ++ [id]
    | none => l) []

/-- A core leaves service (R389): every thread on it ends, its queued commands are discarded, and its task is re-queued as by a kill; partners of a
fused set are told (R293). Event 0x0130 names the address of each task's record; one entry without an address where no task has one (log entry 80). -/
def State.leaveService (s : State) (c : Nat) : State :=
  let s := s.updCore c (fun x => { x with inService := false })
  let recs := (s.tasksOn c).filterMap (fun id => (s.runTask id).bind (fun r => r.record.map (fun k => (r.dom, placeVa (id % 2) k))))
  let s := (List.range 4).foldl (fun s k =>
    let t := 4 * c + k
    let th := s.thread t
    if th.st = .free then s
    else
      let ps := s.partners t
      let s := if ps = [] then s else s.updCluster (clusterOf t) (fun x => { x with lost := x.lost ++ [(c % 8, ps)] })
      let s := s.markStopping t .kill
      (s.discardCommands t).retire t) s
  let say (s : State) (dom : Nat) (d0 : Option DWord) : State := s.event (c / 256) 0x0130 (some c) noTid dom d0 none
  (if recs = [] then say s 0 none else recs.foldl (fun s r => say s r.1.toNat (some (BitVec.ofNat 64 r.2))) s).irq

/-! ## Taking a trap -/

/-- The snapshot record of a write in flight: REM counts from the first cycle in which the thread could issue (R56, R250), and is 0 for a write that would
land before it (log entry 32). -/
def snapRec (first : Nat) (f : Flight) : SnapRec := ⟨f.dest, f.val, f.land + 1 - first, f.slot, f.ord⟩

/-- The first cycle from `now` on in which a thread could issue: a stall or a return may hold it, and a wait that ended now would let it issue in the next. -/
def Thread.firstIssue (t : Thread) (now : Nat) : Nat := max t.ready (if t.st = .waiting ∨ t.paused then now + 1 else now)

/-- The return state recorded at trap entry: RUNNING, WAITING or RETIRING (R248). -/
def retState : TState → TState
  | .waiting => .waiting
  | .retiring => .retiring
  | _ => .running

/-- That of a thread: a handler that stands at a wait of its own is WAITING. -/
def Thread.retState (t : Thread) : TState := if t.paused then .waiting else Sys2Proof.Machine.retState t.st

/-- Entry into the handler (R247, R248): the trap record is filled, the writes in flight go to the core's snapshot, the return level
and state are recorded, the walks that the thread's bundle waited for are given up, the thread enters TRAPPED at F, and fetch begins at 64 x $cause, no earlier than cycle t + 6. -/
def State.enterTrap (s : State) (t : Nat) (i : TrapInfo) (xpc : VAddr) : State :=
  let th := s.thread t
  let code := causeCode i.cause
  let ctl := { th.ctl with cause := BitVec.ofNat 8 code, cmdidx := i.cmdidx, engine := i.engine, estat := i.estat,
                           badaddr := i.badaddr, xpc := xpc }
  let recs := th.flight.map (snapRec (th.firstIssue s.cycle)) ++ th.parked
  let snap : Snap :=
    { tid := t, ord := th.ord, dom := th.dom, retF := th.atF, retSt := th.retState, wdone := false, cause := ctl.cause, cmdidx := ctl.cmdidx,
      engine := ctl.engine, estat := ctl.estat, badaddr := ctl.badaddr, xpc := ctl.xpc, recs := recs }
  let s := s.updCore (coreOf t) (fun c => { c with snap := some snap })
  s.setThread t { th with
    st := .trapped, ctl := ctl, ret := ⟨th.atF, th.retState⟩, atF := true, paused := false, traps := th.ord :: th.traps, walked := [], flight := [], parked := [],
    snapped := th.snapped ++ recs.map (fun r => (r, th.ord)), wdone := false, pc := BitVec.ofNat 48 (64 * code), ready := s.cycle + 6 }

/-- A fault of the thread that holds the snapshot (R253): the core halts and leaves service, the snapshot stays, event 0x2F carries the
first and the second cause, and the system cores are interrupted. No thread of the core can take a fault any more. -/
def State.doubleFault (s : State) (t : Nat) (first : BitVec 8) (i : TrapInfo) : State :=
  let c := coreOf t
  let s := s.updCore c (fun x => { x with halted := true })
  let s := (List.range 4).foldl (fun s k => s.updThread (4 * c + k) (fun t => { t with faults := [] })) s
  let s := s.event (dieOf t) 0x2F (some c) t (s.thread t).dom.toNat (some (first.zeroExtend 64)) (some (BitVec.ofNat 64 (causeCode i.cause)))
  (s.leaveService c).irq

/-- Taking a trap, the one operation for every cause (R247 to R249, R253): with the core's snapshot free the thread enters its handler;
while another thread holds it nothing is taken; a fault of the holder itself is a double fault. -/
def State.takeTrap (s : State) (t : Nat) (i : TrapInfo) (xpc : VAddr) : State :=
  match (s.core (coreOf t)).snap with
  | none => (s.enterTrap t i xpc).stopLock t
  | some sn => if sn.tid = t then s.doubleFault t sn.cause i else s

/-- Whether a trap of thread `t` is masked by another thread's snapshot (R249). -/
def State.masked (s : State) (t : Nat) : Bool :=
  match (s.core (coreOf t)).snap with
  | none => false
  | some sn => sn.tid != t

/-- What the bundle in issue has come to. -/
def State.outcome (s : State) (o : Issued) : State := { s with cur := { s.cur with out := o } }

/-- A precise cause found at issue (R246, R249): the bundle has no effect; the trap is taken, or the bundle is held while it is masked,
and its checks are made afresh. -/
def State.raise (s : State) (i : TrapInfo) : State :=
  let s := s.updMe (fun t => { t with walked := [] })
  if s.masked s.cur.tid then s.outcome .held else (s.outcome (.trapped i)).takeTrap s.cur.tid i s.cur.pc

/-- The bundle is held as not issued. -/
def State.hold (s : State) : State := s.outcome .held

/-- ILLEGAL_OP found at execution (R13, R48, R94): the slot, opcode and engine are recorded. -/
def State.illegal (s : State) (opcode engine : Nat) : State :=
  s.raise (trapInfo .illegalOp engine (BitVec.ofNat 64 (s.cur.slot + opcode * 16)))

/-- PRIVILEGED (R18, R13). -/
def State.privileged (s : State) (engine : Nat) : State := s.raise (trapInfo .privileged engine)

/-- A fault of a command from `o` has a thread to go to: it is still on its sequencer, and its core has not halted (R246, R253). -/
def State.hears (s : State) (o : Origin) : Bool :=
  (s.thread o.tid).st != .free && (s.thread o.tid).born == o.born && !(s.core (coreOf o.tid)).halted

/-- An asynchronous fault is reported to the thread that issued the command (R246). -/
def State.postFault (s : State) (o : Origin) (i : TrapInfo) : State :=
  let th := s.thread o.tid
  if s.hears o then s.setThread o.tid { th with faults := th.faults ++ [⟨i, s.cycle, o⟩] } else s

/-- Where a command of the bundle in issue comes from. -/
def State.origin (s : State) : Origin := ⟨s.cur.tid, s.me.born, s.cur.pc, s.me.ord⟩

/-- R39: the operation acts when its guard is true, and otherwise changes no state. -/
def guarded (gd : Guard) (s : State) (f : State → State) : Host.Outcome State Fault Refusal :=
  if s.guard gd then .next (f s) else .next s

/-- A control transfer of the C slot: the next bundle is at the target, two further cycles away (R50). -/
def State.transferTo (s : State) (a : VAddr) : State := { s with cur := { s.cur with target := some a, transfer := true } }

end Sys2Proof.Machine
end

