-- ==== Sys2Proof/Machine/Operands.lean ====
section
/-! DEFINITION. Operand forms: immediates and their extension by K (R43), the rounding fields (R75, R123, R128), masked lanes
(R127), and the reads of system registers (R13). -/

namespace Sys2Proof.Machine

open Sys2Proof

/-! ## Immediates -/

/-- A signed 12-bit immediate, or K read as signed (R43). -/
def immS12 (i : BitVec 12) (kw : Option Word) : DWord :=
  match kw with
  | some k => k.signExtend 64
  | none => i.signExtend 64

/-- A signed 17-bit immediate, or K read as signed (R43). -/
def immS17 (i : BitVec 17) (kw : Option Word) : DWord :=
  match kw with
  | some k => k.signExtend 64
  | none => i.signExtend 64

/-- A branch offset in halfwords: OFF21 or K, both signed (R43). -/
def off21 (o : BitVec 21) (kw : Option Word) : VAddr :=
  match kw with
  | some k => k.signExtend 48
  | none => o.signExtend 48

/-- A zero-extended 12-bit immediate, or K read as unsigned (R43), as 64 bits. -/
def immZ12 (i : BitVec 12) (kw : Option Word) : DWord := BitVec.ofNat 64 (immU12 i kw)

/-- The effective address of Form E and of the base and offset forms: (s[b] + sext(imm))[47:0] (R178). -/
def State.ea (s : State) (b : BitVec 5) (i : BitVec 12) (kw : Option Word) : VAddr := (s.s b + immS12 i kw).setWidth 48

/-! ## Rounding fields -/

/-- The mode of a code of Table 3-3, RST with its value. -/
def modeOf (code u : Nat) : Fp.Mode :=
  match code with
  | 0 => .rne | 1 => .rtz | 2 => .rup | 3 => .rdn | 4 => .rod | _ => .rst u

/-- FN[3:0] of the scalar rounding instructions (R123): a named mode, or $round. -/
def State.roundCode4 (s : State) (r : BitVec 4) : Nat := if r = 0 then s.src.ctl.round.toNat else r.toNat - 8

/-- The vector rounding field RM (R128): $round, or Table 3-3 code RM - 1. -/
def State.roundCode3 (s : State) (r : BitVec 3) : Nat := if r = 0 then s.src.ctl.round.toNat else r.toNat - 1

/-- The modes of `n` results under a code: RST takes n values, in order, and no other mode draws (R74, R77). -/
def State.modes (s : State) (code n : Nat) : (Nat → Fp.Mode) × State :=
  if code = 5 then
    let (us, s) := s.draws16 n
    (fun i => modeOf 5 (nth 0 us i), s)
  else (fun _ => modeOf code 0, s)

/-! ## Masked lanes -/

/-- Lane i is active under mask register k (R127). -/
def State.active {n : Nat} (s : State) (k : BitVec n) (i : Nat) : Bool := (s.m k).getLsbD i

/-- R127: active lanes take the result; the others become 0 under Z, and keep the destination otherwise. -/
def State.masked127 (s : State) (d : BitVec 5) (z : BitVec 1) (k : BitVec 3) (f : Nat → Word) : VecReg :=
  let old := s.v d
  ofLanes (fun i => if s.active k i then f i else if z = 1 then 0 else lane old i)

/-! ## System registers -/

/-- $gid (Table 1-5). -/
def Thread.gid (t : Thread) : DWord :=
  match t.grp with
  | none => 0
  | some (g, m) => BitVec.ofNat 64 (g + m * 512 + 0x8000)

/-- $stage of the thread's task (R344). -/
def State.stageOf (s : State) (tid : Nat) : Nat :=
  match (s.thread tid).task with
  | none => 0
  | some id => (((s.die (id % 2)).running.find? (fun r => r.id == id)).map RunTask.stage).getD 0

/-- The system register of a number, as the bundle in issue reads it (Table 1-3), zero-extended (R121). -/
def State.sysRead (s : State) (n : Nat) : DWord :=
  let tid := s.cur.src
  let t := s.src
  if n = 0x000 then BitVec.ofNat 64 tid
  else if n = 0x001 then BitVec.ofNat 64 (tid / 4 % 8)
  else if n = 0x002 then BitVec.ofNat 64 (tid / 32 % 32)
  else if n = 0x003 then BitVec.ofNat 64 (dieOf tid)
  else if n = 0x004 then s.hub.device.setWidth 64
  else if n = 0x005 then t.gid
  else if n = 0x006 then BitVec.ofNat 64 (t.dom.toNat + b2n t.atF * 128)
  else if n = 0x008 then t.ctl.cause.setWidth 64
  else if n = 0x009 then t.ctl.cmdidx.setWidth 64
  else if n = 0x00A then t.ctl.engine.setWidth 64
  else if n = 0x00B then t.ctl.estat
  else if n = 0x00C then t.ctl.badaddr.setWidth 64
  else if n = 0x00D then t.ctl.xpc.setWidth 64
  else if n = 0x010 then t.ctl.round.setWidth 64
  else if n = 0x011 then t.ctl.fstat.setWidth 64
  else if n = 0x012 then t.ctl.stallchk.setWidth 64
  else if n = 0x013 then t.ctl.cmask.setWidth 64
  else if n = 0x014 then BitVec.ofNat 64 (s.stageOf tid)
  else if 0x018 ≤ n ∧ n ≤ 0x01B then tget 0 t.regs.seed (n - 0x018)
  else if 0x020 ≤ n ∧ n ≤ 0x02F then tget 0 t.regs.win (n - 0x020)
  else if 0x030 ≤ n ∧ n ≤ 0x03F then tget 0 t.regs.allow (n - 0x030)
  else 0

/-- A value written by MOVZ sets a reserved bit of the register, a bit at or above its width, or a code the register refuses (R13,
Table 1-3, R404). -/
def movzReserved (n : Nat) (x : DWord) : Bool :=
  match sysRegInfo n with
  | none => true
  | some r =>
    decide (2 ^ r.width ≤ x.toNat) || (n == 0x010 && decide (6 ≤ x.toNat)) ||
    (decide (0x020 ≤ n) && decide (n ≤ 0x02F) &&
      (decide (2 ^ 26 ≤ x.toNat) || nbits x.toNat 21 2 == 3 || decide (6 ≤ nbits x.toNat 23 3))) ||
    (decide (0x030 ≤ n) && decide (n ≤ 0x03F) && decide (2 ^ 32 ≤ x.toNat))

end Sys2Proof.Machine
end

