-- ==== Sys2Proof/Machine/Map.lean ====
section
/-! DEFINITION. The address map of a thread (R297 to R299), translation (R300 to R304), memory encryption (R374 to R376), and the
fetch of code (R21, R254). -/

namespace Sys2Proof.Machine

open Sys2Proof

/-- Kinds of access for the checks of Table 14-3. -/
inductive AccKind where
  | read | write | atomic | fetch
  deriving DecidableEq, Repr

/-- The kind reads; it writes. -/
def AccKind.reads : AccKind → Bool
  | .read => true | .atomic => true | _ => false
def AccKind.writes : AccKind → Bool
  | .write => true | .atomic => true | _ => false

/-- The record of a translation or permission fault (R301): sub-code, level, write and fetch bits; a fetch records engine 0. -/
def mapFault (sub level : Nat) (k : AccKind) (engine va : Nat) : TrapInfo :=
  let c : Cause := if sub < 0x10 then .translation else .permission
  let e := if k = .fetch then 0 else engine
  let estat : DWord := BitVec.ofNat 64 (sub + level * 256 + b2n k.writes * 1024 + b2n (k = .fetch) * 2048)
  trapInfo c e estat (BitVec.ofNat 48 va)

/-- The ranges of Table 14-1 as a thread sees them; its own window is its own scratchpad (R267). -/
inductive Region where
  | own (off : Nat)
  | peer (core off : Nat)
  | window (k off : Nat)
  | die (d off : Nat) (same : Bool)
  | hbm
  | hole
  deriving DecidableEq, Repr

/-- The range an address of a sequencer lies in (Table 14-1). -/
def regionOf (tid va : Nat) : Region :=
  let d := dieOf tid
  if va < 0x100000 then .own va
  else if va < 0x900000 then
    let c := coreOf tid / 8 * 8 + (va - 0x100000) / 0x100000
    let off := va % 0x100000
    if c = coreOf tid then .own off else .peer c off
  else if va < 0x1000000 then .hole
  else if va < 0x2000000 then .window (va / 0x100000 % 16) (va % 0x100000)
  else if va < 0x10000000 then .hole
  else if va < 0x14000000 then .die d (va - 0x10000000) true
  else if va < 0x18000000 then .die (1 - d) (va - 0x14000000) false
  else if va < 0x100000000 then .hole
  else .hbm

/-- The inbound queue area and the firmware stack region of a scratchpad (R165, R269). -/
def isReserved (off : Nat) : Bool := 0xF6000 ≤ off

/-- An entry of the range scoreboard covers whole granules of 64 bytes (R168). -/
def rangeEnt (lo hi owner : Nat) : RangeEnt := ⟨lo / 64 * 64, (hi + 63) / 64 * 64, owner⟩

/-! ## Keys -/

def State.keySlot (s : State) (k : Nat) : KeySlot := tget ⟨k == 0, 0, 0⟩ s.hub.keys k

/-- The identity of the key a slot holds: it changes with every rewrite of the slot. -/
def State.keyIdent (s : State) (k : Nat) : Nat := 1 + k + 64 * (s.keySlot k).version

/-! ## Tag frames -/

def Tag.empty : Tag := ⟨none, [], false, false, 0, 0⟩

def Rec.words (r : Rec) : List Nat :=
  [r.tid, r.wr.toNat, r.rd.toNat, b2n r.atom] ++ r.cnt ++ (match r.ring with | some k => [1, k.1, k.2] | none => [0]) ++
  (match r.popped with | some p => [1, p.ring, p.push, p.slots, p.wr.toNat, p.rd.toNat] | none => [0])

/-- What a tag holds, as numbers, without what data has done to its frame. -/
def Tag.words (t : Tag) : List Nat :=
  (match t.writer with | some r => 1 :: r.words | none => [0]) ++ t.readers.flatMap Rec.words ++ [b2n t.lr, b2n t.la, t.lw.toNat]

/-- The granule whose tag frame covers a byte of HBM, and which of the frame's bytes it is (R317). -/
def State.frameOf (s : State) (pa : Nat) : Option (Nat × Nat) :=
  let o := pa - s.hub.tpbase
  if s.hub.tpbase ≤ pa ∧ o / 8 < (s.hub.tphi - s.hub.tplo) / 64 then some (s.hub.tplo / 64 + o / 8, o % 8) else none

/-- A byte of a tag frame that the tag has overwritten (R317, log entry 25). -/
def State.frameByte (s : State) (pa : Nat) : Option Byte :=
  match s.frameOf pa with
  | none => none
  | some (g, i) =>
    let t := tget .empty s.tags g
    if t.lost.getLsbD i ∨ { t with lost := 0 } = Tag.empty then none else some (Config.tagByte t.words i)

/-- A byte of data overwrites its part of a tag frame (R317). -/
def State.overTag (s : State) (pa : Nat) : State :=
  match s.frameOf pa with
  | none => s
  | some (g, i) =>
    let t := tget .empty s.tags g
    { s with tags := tset s.tags g { t with lost := t.lost ||| BitVec.ofNat 8 (2 ^ i) } }

/-- The tag of a granule as a check reads it: an arbitrary one where data has overwritten its frame (R317, log entry 25). -/
def State.tagAt (s : State) (g : Nat) : Tag :=
  let t := tget .empty s.tags g
  if t.lost = 0 then t
  else
    let bytes := (s.bytesAt (s.hub.tpbase + 8 * (g - s.hub.tplo / 64)) 8).map BitVec.toNat
    let f := Config.tagField (bytes ++ [t.lost.toNat] ++ t.words)
    let rec0 (k : Nat) : Rec :=
      ⟨f k % 2048, BitVec.ofNat 16 (f (k + 1)), BitVec.ofNat 16 (f (k + 2)), f (k + 3) % 2 == 1, (List.range 4).map (fun i => f (k + 4 + i) % 2 ^ 18), none, none⟩
    ⟨some (rec0 0), [rec0 10, rec0 20], f 30 % 2 == 1, f 31 % 2 == 1, BitVec.ofNat 16 (f 32), t.lost⟩

/-- A byte of HBM read with a key (R374): its value where the key is the one that encrypted its unit (or nothing has written the
unit); otherwise another byte, a free value. A byte of a tag frame reads as the tag left it (R317). -/
def State.hbmByte (s : State) (pa key : Nat) : Byte :=
  match s.frameByte pa with
  | some b => b
  | none =>
    let k := tget 0 s.keyOf (pa / 16)
    let b := s.byteAt pa
    if k = 0 ∨ k = key then b else Config.wrongKeyByte pa b k key

def State.hbmBytes (s : State) (pa key : Nat) : Nat → List Byte
  | 0 => []
  | n + 1 => s.hbmByte pa key :: s.hbmBytes (pa + 1) key n

/-- A 16-byte unit is encrypted again under a key: its bytes take the values that key reads (R374). -/
def State.rekey (s : State) (unit key : Nat) : State :=
  let k := tget 0 s.keyOf unit
  if k = key then s
  else
    let s := if k = 0 then s else s.putBytes (16 * unit) (s.hbmBytes (16 * unit) key 16)
    { s with keyOf := tset s.keyOf unit key }

def State.hbmPut (s : State) (pa key : Nat) : List Byte → State
  | [] => s
  | b :: bs => (((s.rekey (pa / 16) key).putByte pa b).overTag pa).hbmPut (pa + 1) key bs

/-! ## Bytes at a place -/

/-- `n` bytes at a place (R3). -/
def State.placeBytes (s : State) (p : Place) (n : Nat) : List Byte :=
  match p.home with
  | .hbm => s.hbmBytes p.key (s.keyIdent p.keyId) n
  | _ => s.bytesAt p.key n

/-- A store over whole words clears their error state (R166). -/
def State.clearEcc (s : State) (key n : Nat) : State :=
  { s with ecc := s.ecc.filter (fun e => !(decide (key ≤ 4 * e.1) && decide (4 * e.1 + 4 ≤ key + n))) }

/-- Bytes are stored at a place (R3). -/
def State.putPlace (s : State) (p : Place) (bs : List Byte) : State :=
  let s := s.clearEcc p.key bs.length
  match p.home with
  | .hbm => s.hbmPut p.key (s.keyIdent p.keyId) bs
  | _ => s.softBytes p.key bs

/-- The first word with an uncorrectable error among `n` bytes (R166), but those that `mended` names, or one of a bank or region without a spare (Table 18-5). -/
def State.badWordBut (s : State) (mended : Nat → Bool) (key n : Nat) : Option Nat :=
  match s.ecc.find? (fun e => e.2 == 1 && !mended (4 * e.1) && decide (4 * e.1 < key + n) && decide (key < 4 * e.1 + 4)) with
  | some e => some (4 * e.1)
  | none =>
    if s.hub.dead = [] then none
    else ((List.range ((key % 4 + n + 3) / 4)).map (fun i => key / 4 * 4 + 4 * i)).find? (fun k => s.hub.dead.contains (unitOf k))

def State.badWord (s : State) (key n : Nat) : Option Nat := s.badWordBut (fun _ => false) key n

/-- The first word with an uncorrectable error among those that a store of `n` bytes covers in part (R166), but those that `mended` names. -/
def State.badPartial (s : State) (mended : Nat → Bool) (key n : Nat) : Option Nat :=
  let part (k : Nat) (whole : Bool) : Option Nat := if whole then none else s.badWordBut mended (k / 4 * 4) 4
  match part key (key % 4 = 0 ∧ 4 ≤ n) with
  | some w => some w
  | none => part (key + n - 1) ((key + n) % 4 = 0)

/-! ## The table walk -/

/-- The index of an address at a level of Table 14-2a. -/
def walkIndex (level va : Nat) : Nat :=
  match level with
  | 0 => nbits va 39 9
  | 1 => nbits va 30 9
  | 2 => nbits va 21 9
  | _ => nbits va 16 5

/-- The checks of Table 14-3 and R376 on a leaf, in the order of their sub-codes. -/
def State.leafFault (s : State) (dom : BitVec 6) (e level : Nat) : Option Nat :=
  let pa := nbits e 16 31 * 256
  let size := if level = 2 then 0x200000 else 0x10000
  let key := nbits e 8 6
  let ks := s.keySlot key
  if pa % size ≠ 0 then some 0x02
  else if 0x7FFFFFFFFF < pa + size - 1 then some 0x03
  else if e.testBit 5 ∧ ¬ (s.hub.tplo ≤ pa ∧ pa + size ≤ s.hub.tphi) then some 0x04
  else if s.hub.partLo < pa + size ∧ pa < s.hub.partHi then some 0x06
  else if ¬ ks.loaded ∨ (ks.owner ≠ dom ∧ ks.owner ≠ 0) then some 0x07
  else none

/-- One level of the walk and those below it (R301): the first fault of Table 14-3 ends it. `fuel` counts the levels left. -/
def State.walkFrom (s : State) (dom : BitVec 6) (va : Nat) : Nat → Nat → Nat → WalkEnd
  | 0, level, _ => .fault 0x02 level
  | fuel + 1, level, base =>
    let e := leNat (s.hbmBytes (base + 8 * walkIndex level va) (s.keyIdent 0) 8)
    let isLeaf := e.testBit 1
    let reserved := nbits e 6 2 ≠ 0 ∨ nbits e 14 2 ≠ 0 ∨ nbits e 47 17 ≠ 0
    if ¬ e.testBit 0 then .fault 0x01 level
    else if reserved ∨ (isLeaf ∧ level < 2) ∨ (¬ isLeaf ∧ level = 3) then .fault 0x02 level
    else if isLeaf then
      match s.leafFault dom e level with
      | some sub => .fault sub level
      | none =>
        let size := if level = 2 then 0x200000 else 0x10000
        .leaf { dom := dom, va := va / size * size, size := size, pa := nbits e 16 31 * 256, r := e.testBit 2, w := e.testBit 3,
                x := e.testBit 4, chk := e.testBit 5, key := BitVec.ofNat 6 (nbits e 8 6), stamp := s.cycle } level
    else
      let next := nbits e 16 31 * 256
      let tsize := if level = 2 then 256 else 4096
      if nbits e 2 4 ≠ 0 ∨ nbits e 8 6 ≠ 0 ∨ next % tsize ≠ 0 then .fault 0x02 level
      else if 0x7FFFFFFFFF < next + tsize - 1 then .fault 0x03 level
      else s.walkFrom dom va fuel (level + 1) next

/-- A whole walk (R301): a domain without a root faults 0x05. -/
def State.walk (s : State) (dom : BitVec 6) (va : Nat) : WalkEnd :=
  match s.hub.roots.find? (fun e => e.1 == dom.toNat) with
  | none => .fault 0x05 0
  | some (_, r) => s.walkFrom dom va 4 0 r.toNat

/-- The table entries that a walk reads: their physical addresses, from the level and the table it has come to. -/
def State.walkReads (s : State) (va : Nat) : Nat → Nat → Nat → List Nat
  | 0, _, _ => []
  | fuel + 1, level, base =>
    let a := base + 8 * walkIndex level va
    let e := leNat (s.hbmBytes a (s.keyIdent 0) 8)
    a :: if e.testBit 0 && !e.testBit 1 then s.walkReads va fuel (level + 1) (nbits e 16 31 * 256) else []

/-- A walk reads a region of HBM under test, and waits (R388). -/
def State.walkTested (s : State) (dom : BitVec 6) (va : Nat) : Bool :=
  match s.hub.roots.find? (fun e => e.1 == dom.toNat) with
  | none => false
  | some (_, r) => (s.walkReads va 4 0 r.toNat).any s.regionTested

/-- A leaf joins a buffer of `n` entries, the oldest giving way (R303). -/
def tlbAdd (n : Nat) (l : Leaf) (b : List Leaf) : List Leaf :=
  let b := b.filter (fun x => !(x.dom == l.dom && x.va == l.va && x.size == l.size))
  (if n ≤ b.length then b.drop (b.length + 1 - n) else b) ++ [l]

/-! ## Translation -/

def Leaf.covers (l : Leaf) (dom : BitVec 6) (va : Nat) : Bool := l.dom == dom && decide (l.va ≤ va) && decide (va < l.va + l.size)

/-- A lookup tries the core's buffer, then the die's (R303). -/
def State.tlbFind (s : State) (core : Nat) (dom : BitVec 6) (va : Nat) : Option Leaf :=
  match (s.core core).tlb.find? (fun l => l.covers dom va) with
  | some l => some l
  | none => (s.die (core / 256)).tlb.find? (fun l => l.covers dom va)

/-- What a lookup ends with: a physical address, a fault, or a walk to wait for. -/
inductive Xlated where
  | ok (pa : Nat) (l : Leaf)
  | fault (i : TrapInfo)
  | walk (page : Nat)
  deriving DecidableEq, Repr

/-- The permission check of a leaf (Table 14-3): an atomic needs R and W. -/
def Leaf.denies (l : Leaf) (k : AccKind) : Option Nat :=
  if k = .fetch then (if l.x then none else some 0x12)
  else if k.reads ∧ ¬ l.r then some 0x10
  else if k.writes ∧ ¬ l.w then some 0x11
  else none

/-- The result that a requester has received of the walk of an address's page. -/
def walkOf (got : List PageWalk) (dom : BitVec 6) (va : Nat) : Option WalkEnd :=
  got.findSome? (fun w => if w.dom = dom ∧ w.page = va / 65536 then w.res else none)

/-- The level of a leaf (Table 14-2a). -/
def Leaf.level (l : Leaf) : Nat := if l.size = 0x200000 then 2 else 3

/-- Translation of an HBM address for an access of a sequencer's domain: by the buffers, or by the walk it waits for; a walk
gives its result, leaf or fault, to every requester (R303). -/
def State.xlate (s : State) (core : Nat) (dom : BitVec 6) (got : List PageWalk) (k : AccKind) (engine va : Nat) : Xlated :=
  let take (l : Leaf) : Xlated :=
    match l.denies k with
    | some sub => .fault (mapFault sub l.level k engine va)
    | none => .ok (l.pa + (va - l.va)) l
  match s.tlbFind core dom va, walkOf got dom va with
  | some l, _ => take l
  | none, some (.leaf l _) => take l
  | none, some (.fault sub level) => .fault (mapFault sub level k engine va)
  | none, none => .walk (va / 65536)

/-! ## The engines' translations (R302, R303) -/

/-- The translation of an address for an engine (R302, R303): of a page that it holds, pinned or as its walk has ended; of the die's buffer; or the fault of its
walk. An engine waits for the walks of the pages it reaches before it reaches them (`State.engMissing`), so that the last case, which reads the tables, never decides. -/
def State.dieLeaf (s : State) (die : Nat) (got : List PageWalk) (dom : BitVec 6) (va : Nat) : WalkEnd :=
  match walkOf got dom va, (s.die die).tlb.find? (fun l => l.covers dom va) with
  | some (.leaf l n), _ => .leaf l n
  | _, some l => .leaf l l.level
  | some f, none => f
  | none, none => s.walk dom va

/-- The pages of some addresses in HBM. -/
def hbmPages (vas : List Nat) : List Nat := ((vas.filter (fun va => decide (0x100000000 ≤ va))).map (· / 65536)).eraseDups

/-- The results that an engine of a die has received and not yet used. -/
def State.engGot (s : State) (die : Nat) (who : Asker) : List PageWalk := ((s.die die).walked.filter (fun w => w.1 == who)).map Prod.snd

/-- Those of some pages whose translation is neither in the die's buffer nor among some results. -/
def State.engMissing (s : State) (die : Nat) (got : List PageWalk) (dom : BitVec 6) (pages : List Nat) : List Nat :=
  pages.filter (fun p => !(s.die die).tlb.any (fun l => l.covers dom (65536 * p)) && (walkOf got dom (65536 * p)).isNone)

/-- The translation of an address lies in a region of HBM under test, which its access waits for (R388). -/
def State.leafTested (s : State) (va : Nat) : WalkEnd → Bool
  | .leaf l _ => s.regionTested (l.pa + (va - l.va))
  | .fault _ _ => false

/-- Some pages that an engine reaches lie in regions under test. -/
def State.pagesTested (s : State) (die : Nat) (got : List PageWalk) (dom : BitVec 6) (pages : List Nat) : Bool :=
  s.hub.units != [] && pages.any (fun p => s.leafTested (65536 * p) (s.dieLeaf die got dom (65536 * p)))

/-- A requester joins the walk pending on a page, or a new one, for the buffers of some cores (R303). -/
def State.joinWalk (s : State) (die : Nat) (dom : BitVec 6) (page : Nat) (cores : List Nat) : State :=
  s.updDie die (fun d =>
    let hit (w : Walk) : Bool := w.dom == dom && w.page == page
    { d with walks := if d.walks.any hit then d.walks.map (fun w => if hit w then { w with cores := w.cores ++ cores.filter (fun c => !w.cores.contains c) } else w)
                       else d.walks ++ [⟨dom, page, cores, s.cycle, false⟩] })

/-- An engine waits for the translation of pages (R303). -/
def State.engAsk (s : State) (die : Nat) (who : Asker) (dom : BitVec 6) (pages : List Nat) (cores : List Nat := []) : State :=
  pages.foldl (fun s p => (s.joinWalk die dom p cores).updDie die (fun d =>
    if d.walked.any (fun w => w.1 == who && w.2.dom == dom && w.2.page == p) then d else { d with walked := d.walked ++ [(who, ⟨dom, p, none⟩)] })) s

/-- The access that an engine asked for has been made: what it received is used, and a later access looks the pages up again (R303). -/
def State.engTaken (s : State) (die : Nat) (who : Asker) : State :=
  if (s.die die).walked = [] then s else s.updDie die (fun d => { d with walked := d.walked.filter (fun w => w.1 != who) })

/-! ## Locating an access -/

/-- Where one aligned piece of an access goes. -/
inductive Located where
  | ok (p : Place)
  | fault (i : TrapInfo)
  | walk (page : Nat)
  deriving DecidableEq, Repr

/-- R299: an access of a domain to a block of die memory is denied. -/
def State.ownDenies (s : State) (d off : Nat) (dom : BitVec 6) (k : AccKind) : Bool :=
  let e := (s.ownEntry d (off / 65536)).toNat
  decide (e % 64 ≠ dom.toNat) || (k.reads && !e.testBit 6) || (k.writes && !e.testBit 7)

/-- Steps 2 to 5 of Table 7-7 for one aligned piece of an access of thread `t` on sequencer `tid` (R165, R183, R269, R297, R299, R403,
R405); `scope` is an atomic's. -/
def State.locate (s : State) (tid : Nat) (t : Thread) (k : AccKind) (scope : Option Nat) (engine va : Nat) : Located :=
  let deny (sub : Nat) : Located := .fault (mapFault sub 0 k engine va)
  let within (ok : Bool) (p : Place) : Located :=
    if ok then .ok p else .fault (trapInfo .atomicScope engine 0 (BitVec.ofNat 48 va))
  match regionOf tid va with
  | .hole => deny 0x13
  | .own off =>
    if ¬ t.atF ∧ isReserved off then deny 0x15
    else within (match scope with | none => true | some sc => sc ≤ 2) ⟨padPlace (coreOf tid) off, .own, true, 0⟩
  | .peer c off =>
    if ¬ t.atF ∧ isReserved off then deny 0x15
    else within (match scope with | none => true | some sc => sc == 2) ⟨padPlace c off, .peer c, true, 0⟩
  | .window w off =>
    if ¬ (tget 0 t.regs.win w).getLsbD 0 then deny 0x16
    else if k = .write ∧ scope.isNone ∧ ¬ t.atF ∧ t.dom ≠ s.hub.pod.dom then deny 0x17
    else if ¬ t.atF ∧ isReserved off then deny 0x15
    else if k ≠ .write ∨ scope.isSome then .fault (trapInfo .windowLoad engine 0 (BitVec.ofNat 48 va))
    else .ok ⟨off, .window w, false, 0⟩
  | .die d off same =>
    if ¬ t.atF ∧ s.ownDenies d off t.dom k then deny 0x14
    else within (match scope with | none => true | some sc => sc == 4 || (same && sc ≤ 3)) ⟨diePlace d off, .die same, true, 0⟩
  | .hbm =>
    if (match scope with | none => false | some sc => sc != 4) then .fault (trapInfo .atomicScope engine 0 (BitVec.ofNat 48 va))
    else
      match s.xlate (coreOf tid) t.dom t.walked k engine va with
      | .ok pa l => .ok ⟨pa, .hbm, l.chk, l.key.toNat⟩
      | .fault i => .fault i
      | .walk p => .walk p

/-- Cycles from issue until a load's result lands (Table 14-4). -/
def Home.loadLatency : Home → Nat
  | .own => 3
  | .peer _ => 14
  | .window _ => 0
  | .die true => 40
  | .die false => 110
  | .hbm => 320

/-- Cycles from issue until a store's or an atomic's check is answered (Table 14-4); for the issue cycle, 0. -/
def Place.answer (p : Place) : Nat :=
  match p.home with
  | .own => 0
  | .peer _ => 12
  | .window _ => 0
  | .die true => 30
  | .die false => 90
  | .hbm => if p.checked then 280 else 0

/-! ## Code -/

/-- What a fetch finds: the bytes of its line from the address on, a fault, a line to fill, or a walk to wait for. -/
inductive Fetched where
  | bytes (bs : List Byte)
  | fault (i : TrapInfo)
  | fill (line : Nat)
  | walk (page : Nat)
  deriving DecidableEq, Repr

/-- The address lies in one of the untranslated ranges of Table 14-1, the holes apart (R21). -/
def fetchSub (tid va : Nat) : Nat :=
  match regionOf tid va with
  | .hole => 0x13
  | _ => 0x12

/-- The bytes of a resident line, from an offset on. -/
def Line.from (l : Line) (off : Nat) : List Byte := natBytes (64 - off) (l.data.toNat / 2 ^ (8 * off))

/-- A fetch at an address (R21, R254): at F from the die's firmware store; at T from the resident line of the thread's domain, which is
filled from HBM once the address is translated for fetch. -/
def State.fetch (s : State) (tid : Nat) (t : Thread) (va : Nat) : Fetched :=
  let off := va % 64
  if t.atF then
    if 0x3FFFF < va then .fault (mapFault 0x13 0 .fetch 0 va)
    else if (s.badWord (storePlace (dieOf tid) (va - off)) 64).isSome then .fault (trapInfo .uncorrectableMemory 0 2048 (BitVec.ofNat 48 va))
    else .bytes (s.bytesAt (storePlace (dieOf tid) va) (64 - off))
  else if va < 0x100000000 then .fault (mapFault (fetchSub tid va) 0 .fetch 0 va)
  else
    match (s.core (coreOf tid)).istore.find? (fun l => l.dom == t.dom && l.va == va - off) with
    | some l => .bytes (l.from off)
    | none =>
      match s.xlate (coreOf tid) t.dom t.walked .fetch 0 va with
      | .ok pa _ =>
        if (s.badWord (pa - off) 64).isSome then .fault (trapInfo .uncorrectableMemory 0 2048 (BitVec.ofNat 48 va)) else .fill (va - off)
      | .fault i => .fault i
      | .walk p => .walk p

/-- The size of the bundle whose header stands at `h`, or the distance to the next line for a line-skip (Table 4-1). -/
def headerSize (h : Nat) (bs : List Byte) : Nat :=
  let w := leNat (bs.take 2)
  if w = 0x8000 then 64 - h % 64 else headerLen w

/-- Continue after the bundle at `h`, whose header is read as an instruction fetch at the thread's level and domain (R93): a fault of
that read traps with $badaddr = h and the instruction's own bundle has no effect. -/
def State.afterBundle (s : State) (h : Nat) (f : State → VAddr → State) : State :=
  match s.fetch s.cur.src s.src h with
  | .bytes bs => f s (BitVec.ofNat 48 (h + headerSize h bs))
  | .fault i => s.raise i
  | .fill l => s.outcome (.line l)
  | .walk p => s.outcome (.walk s.src.dom p)

end Sys2Proof.Machine
end

