-- ==== Sys2Proof/Machine/Order.lean ====
section
/-! DEFINITION. What a release waits for (R308, R309, R311): the accesses of its thread that have not performed, the writes that have not completed at
their homes, and the streams of earlier calls. -/

namespace Sys2Proof.Machine

open Sys2Proof

/-- A store into a window or a FRED contribution, which no other access of the thread waits for (R311). -/
def MemOp.outbound : MemOp → Bool
  | .packets _ _ => true
  | .sending => true
  | _ => false

/-- A queue entry is a message, which software takes; the others are writes and atomics (R271). -/
def QEntry.isMsg (e : QEntry) : Bool := e.kind == 3

/-- The thread has entries in a core's queue from its own core that are not applied (R274). -/
def State.entriesAt (s : State) (tid core : Nat) : Bool :=
  (tget ⟨[], 0⟩ (s.core core).inq (coreOf tid % 8)).ents.any (fun e => !e.isMsg && e.asker == tid)

/-- A store or atomic of the thread waits in a queue of its cluster, or a delivery of its push is on its way: a write that has not completed (R311). -/
def State.writesAway (s : State) (tid : Nat) : Bool :=
  (List.range 8).any (fun k => s.entriesAt tid (clusterOf tid * 8 + k)) || (s.cluster (clusterOf tid)).deliveries.any (fun d => d.producer == tid)

/-- The commands of a queue that count while a bundle waits: all, but in a halted queue only the handler's and those that run on (R221, R222). -/
def Mat.live (m : Mat) : List MatCmd :=
  let ahead (c : MatCmd) : Bool := !c.isFailed
  m.queue.takeWhile ahead ++ (m.queue.dropWhile ahead).filter MatCmd.started

/-- A command of the queue is one of those. -/
def Mat.lives (m : Mat) (c : MatCmd) : Bool := m.live.any (fun d => d.num == c.num)

/-- The core's flow pattern is MV, or a queued command makes it MV: the reads of a call's streams are accesses of its thread (R206, R312). -/
def State.mayStream (s : State) (core : Nat) : Bool :=
  (s.core core).arr.flow.pattern == 2 || (List.range 4).any (fun k => (s.thread (4 * core + k)).mat.queue.any (fun c =>
    match c.op with | .flow p _ => p == 2 | _ => false))

/-- An earlier MCALL of the thread that has not started may have streams to read (R308, R312). -/
def State.streamsAhead (s : State) (tid ord : Nat) : Bool :=
  (s.thread tid).mat.live.any (fun c => decide (c.org.bundle < ord) && !c.started && (match c.op with | .call _ _ _ _ _ _ => true | _ => false)) &&
    s.mayStream (coreOf tid)

/-- Every earlier access of the thread has performed, but stores into windows, and its writes have completed (R308, R311). The spec does not say whether an access
of the same bundle lies before the release or after it: the operation does not wait for it, and its record is of the region that the release ends, the
model's choice (log entry 76). -/
def State.drained (s : State) : Bool :=
  s.me.memQ.all (fun a => a.ord == s.me.ord || a.op.outbound) && !s.writesAway s.cur.tid && !s.streamsAhead s.cur.tid s.me.ord

/-- A synchronisation operation of the C slot with release: it waits until every earlier access has performed (R309, R311). -/
def State.whenDrained (s : State) (f : State → State) : State := if s.drained then f s else s.hold

end Sys2Proof.Machine
end

