-- ==== Sys2Proof/Machine/Control.lean ====
section
/-! DEFINITION. The C slot: branches and calls, loops, the end of a thread, YIELD, groups and barriers (R95 to R113). -/

namespace Sys2Proof.Machine

open Sys2Proof

/-! ## Shared operations -/

/-- A register target: bits 47:0; bit 0 set traps MISALIGNED with $badaddr the target (R95). -/
def State.jumpTo (s : State) (x : DWord) (f : State → VAddr → State) : State :=
  let t := x.setWidth 48
  if t.getLsbD 0 then s.raise (trapInfo .misaligned 0 0 t) else f s t

/-- The link value: NEXT and the loop-stack depth (Table 4-2). -/
def State.link (s : State) : DWord := BitVec.ofNat 64 (s.cur.next.toNat + s.src.loops.length * 2 ^ 48)

/-- The target of a relative branch: PC + 2 x offset (R97). -/
def State.branchTarget (s : State) (o : BitVec 21) (kw : Option Word) : VAddr := s.cur.pc + 2 * off21 o kw

/-- LOOP_STACK with its sub-code in $estat[7:0] and engine 0 (R102). -/
def State.loopTrap (s : State) (sub : Nat) : State := s.raise (trapInfo .loopStack 0 (BitVec.ofNat 64 sub))

/-- GROUP with its sub-code (R25). -/
def State.groupTrap (s : State) (sub : Nat) : State := s.raise (trapInfo .group 0 (BitVec.ofNat 64 sub))

/-- The innermost loop encloses the opening bundle, and the new end lies beyond its end (R99). -/
def badNesting (loops : List LoopEntry) (pc e : VAddr) : Bool :=
  match loops with
  | [] => false
  | l :: _ => decide (l.start ≤ pc) && decide (pc ≤ l.last) && decide (l.last < e)

/-- LOOP and LOOPR (R99): `bl` halfwords from NEXT to the last bundle, `c` iterations. -/
def State.openLoop (s : State) (bl : Nat) (c : Nat) : State :=
  let e := s.cur.next + BitVec.ofNat 48 (2 * bl)
  if 6 ≤ s.src.loops.length then s.loopTrap 0x01
  else if badNesting s.src.loops s.cur.pc e then s.loopTrap 0x05
  else if 0xFFFFFFFF < c then s.loopTrap 0x03
  else if c = 0 then s.afterBundle e.toNat State.transferTo
  else s.updMe (fun t => { t with loops := ⟨s.cur.next, e, BitVec.ofNat 32 c, 0⟩ :: t.loops })

/-- The thread in issue waits (R19): at a C-slot instruction, or for a command. The place of its bundle is recorded once (R261). -/
def State.waitFor (s : State) (w : Wait) : State := s.updMe (fun t => t.park (s.cur.pc, t.loops) (some w) none)
def State.waitX (s : State) (id : Nat) : State := s.updMe (fun t => t.park (s.cur.pc, t.loops) none (some id))

/-! ## Branches and calls -/

/-- NOP has no effect (R104). -/
def execNop (gd : Guard) (s : State) : Host.Outcome State Fault Refusal := guarded gd s id

/-- BR (R97). -/
def execBr (gd : Guard) (o : BitVec 21) (kw : Option (BitVec 32)) (s : State) : Host.Outcome State Fault Refusal :=
  guarded gd s (fun s => s.transferTo (s.branchTarget o kw))

/-- JMP (R97). -/
def execJmp (gd : Guard) (a : BitVec 5) (s : State) : Host.Outcome State Fault Refusal :=
  guarded gd s (fun s => s.jumpTo (s.s a) State.transferTo)

/-- CALL links in s31 (R97). -/
def execCall (gd : Guard) (o : BitVec 21) (kw : Option (BitVec 32)) (s : State) : Host.Outcome State Fault Refusal :=
  guarded gd s (fun s => (s.postS 31 s.link 1).transferTo (s.branchTarget o kw))

/-- CALLR reads the old s[a] when d = a (R97). -/
def execCallr (gd : Guard) (d a : BitVec 5) (s : State) : Host.Outcome State Fault Refusal :=
  guarded gd s (fun s => s.jumpTo (s.s a) (fun s t => (s.postS d s.link 1).transferTo t))

/-- RET pops the loops above the link's DEPTH (R97). -/
def execRet (gd : Guard) (a : BitVec 5) (s : State) : Host.Outcome State Fault Refusal :=
  guarded gd s (fun s => s.jumpTo (s.s a) (fun s t =>
    let k := nbits (s.s a).toNat 48 3
    let depth := s.src.loops.length
    if depth < k then s.loopTrap 0x04
    else (s.updMe (fun t => { t with loops := t.loops.drop (depth - k) })).transferTo t))

/-! ## Loops -/

/-- LOOP: the count is zero-extended (R98, R99). -/
def execLoop (gd : Guard) (l : BitVec 10) (c : BitVec 12) (kw : Option (BitVec 32)) (s : State) :
    Host.Outcome State Fault Refusal :=
  guarded gd s (fun s => s.openLoop l.toNat (immU12 c kw))

/-- LOOPR: BL[9:5] and BL[4:0] are its d and b fields, the count is s[a] (R98, R99). -/
def execLoopr (gd : Guard) (h a l : BitVec 5) (s : State) : Host.Outcome State Fault Refusal :=
  guarded gd s (fun s => s.openLoop (h.toNat * 32 + l.toNat) (s.s a).toNat)

/-- LBRK leaves the innermost k + 1 loops and continues after the last bundle of the outermost of them (R101). -/
def execLbrk (gd : Guard) (k : BitVec 5) (s : State) : Host.Outcome State Fault Refusal :=
  guarded gd s (fun s =>
    match s.src.loops[k.toNat]? with
    | none => s.loopTrap 0x02
    | some l => s.afterBundle l.last.toNat (fun s t =>
        (s.updMe (fun th => { th with loops := th.loops.drop (k.toNat + 1) })).transferTo t))

/-! ## Ending and yielding -/

/-- The thread in issue ends: it enters RETIRING, a release of scope .pod (R105, R309). Of a handler that ends its thread, the failing commands of
halted queues retire as they stand (log entry 17). -/
def State.endThread (s : State) : State :=
  let unstick (s : State) : State :=
    ((List.range (s.me.mat.queue.length + (s.die (dieOf s.cur.tid)).cmds.length)).foldl (fun s _ => (s.updMe (·.resumeMatrix false)).resumeDie s.cur.tid) s)
  s.whenDrained (fun s => ((if s.me.st = .trapped then unstick s else s).updMe (·.release 5)).retire s.cur.tid)

/-- END (R105). -/
def execEndThread (gd : Guard) (s : State) : Host.Outcome State Fault Refusal := guarded gd s State.endThread

/-- YIELD: WAITING for min(s[a], 1,048,575) cycles after the issue cycle (R106). -/
def execYield (gd : Guard) (a : BitVec 5) (s : State) : Host.Outcome State Fault Refusal :=
  guarded gd s (fun s => s.whenDrained (fun s => s.waitFor (.yield (s.cycle + Nat.min (s.s a).toNat 1048575))))

/-- A YIELD whose cycles have elapsed. -/
def Wait.elapsed (now : Nat) (w : Wait) : Bool :=
  match w with
  | .yield u => decide (u ≤ now)
  | _ => false

/-- A YIELD's cycles have elapsed (R106): the thread runs again from the next cycle, or its wait is complete while it is
TRAPPED (R24). -/
def execYieldExpiry (tid : Nat) (s : State) : Host.Outcome State Fault Refusal :=
  .next (if (s.thread tid).waits.any (Wait.elapsed s.cycle) then s.wakeIf tid (Wait.elapsed s.cycle) else s)

/-! ## Groups and barriers -/

/-- The lowest free number below `n` among the keys of a table. -/
def lowestFree {α : Type} (t : Table α) (n : Nat) : Option Nat := (List.range n).find? (fun i => !t.any (fun e => e.1 == i))

/-- JOIN in its create form (R25, R110). -/
def State.joinNew (s : State) : State :=
  let die := dieOf s.cur.tid
  if s.me.grp.isSome then s.groupTrap 0x01
  else
    match lowestFree (s.die die).groups 512 with
    | none => s.groupTrap 0x04
    | some g =>
      (s.updDie die (fun d => { d with groups := tset d.groups g ⟨s.me.dom, [(0, s.cur.tid)], []⟩ })).updMe
        (fun t => { t with grp := some (g, 0) })

/-- JOIN in its enter form: the checks of Table 1-8 in the order of their sub-codes (R25, R110). -/
def State.joinEnter (s : State) (g : Nat) : State :=
  let die := dieOf s.cur.tid
  if s.me.grp.isSome then s.groupTrap 0x01
  else if 511 < g then s.groupTrap 0x06
  else
    match (s.die die).groups.find? (fun e => e.1 == g) with
    | none => s.groupTrap 0x05
    | some (_, grp) =>
      match lowestFree grp.members 64 with
      | none => s.groupTrap 0x03
      | some m =>
        if grp.dom ≠ s.me.dom then s.groupTrap 0x07
        else
          (s.updDie die (fun d => { d with groups := tset d.groups g { grp with members := tset grp.members m s.cur.tid } })).updMe
            (fun t => { t with grp := some (g, m) })

/-- JOIN, create form (R110). -/
def execJoinNew (gd : Guard) (s : State) : Host.Outcome State Fault Refusal :=
  guarded gd s (fun s => s.whenDrained State.joinNew)

/-- JOIN, enter form: the group number is the unsigned 64-bit s[a] + sext(imm) (R110). -/
def execJoin (gd : Guard) (a : BitVec 5) (i : BitVec 12) (kw : Option (BitVec 32)) (s : State) :
    Host.Outcome State Fault Refusal :=
  guarded gd s (fun s => s.whenDrained (fun s => s.joinEnter (s.s a + immS12 i kw).toNat))

/-- LEAVE, applied after the JOINs of its cycle (R25, R27, R111). -/
def execLeave (gd : Guard) (s : State) : Host.Outcome State Fault Refusal :=
  guarded gd s (fun s =>
    if s.me.grp.isNone then s.groupTrap 0x02 else s.whenDrained (fun s => s.leaveLater s.cur.tid))

/-- BAR: the arrival is recorded and is a release of scope .die; a thread in no group passes (R113). -/
def execBar (gd : Guard) (s : State) : Host.Outcome State Fault Refusal :=
  guarded gd s (fun s => s.whenDrained (fun s =>
    let s := s.updMe (fun t => t.release 3)
    match s.me.grp with
    | none => s
    | some (g, _) =>
      (s.updDie (dieOf s.cur.tid) (fun d => { d with groups := d.groups.map (fun e =>
        if e.1 = g then (e.1, { e.2 with arrived := s.cur.tid :: e.2.arrived }) else e) })).waitFor .bar))

end Sys2Proof.Machine
end

