-- ==== Sys2Proof/Machine/Objects.lean ====
section
/-! DEFINITION. Objects in die shared memory by doublewords and fields, and the updates of completion objects (R350, R351, Table 15-6). -/

namespace Sys2Proof.Machine

open Sys2Proof

/-- A doubleword of an object, a field of it, and a field's write. -/
def State.dw (s : State) (key i : Nat) : Nat := s.read (key + 8 * i) 8
def State.dwField (s : State) (key i lo n : Nat) : Nat := nbits (s.dw key i) lo n
def State.setDw (s : State) (key i lo n v : Nat) : State := s.write (key + 8 * i) 8 (setBits (s.dw key i) lo n v)

/-- BYTES moves by n, wrapping; a result beyond the range sets OVER (R351). -/
def State.objAdd (s : State) (key : Nat) (n : Int) : State :=
  let b := sval 48 (s.dwField key 0 0 48) + n
  let s := s.setDw key 0 0 48 (wrapN 48 b)
  if (2 ^ 47 : Nat) - 1 < b.natAbs then s.setDw key 1 34 1 1 else s

/-- The test after an update (R351). -/
def State.objTest (s : State) (key : Nat) : State :=
  if s.dwField key 1 16 16 = s.dwField key 1 0 16 ∧ s.dwField key 0 0 48 = 0 then
    (s.setDw key 0 48 16 (s.dwField key 0 48 16 + 1)).setDw key 1 16 16 0
  else s

/-- A decrement by a completed copy; an arrival (R351). -/
def State.objDecrement (s : State) (key n : Nat) : State := (s.objAdd key (-n)).objTest key
def State.objArrive (s : State) (key : Nat) (n : Int) : State :=
  let seen := s.dwField key 1 16 16
  let s := if seen = s.dwField key 1 0 16 then s.setDw key 1 34 1 1 else s.setDw key 1 16 16 (seen + 1)
  (s.objAdd key n).objTest key

/-- The first stop or underflow is recorded (R350): FAULT or UNDER, FADDR, and for a stop FSUB, FENT and FDONE. -/
def State.objRecord (s : State) (key : Nat) (under : Bool) (addr sub ent done : Nat) : State :=
  let had := s.dwField key 1 32 2 ≠ 0
  let s := s.setDw key 1 (if under then 33 else 32) 1 1
  if had then s else (s.setDw key 2 0 48 addr).setDw key 3 0 52 (sub + ent * 2 ^ 8 + done % 2 ^ 32 * 2 ^ 20)

end Sys2Proof.Machine
end

