-- ==== Sys2Proof/Machine/Tags.lean ====
section
/-! DEFINITION. The consistency checks: levels, closed regions, and the conflict tags of granules (R307 to R317). -/

namespace Sys2Proof.Machine

open Sys2Proof

/-- L(X, Y): the narrowest level whose scope includes both threads (R307). -/
def levelOf (x y : Nat) : Nat :=
  if coreOf x = coreOf y then 1 else if clusterOf x = clusterOf y then 2 else if dieOf x = dieOf y then 3 else 4

/-- Whether a record's region is open, closed, or of unknown age at a level (R310, R316). -/
inductive Age where
  | opened | closed | wrapped
  deriving DecidableEq, Repr

/-- The age of a record against its thread's counters: the low 16 bits are the counter, the two above its wrap count. -/
def Rec.age (r : Rec) (now : List Nat) (level : Nat) : Age :=
  let a := nth 0 r.cnt (level - 1)
  let b := nth 0 now (level - 1)
  if a % 65536 ≠ b % 65536 then .closed else if a = b then .opened else .wrapped

/-- A record is live until its thread's counter advances at the home's widest level (R316). -/
def State.purge (s : State) (wide : Nat) (t : Tag) : Tag :=
  let live (r : Rec) := decide (r.age (s.thread r.tid).rel wide ≠ .closed)
  { t with writer := t.writer.filter live, readers := t.readers.filter live }

/-- The units of a record that an access conflicts with (R312). -/
def Rec.hits (r : Rec) (mask : BitVec 16) (wr atom : Bool) : BitVec 16 :=
  if atom && r.atom then 0 else if wr then mask &&& (r.rd ||| r.wr) else mask &&& r.wr

/-- The mask of the 4-byte units of `n` bytes from place `key`, within one granule. -/
def unitMask (key n : Nat) : BitVec 16 :=
  let a := key % 64 / 4
  let b := (key % 64 + n - 1) / 4
  BitVec.ofNat 16 (2 ^ (b + 1) - 2 ^ a)

/-- The conflict record: $estat of R314, and $badaddr the first conflicting unit. -/
def conflictInfo (c : Cause) (engine va key : Nat) (units : BitVec 16) (tid : Nat) (wrote wr : Bool) (source : Nat) : TrapInfo :=
  let u := ffsN 16 units.toNat
  let estat : DWord := BitVec.ofNat 64 (tid + b2n wrote * 2048 + b2n wr * 4096 + source * 8192)
  trapInfo c engine estat (BitVec.ofNat 48 (va + (key / 64 * 64 + 4 * u) - key))

/-- The delivery of a ring's push is a later one into the slot that was popped (R282, R285). -/
def Popped.later (p : Popped) (key : Nat × Nat) : Bool :=
  key.1 == p.ring && key.2 / 2 ^ 32 == p.push / 2 ^ 32 && decide (p.push < key.2) && (key.2 - p.push) % p.slots == 0

/-- A record as a thread meets it that saw some deliveries READY (R285): nothing of a delivery it saw; and of accesses that a pop of the slot orders before a
delivery it saw, what has followed the pop. -/
def Rec.after (r : Rec) (seen : List (Nat × Nat)) : Option Rec :=
  if (match r.ring with | some k => seen.contains k | none => false) then none
  else
    match r.popped with
    | some p => if seen.any p.later then some { r with wr := p.wr, rd := p.rd } else some r
    | none => some r

/-- The records a check takes, in order: the writer, then the reader set, without the thread's own and as far as no delivery it saw READY follows them (R285,
R313). -/
def Tag.others (t : Tag) (tid : Nat) (seen : List (Nat × Nat)) : List Rec :=
  ((t.writer.toList ++ t.readers).filter (fun r => r.tid != tid)).filterMap (fun r => r.after seen)

/-- The check of one access within a granule against its tag: MEMORY_CONFLICT first, then the uncertain sources that $cmask does not
mask (R313, R314, R316, Table 14-8). -/
def State.tagCheck (s : State) (tid : Nat) (cmask : BitVec 2) (seen : List (Nat × Nat)) (wide key n : Nat) (wr atom : Bool) (engine va : Nat) :
    Option TrapInfo :=
  let t := s.purge wide (s.tagAt (key / 64))
  let mask := unitMask key n
  let recs := t.others tid seen
  let hit (a : Age) (r : Rec) : Bool := decide (r.hits mask wr atom ≠ 0 ∧ r.age (s.thread r.tid).rel (levelOf r.tid tid) = a)
  match recs.find? (hit .opened) with
  | some r => some (conflictInfo .memoryConflict engine va key (r.hits mask wr atom) r.tid (mask &&& r.wr != 0) wr 0)
  | none =>
    let src0 : Option (BitVec 16 × Bool) :=
      if wr ∧ t.lr then some (mask, false)
      else if mask &&& t.lw ≠ 0 then some (mask &&& t.lw, true)
      else if ¬ atom ∧ t.la then some (mask, false)
      else none
    match (if cmask.getLsbD 0 then none else src0) with
    | some (u, lw) => some (conflictInfo .memoryConflictUncertain engine va key u 0 lw wr 0)
    | none =>
      match (if cmask.getLsbD 1 then none else recs.find? (hit .wrapped)) with
      | some r =>
        some (conflictInfo .memoryConflictUncertain engine va key (r.hits mask wr atom) r.tid (mask &&& r.wr != 0) wr 1)
      | none => none

/-- A lost record sets the overflow marks (R316). -/
def Tag.lose (t : Tag) (r : Rec) : Tag :=
  if r.atom then { t with la := true } else { t with lr := t.lr || decide (r.rd ≠ 0), lw := t.lw ||| r.wr }

/-- A live writer record of another thread makes way for a write: into the reader set, or lost (R316). -/
def Tag.makeWay (t : Tag) (tid : Nat) : Tag :=
  match t.writer with
  | none => t
  | some r =>
    if r.tid = tid then t
    else if t.readers.length < 2 then { t with writer := none, readers := t.readers ++ [r] }
    else { t with writer := none }.lose r

/-- An access is recorded (R316): merged into its thread's record where that stands, or as a new record of the slot it may take, or lost; a write by
another thread than the live writer's moves that record into the reader set in either case. -/
def Tag.record (t : Tag) (a : Rec) : Tag :=
  let own := (t.writer.toList ++ t.readers).find? (fun r => r.tid == a.tid)
  let wr := decide (a.wr ≠ 0)
  match own with
  | some r =>
    let m : Rec := { a with wr := r.wr ||| a.wr, rd := r.rd ||| a.rd, atom := r.atom && a.atom,
                            popped := r.popped.map (fun p => { p with wr := p.wr ||| a.wr, rd := p.rd ||| a.rd }) }
    if (t.writer.map Rec.tid) = some a.tid then { t with writer := some m }
    else
      let t := { t with readers := t.readers.map (fun r => if r.tid = a.tid then m else r) }
      if wr then t.makeWay a.tid else t
  | none =>
    if wr then
      { t.makeWay a.tid with writer := some a }
    else if t.readers.length < 2 then { t with readers := t.readers ++ [a] }
    else t.lose a

/-- A masked source 0 clears the marks that would have raised it (R316). -/
def Tag.clearMarks (t : Tag) (cmask : BitVec 2) (mask : BitVec 16) (wr atom : Bool) : Tag :=
  if cmask.getLsbD 0 then { t with lr := t.lr && !wr, lw := t.lw &&& ~~~mask, la := t.la && atom } else t

/-- The records of an access that has passed every check are left in the tags (R314). -/
def State.tagRecord (s : State) (tid : Nat) (cmask : BitVec 2) (cnt : List Nat) (ring : Option (Nat × Nat)) (wide key n : Nat)
    (rd wr atom : Bool) : State :=
  let mask := unitMask key n
  let t := (s.purge wide (s.tagAt (key / 64))).clearMarks cmask mask wr atom
  let r : Rec := ⟨tid, if wr then mask else 0, if rd then mask else 0, atom, cnt, ring, none⟩
  { s with tags := tset s.tags (key / 64) { t.record r with lost := 0 } }

/-- A core pops a ring slot: the accesses of its threads to the slot's bytes come before the slot's later deliveries (R285). -/
def State.tagPop (s : State) (core key n : Nat) (p : Popped) : State :=
  let one (r : Rec) : Rec := if coreOf r.tid = core then { r with popped := some p } else r
  { s with tags := s.tags.map (fun e =>
      if key / 64 ≤ e.1 ∧ e.1 < (key + n) / 64 then (e.1, { e.2 with writer := e.2.writer.map one, readers := e.2.readers.map one }) else e) }

end Sys2Proof.Machine
end

