-- ==== Sys2Proof/Machine/Flags.lean ====
section
/-! DEFINITION. Comparisons, guard and mask functions, and the saturation flag: Table 4-8, Table 4-9, R85. -/

namespace Sys2Proof.Machine

open Sys2Proof

/-- The integer comparison codes of Table 4-8 and their lane forms: eq, ne, lt, ge signed, ltu, geu. -/
def cmpCode {w : Nat} (c : Nat) (x y : BitVec w) : Bool :=
  match c with
  | 0 => x == y
  | 1 => x != y
  | 2 => x.slt y
  | 3 => !x.slt y
  | 4 => x.ult y
  | _ => !x.ult y

/-- The two-operand guard functions 0 to 7 of Table 4-9. -/
def gopCode (f : Nat) (x y : Bool) : Bool :=
  match f with
  | 0 => x && y
  | 1 => x || y
  | 2 => x != y
  | 3 => x && !y
  | 4 => x || !y
  | 5 => !(x && y)
  | 6 => !(x || y)
  | _ => x == y

/-- The two-operand mask functions 0 to 7, bit by bit as in Table 4-9. -/
def maskCode {w : Nat} (f : Nat) (x y : BitVec w) : BitVec w :=
  match f with
  | 0 => x &&& y
  | 1 => x ||| y
  | 2 => x ^^^ y
  | 3 => x &&& ~~~y
  | 4 => x ||| ~~~y
  | 5 => ~~~(x &&& y)
  | 6 => ~~~(x ||| y)
  | _ => ~~~(x ^^^ y)

/-- Signed and unsigned minimum and maximum. -/
def minMax {w : Nat} (isMax uns : Bool) (x y : BitVec w) : BitVec w :=
  let less := if uns then x.ult y else x.slt y
  if less != isMax then x else y

/-- An exact integer narrowed to lo..hi, with SAT where it saturates (R85, R139). -/
def satTo (lo hi x : Int) : Int × Fp.Flags := if x < lo then (lo, Fp.SAT) else if hi < x then (hi, Fp.SAT) else (x, 0)

/-- The flags of many lanes joined. -/
def joinFlags (fs : List Fp.Flags) : Fp.Flags := fs.foldl (· ||| ·) 0

end Sys2Proof.Machine
end

