-- ==== Sys2Proof/Machine/Tile.lean ====
section
/-! DEFINITION. Accumulator tiles and operand slots as data: loading and reading out elements (R86, R92, R187 to R189), and the
arrays a tensor entry places (R171, R174, R186). -/

namespace Sys2Proof.Machine

open Sys2Proof

/-! ## Elements -/

/-- The bounds of an integer-mode mantissa (R91). -/
def satMax : Int := (2 ^ 47 : Nat) - 1

/-- The mantissa a flag carries in a mode (R86). -/
def flaggedM (int : Bool) (flag : Nat) : Int :=
  if int ∧ flag = 2 then satMax else if int ∧ flag = 3 then -satMax else 0

/-- A flagged element of a tile mode. -/
def flagged (int : Bool) (flag : Nat) : Elem := ⟨flaggedM int flag, flag⟩

def Tile.elem (t : Tile) (i : Nat) : Elem := tget ⟨0, 0⟩ t.el i
def Tile.setElem (t : Tile) (i : Nat) (x : Elem) : Tile := { t with el := tput ⟨0, 0⟩ t.el i x }

/-- The value of an element (R86). -/
def Elem.num (x : Elem) (e : Int) : Fp.Num :=
  match x.flag with
  | 0 => .fin (x.m < 0) x.m.natAbs e
  | 1 => .nan false
  | 2 => .inf false
  | _ => .inf true

/-- The range ends of FP16, code 2 of Table 7-9, its largest finite values, and of INT32 (log entry 30). -/
def rangeEnd (af : Nat) (neg : Bool) : Nat :=
  match af with
  | 2 => if neg then 0xFBFF else 0x7BFF
  | _ => if neg then 0x80000000 else 0x7FFFFFFF

/-- Read-out of an element into FP32, BF16, FP16 or INT32 (R92, R231): an infinity of an integer tile is the saturated value ±(2^47 - 1), which FP32 and BF16 hold
within their ranges and round; into the narrower ranges of FP16 and INT32 it reads as the range end, with SAT (log entry 30). -/
def Tile.readOut (t : Tile) (i af : Nat) (md : Fp.Mode) : Nat × Fp.Flags :=
  let x := t.elem i
  if t.int ∧ (x.flag = 2 ∨ x.flag = 3) ∧ 2 ≤ af then (rangeEnd af (x.flag == 3), Fp.SAT)
  else
    let v := if t.int ∧ (x.flag = 2 ∨ x.flag = 3) then Fp.ofInt (flaggedM true x.flag) else x.num t.e
    match af with
    | 0 => Fp.fp32.round md v
    | 1 => Fp.bf16.round md v
    | 2 => Fp.fp16.round md v
    | _ => let (v, f) := Fp.roundInt (-2147483648) 2147483647 md v; (wrapN 32 v, f)

/-- rne_int(m x 2^e): rounded to an integer, ties to even, and whether it was inexact (R88). -/
def rneInt (neg : Bool) (m : Nat) (e : Int) : Int × Bool :=
  let (a, b) := Fp.asQ m e
  let (r, x) := Fp.roundUnits .rne neg a b 0
  (Fp.signed neg r, x)

/-- The smallest even exponent, -32,768 or above, at which every finite number has |x| / 2^E <= 2^45 - 1; 0 where none is
non-zero (R187). -/
def tileExp (xs : List Fp.Num) : Int :=
  let es := xs.filterMap (fun x => match x with
    | .fin _ m e => if m = 0 then none else some (e + (Nat.log2 m : Int) - 44)
    | _ => none)
  match es with
  | [] => 0
  | e :: es =>
    let k := es.foldl max e
    max (-32768) (k + k % 2)

/-- A number as an element of a floating tile of exponent `e`, with its flags (R187). -/
def floatElem (e : Int) (x : Fp.Num) : Elem × Fp.Flags :=
  match x with
  | .nan sig => (⟨0, 1⟩, Fp.flagIf sig Fp.NV)
  | .inf neg => (⟨0, if neg then 3 else 2⟩, 0)
  | .fin neg m k => let (v, nx) := rneInt neg m (k - e); (⟨v, 0⟩, Fp.flagIf nx Fp.NX)

/-- A tile from its 1,024 elements. -/
def Tile.ofElems (e : Int) (int : Bool) (xs : List Elem) : Tile :=
  { e := e, int := int, el := ((List.range xs.length).zip xs).filter (fun p => decide (p.2 ≠ ⟨0, 0⟩)) }

/-- Bytes of an element of a transfer format (Table 7-9). -/
def afBytes (af : Nat) : Nat :=
  match af with
  | 0 => 4 | 1 => 2 | 2 => 2 | 3 => 4 | _ => 8

/-- The number of a floating transfer format. -/
def afNum (af v : Nat) : Fp.Num :=
  match af with
  | 0 => Fp.fp32.decode v
  | 1 => Fp.bf16.decode v
  | _ => Fp.fp16.decode v

/-- One raw element (R189): more than one flag becomes NaN; a flag sets its m. -/
def rawElem (int : Bool) (v : Nat) : Elem :=
  match nbits v 48 3 with
  | 0 => ⟨sval 48 v, 0⟩
  | 1 => flagged int 1
  | 2 => flagged int 2
  | 4 => flagged int 3
  | _ => flagged int 1

/-- TLDA: a tile from the 1,024 element codes of a transfer format (R187, R189). E of an integer tile is 0 (R86), whatever E a raw image holds: the
model's reading, since R189 does not say so (log entry 72). -/
def tileLoad (af : Nat) (vs : List Nat) : Tile × Fp.Flags :=
  if af = 4 then
    let int := (nth 0 vs 2).testBit 56
    let e := if int then 0 else sval 16 (nbits (nth 0 vs 0) 56 8 + nbits (nth 0 vs 1) 56 8 * 256)
    (Tile.ofElems e int (vs.map (rawElem int)), 0)
  else if af = 3 then (Tile.ofElems 0 true (vs.map (fun v => ⟨sval 32 v, 0⟩)), 0)
  else
    let xs := vs.map (afNum af)
    let e := tileExp xs
    let rs := xs.map (floatElem e)
    (Tile.ofElems e false (rs.map Prod.fst), joinFlags (rs.map Prod.snd))

/-- The raw code of element i (R189). -/
def Tile.raw (t : Tile) (i : Nat) : Nat :=
  let x := t.elem i
  let fl := match x.flag with | 0 => 0 | 1 => 1 | 2 => 2 | _ => 4
  let extra := match i with
    | 0 => wrapN 16 t.e % 256
    | 1 => wrapN 16 t.e / 256
    | 2 => b2n t.int
    | _ => 0
  wrapN 48 x.m + fl * 2 ^ 48 + extra * 2 ^ 56

/-- TST: the 1,024 element codes of a tile, with their flags (R188, R92). -/
def tileStore (t : Tile) (af : Nat) (md : Nat → Fp.Mode) : List (Nat × Fp.Flags) :=
  (List.range 1024).map (fun i => if af = 4 then (t.raw i, 0) else t.readOut i af (md i))

/-! ## Tensor entries -/

/-- The fields of a tensor identifier entry (Table 7-3). -/
structure Tensor where
  fmt : Nat
  sm : Nat
  sp : Nat
  v : Bool
  rows : Nat
  kext : Nat
  base : Nat
  stride : Nat
  sbase : Nat
  fbase : Nat
  ndup : Nat
  dups : List Nat
  deriving DecidableEq, Repr

def tensorOf (img : Nat) : Tensor :=
  { fmt := nbits img 0 4, sm := nbits img 4 2, sp := nbits img 6 2, v := img.testBit 8, rows := nbits img 16 16,
    kext := nbits img 32 20, base := nbits img 64 20, stride := nbits img 84 20, sbase := nbits img 104 20,
    fbase := nbits img 128 20, ndup := nbits img 160 5, dups := (List.range 16).map (fun j => nbits img (256 + 16 * j) 16) }

def ceilDiv (a b : Nat) : Nat := (a + b - 1) / b

/-- N of the N-of-16 sparsity codes (Table 7-3); 0 for dense. -/
def Tensor.n (t : Tensor) : Nat := if t.sp = 0 then 0 else 2 ^ t.sp

/-- The width of an element in memory and in a slot (R68, R171). -/
def Tensor.wMem (t : Tensor) : Nat := fmtWidth (BitVec.ofNat 4 t.fmt)
def heldWidth (fmt : Nat) : Nat := if fmt = 4 ∨ fmt = 5 then 8 else fmtWidth (BitVec.ofNat 4 fmt)

/-- The K extent of one slot (Table 7-1). -/
def kPerSlot (fmt : Nat) (sparse : Bool) : Nat := if sparse then 64 else 512 / heldWidth fmt

/-- Sparsity groups of a row; the byte offset of its masks; the packed length of a row (R174). -/
def Tensor.groups (t : Tensor) : Nat := ceilDiv t.kext 16
def Tensor.maskOff (t : Tensor) : Nat := ceilDiv (ceilDiv (t.groups * t.n * t.wMem) 8) 4 * 4
def Tensor.rowLen (t : Tensor) : Nat := if t.sp = 0 then ceilDiv (t.kext * t.wMem) 8 else t.maskOff + 2 * t.groups

/-- Scale codes of a row; QC4 blocks and groups of a row (R174). -/
def Tensor.sb (t : Tensor) : Nat := if t.sp = 0 then ceilDiv t.kext 32 else t.groups
def Tensor.qb (t : Tensor) : Nat := ceilDiv t.kext 64

/-- Offset and length of a byte range. -/
abbrev Span := Nat × Nat

/-- The data, scale and group-scale arrays of an entry, by their whole extents (sub-codes 0x09 and 0x0B of Table 7-4). -/
def Tensor.arrays (t : Tensor) : List Span :=
  [(t.base, (t.rows - 1) * t.stride + t.rowLen)] ++
  (if t.sm = 1 then [(t.sbase, 2 * t.rows * t.sb)] else if t.sm = 2 then
    [(t.sbase, t.rows * t.qb), (t.fbase, 4 * t.rows * ceilDiv t.qb 256)] else [])

/-- The checks of MTID on an image by a writer at level F or T: the first failing sub-code of Table 7-4 (R173). Table 7-3 gives NDUP the range 0 to 16
and Table 7-4 no sub-code for 17 to 31: sub-code 0x08 is the model's choice there (log entry 72). -/
def tensorCheck (img : Nat) (atF : Bool) : Option Nat :=
  let t := tensorOf img
  if nbits img 9 7 ≠ 0 ∨ nbits img 52 12 ≠ 0 ∨ nbits img 124 4 ≠ 0 ∨ nbits img 148 12 ≠ 0 ∨ nbits img 165 91 ≠ 0 then some 0x01
  else if ¬ t.v then none
  else if 12 ≤ t.fmt then some 0x02
  else if t.sm = 3 ∨ (t.sm = 1 ∧ (t.fmt < 2 ∨ 8 < t.fmt)) ∨ (t.sm = 2 ∧ t.fmt ≠ 10) ∨ (t.sm = 0 ∧ t.fmt = 10) then some 0x03
  else if t.sp ≠ 0 ∧ (t.fmt = 10 ∨ t.fmt = 11) then some 0x04
  else if t.rows = 0 ∨ t.kext = 0 then some 0x05
  else if t.base % 4 ≠ 0 ∨ t.stride % 4 ≠ 0 ∨ t.sbase % 4 ≠ 0 ∨ (t.sm = 2 ∧ t.fbase % 4 ≠ 0) then some 0x06
  else if t.stride < t.rowLen then some 0x07
  else if t.ndup ≠ 0 ∧ (16 < t.ndup ∨ 65536 < t.kext ∨ (t.dups.take t.ndup).any (fun d => decide (t.kext ≤ d + t.ndup))) then some 0x08
  else if t.arrays.any (fun a => decide (0x100000 < a.1 + a.2)) then some 0x09
  else if ¬ atF ∧ t.arrays.any (fun a => decide (0xF6000 < a.1 + a.2)) then some 0x0B
  else none

/-- The formats a TLD may transpose (sub-code 0x11). -/
def Tensor.transposable (t : Tensor) : Bool := (t.fmt ≤ 3 || t.fmt == 7 || t.fmt == 9) && t.sp == 0

/-- Positions of a slot row: kept elements a row takes from K position k0, and how many of them lie in the tensor. -/
def Tensor.take (t : Tensor) (k0 : Nat) : Nat :=
  if t.sp = 0 then min (kPerSlot t.fmt false) (t.kext - k0) else min 4 (t.groups - k0 / 16) * t.n

/-- First bit of the row's elements in memory, from the row's first byte. -/
def Tensor.bit0 (t : Tensor) (k0 : Nat) : Nat := (if t.sp = 0 then k0 else k0 / 16 * t.n) * t.wMem

/-- Scale codes a slot row takes from K position k0 on. -/
def Tensor.scales (t : Tensor) (k0 : Nat) : Nat :=
  if t.sp ≠ 0 then min 4 (t.groups - k0 / 16) else min (kPerSlot t.fmt false / 32) (ceilDiv (t.kext - k0) 32)

/-- Elements that a slot row reads of memory: its own, and those of a packing unit of four 6-bit elements that the row's end cuts, whose padding is read and
ignored (R68); units of other formats are whole bytes. -/
def Tensor.units (t : Tensor) (k0 : Nat) : Nat := if t.wMem = 6 then ceilDiv (t.take k0) 4 * 4 else t.take k0

/-- The byte ranges one slot row reads: tensor row `row` from K position k0 on, or with T one byte or two from each K line; none beyond the scratchpad. -/
def Tensor.rowSpans (t : Tensor) (tr : Bool) (row k0 : Nat) : List Span :=
  let r0 := t.base + row * t.stride
  let data : List Span :=
    if tr then (List.range (t.take k0)).map (fun k => (t.base + (k0 + k) * t.stride + row * t.wMem / 8, t.wMem / 8))
    else
      let b0 := t.bit0 k0
      let b1 := b0 + t.units k0 * t.wMem
      [(r0 + b0 / 8, min (ceilDiv b1 8) (0x100000 - r0) - b0 / 8)]
  let masks : List Span := if t.sp = 0 then [] else [(r0 + t.maskOff + 2 * (k0 / 16), 2 * min 4 (t.groups - k0 / 16))]
  let scales : List Span :=
    if t.sm = 1 then [(t.sbase + 2 * (row * t.sb + k0 / (if t.sp = 0 then 32 else 16)), 2 * t.scales k0)]
    else if t.sm = 2 then
      let b := k0 / 64
      [(t.sbase + row * t.qb + b, min 2 (t.qb - b)), (t.fbase + 4 * (row * ceilDiv t.qb 256 + b / 256), 4)]
    else []
  data ++ masks ++ scales

/-- `n` fields of `w` bits placed at multiples of `v` bits (unpacking 6-bit elements to 8, R186). -/
def respread (w v : Nat) : Nat → Nat → Nat
  | 0, _ => 0
  | n + 1, x => x % 2 ^ w + 2 ^ v * respread w v n (x / 2 ^ w)

/-- One slot row (R171, R174, R186): 512 data bits and, above them, the 64-bit sideband; `rd` reads a byte range. -/
def Tensor.slotRow (t : Tensor) (rd : Nat → Nat → Nat) (tr : Bool) (row k0 : Nat) : Nat :=
  if t.rows ≤ row then 0
  else
    let g := min 4 (t.groups - k0 / 16)
    let masks0 := if t.sp = 0 then 0 else rd (t.base + row * t.stride + t.maskOff + 2 * (k0 / 16)) (2 * g)
    -- a last sparse group that KEXT cuts: no mask bit and no kept value beyond it
    let cut := min 16 (t.kext - k0 - 16 * (g - 1))
    let lastMask := nbits masks0 (16 * (g - 1)) 16 % 2 ^ cut
    let masks := setBits masks0 (16 * (g - 1)) 16 lastMask
    let n := if t.sp = 0 ∨ cut = 16 then t.take k0 else (g - 1) * t.n + min t.n (popN 16 lastMask)
    let held := heldWidth t.fmt
    let r0 := t.base + row * t.stride
    let b0 := t.bit0 k0
    let elems :=
      if tr then packBits held ((List.range n).map (fun k => rd (t.base + (k0 + k) * t.stride + row * t.wMem / 8) (t.wMem / 8)))
      else
        let x := rd (r0 + b0 / 8) (ceilDiv (b0 + n * t.wMem) 8 - b0 / 8) / 2 ^ (b0 % 8)
        respread t.wMem held n x
    let ns := t.scales k0
    let codes := if t.sm = 1 then
        packBits 12 ((List.range ns).map (fun b =>
          rd (t.sbase + 2 * (row * t.sb + k0 / (if t.sp = 0 then 32 else 16) + b)) 2 % 4096))
      else 0
    let side :=
      if t.sp ≠ 0 then masks
      else if t.sm = 1 then codes
      else if t.sm = 2 then
        let b := k0 / 64
        rd (t.sbase + row * t.qb + b) (min 2 (t.qb - b)) + rd (t.fbase + 4 * (row * ceilDiv t.qb 256 + b / 256)) 4 * 2 ^ 32
      else 0
    let high := if t.sp ≠ 0 ∧ t.sm = 1 then codes * 2 ^ 448 else 0
    elems + high + side * 2 ^ 512

end Sys2Proof.Machine
end

