-- ==== Sys2Proof/Machine/Access.lean ====
section
/-! DEFINITION. Memory accesses: the checks of Table 7-7, the queue of accesses that have passed them, and what each does when it
performs at its home (R166 to R169, R177, R270 to R274, R308, R314). -/

namespace Sys2Proof.Machine

open Sys2Proof

/-! ## Checks -/

/-- Why an access does not issue: a cause, a walk to wait for, or a wait. -/
inductive Stop where
  | fault (i : TrapInfo)
  | walk (page : Nat)
  | wait
  deriving DecidableEq, Repr

/-- A byte range cut at granules of 64 bytes. -/
def granules (va : Nat) : Nat → Nat → List (Nat × Nat)
  | 0, _ => []
  | fuel + 1, n =>
    if n = 0 then []
    else
      let k := min n (64 - va % 64)
      (va, k) :: granules (va + k) fuel (n - k)

/-- The pieces of a byte range. -/
def piecesOf (va n : Nat) : List (Nat × Nat) := granules va (n / 64 + 2) n

/-- The peer core a place lies in, if any. -/
def Place.peers (p : Place) : List Nat := match p.home with | .peer c => [c] | _ => []

/-- The codes an atomic queue entry carries beside those of Table 7-6: CAS, LDA and STA. -/
def aopCas : Nat := 16
def aopLda : Nat := 17
def aopSta : Nat := 18

/-- The bytes an access waiting to perform touches: place, length, and whether it writes them. -/
def MemOp.touches : MemOp → List (Nat × Nat × Bool)
  | .ld _ p n _ => [(p.key, n, false)]
  | .st p n _ => [(p.key, n, true)]
  | .ldv _ ls _ => ls.map (fun l => (l.2.key, 4, false))
  | .stv ls _ => ls.map (fun l => (l.1.key, 4, true))
  | .amo _ p n _ _ => [(p.key, n, true)]
  | .cas _ p n _ _ => [(p.key, n, true)]
  | .vamo _ ls _ _ _ => ls.map (fun l => (l.2.1.key, 4, true))
  | .peerAmo _ p n _ => [(p.key, n, true)]
  | .tld _ _ _ _ _ sp => sp.map (fun x => (x.1, x.2, false))
  | .peerVamo _ ls _ _ _ _ _ => ls.map (fun l => (l.2.1.key, 4, true))
  | .carrive key _ => [(key, 16, true)]
  | .image _ b n => [(b, n, false)]
  | .snapst b bs => [(b, bs.length, true)]
  | .rpush _ _ src n _ _ _ => [(src, n, false)]
  | .sladd _ b n => [(b, n, false)]
  | .tst _ af b stp _ _ => (List.range 32).map (fun r => (b + r * stp, 32 * afBytes af, true))
  | .tlda _ af b stp => (List.range 32).map (fun r => (b + r * stp, 32 * afBytes af, false))
  | _ => []

/-- The bytes an access reads: those of an atomic that is no STA, of an update of a completion object, and those it touches without writing them. -/
def MemOp.reads (o : MemOp) : List (Nat × Nat) :=
  let all := match o with
    | .amo _ _ _ op _ => op != aopSta
    | .cas _ _ _ _ _ => true
    | .vamo _ _ _ _ _ => true
    | .peerAmo _ _ _ _ => true
    | .peerVamo _ _ _ _ _ _ _ => true
    | .carrive _ _ => true
    | _ => false
  (o.touches.filter (fun x => all || !x.2.2)).map (fun x => (x.1, x.2.1))

/-- The bytes an entry of an inbound queue acts on: offset and length. -/
def QEntry.span (e : QEntry) : Nat × Nat := if e.kind = 1 then (e.addr, 128) else (e.addr, e.size)

/-- An entry writes or updates a byte of the 4-byte units of a range of offsets. -/
def QEntry.hits (e : QEntry) (lo n : Nat) : Bool :=
  let (a, m) := e.span
  e.kind != 3 && (List.range m).any (fun i => (e.kind != 1 || e.bmask.getLsbD i) && decide (lo / 4 ≤ (a + i) / 4) && decide ((a + i) / 4 < (lo + n + 3) / 4))

/-- A store or atomic that another thread has sent to a core, and whose entry is not applied, holds its bytes (R314). -/
def State.queuedByOther (s : State) (tid : Nat) (p : Place) (n : Nat) : Bool :=
  match p.home with
  | .own => (s.core (coreOf tid)).inq.any (fun q => q.2.ents.any (fun e => e.asker != tid && e.hits (p.key - padPlace (coreOf tid) 0) n))
  | .peer c => (s.core c).inq.any (fun q => q.2.ents.any (fun e => e.asker != tid && e.hits (p.key - padPlace c 0) n))
  | _ => false

/-- Two byte ranges share a unit of 4 bytes. -/
def sameUnit (k m p n : Nat) : Bool := decide (k / 4 < (p + n + 3) / 4) && decide (p / 4 < (k + m + 3) / 4)

/-- An access of another thread that has passed its check in an earlier cycle holds the units of the bytes (R314); those of one cycle perform in the order of
R306. -/
def State.heldByOther (s : State) (tid : Nat) (p : Place) (n : Nat) (wr : Bool) : Bool :=
  s.threads.any (fun e => e.1 != tid && e.2.memQ.any (fun a => a.at_ != s.cycle && a.op.touches.any (fun (k, m, w) =>
    (w || wr) && sameUnit k m p.key n))) || s.queuedByOther tid p n

/-- The range scoreboard holds the bytes (R168): of the own scratchpad for every access, of a peer's for a read. -/
def State.rangeBusy (s : State) (tid : Nat) (p : Place) (n : Nat) (k : AccKind) : Bool :=
  let busy (c : Nat) :=
    let off := p.key - padPlace c 0
    (s.core c).ranges.any (fun r => decide (r.lo < off + n) && decide (off < r.hi))
  match p.home with
  | .own => busy (coreOf tid)
  | .peer c => k == .read && busy c
  | _ => false

/-- The range scoreboard holds bytes of an access that waits to perform: of its own core's scratchpad, or of a peer's that it reads (R168). -/
def State.rangesHold (s : State) (tid : Nat) (o : MemOp) : Bool :=
  o.touches.any (fun (k, m, w) =>
    decide (2 ^ 41 ≤ k) && decide (k < 2 ^ 42) &&
      (let c := (k - 2 ^ 41) / 2 ^ 20
       (c == coreOf tid || !w) && (s.core c).ranges.any (fun r => decide (r.lo < k - padPlace c 0 + m) && decide (k - padPlace c 0 < r.hi))))

/-- A word with an error is rewritten whole by an earlier store of the thread that waits to perform, which a later access of it sees (R166, R169). -/
def State.mends (s : State) (tid w : Nat) : Bool :=
  (s.thread tid).memQ.any (fun a => a.op.touches.any (fun (k, m, wr) => wr && decide (k ≤ w) && decide (w + 4 ≤ k + m)))

/-- The widest level of a home (R316). -/
def Home.wide : Home → Nat
  | .own => 2 | .peer _ => 2 | _ => 4

/-- What an access is: its kind, whether it is an atomic of R312, the scope an atomic's home checks, and its engine. -/
structure Acc where
  kind : AccKind
  atom : Bool
  scope : Option Nat
  engine : Nat
  deriving DecidableEq, Repr

/-- The permission an access needs: an atomic of any kind both (R299, Table 14-3). -/
def Acc.perm (a : Acc) : AccKind := if a.atom then .atomic else a.kind

def Acc.load : Acc := ⟨.read, false, none, 3⟩
def Acc.store : Acc := ⟨.write, false, none, 3⟩

/-- The checks of Table 7-7 on one piece, in their order: alignment, the map, windows, scope, translation, conflicts, and
uncorrectable errors of data read. -/
def State.checkPiece (s : State) (tid : Nat) (t : Thread) (a : Acc) (align : Nat) (va n : Nat) : Except Stop Place :=
  if va % align ≠ 0 then .error (.fault (trapInfo .misaligned a.engine 0 (BitVec.ofNat 48 va)))
  else
    match s.locate tid t a.perm a.scope a.engine va with
    -- $estat[10] says whether the access writes: an LDA does not
    | .fault i => .error (.fault (if a.kind.writes then i else { i with estat := i.estat &&& ~~~1024#64 }))
    | .walk p => .error (.walk p)
    | .ok p =>
      if p.checked && s.rangeBusy tid p n a.kind then .error .wait
      else if p.home = .hbm ∧ s.regionTested p.key then .error .wait
      else if s.heldByOther tid p n a.kind.writes then .error .wait
      else
        match (if p.checked then s.tagCheck tid t.ctl.cmask t.seen p.home.wide p.key n a.kind.writes a.atom a.engine va else none) with
        | some i => .error (.fault i)
        | none =>
          match (if a.kind.reads then s.badWordBut (s.mends tid) p.key n else s.badPartial (s.mends tid) p.key n) with
          | some w => .error (.fault (trapInfo .uncorrectableMemory a.engine 0 (BitVec.ofNat 48 (va + w - p.key))))
          | none => .ok p

/-- The checks of every piece, in ascending order; the first failing one decides (R177, R179). -/
def State.checkAll (s : State) (tid : Nat) (t : Thread) (a : Acc) (align : Nat) : List (Nat × Nat) → Except Stop (List Place)
  | [] => .ok []
  | (va, n) :: ps =>
    match s.checkPiece tid t a align va n with
    | .error e => .error e
    | .ok p =>
      match s.checkAll tid t a align ps with
      | .error e => .error e
      | .ok qs => .ok (p :: qs)

/-- The records of every checked piece are left in the tags. -/
def State.recordAll (s : State) (tid : Nat) (t : Thread) (a : Acc) (ps : List (Place × Nat)) : State :=
  ps.foldl (fun s p =>
    if p.1.checked then s.tagRecord tid t.ctl.cmask t.rel none p.1.home.wide p.1.key p.2 a.kind.reads a.kind.writes a.atom else s) s

/-- The next bundle does not issue until every check has answered (R314, Table 14-4). -/
def State.awaitAnswers (s : State) (ps : List Place) : State :=
  s.updMe (fun t => { t with ready := max t.ready (s.cycle + ps.foldl (fun m p => max m p.answer) 0) })

/-- An access of the thread in issue: held while its own synchronisation operation waits to perform; its checks; then its work on
the places of its pieces (R177, R308, R314). -/
def State.access (s : State) (a : Acc) (align : Nat) (ps : List (Nat × Nat)) (f : State → List Place → State) : State :=
  if s.me.memQ.any (fun x => x.sync && x.ord != s.me.ord) then s.hold
  else
    match s.checkAll s.cur.tid s.me a align ps with
    | .error (.fault i) => s.raise i
    | .error (.walk p) => s.outcome (.walk s.me.dom p)
    | .error .wait => s.hold
    | .ok pl => f ((s.recordAll s.cur.tid s.me a (pl.zip (ps.map Prod.snd))).awaitAnswers pl) pl

/-- An access joins the queue of those that wait to perform (R169); its destinations are interlocked (R52). -/
def State.enqueue (s : State) (op : MemOp) (lat : Nat) (dests : List Dest) (sync : Bool := false) (rel : Nat := 0) : State :=
  s.updMe (fun t =>
    let t := dests.foldl (fun t d => t.lock s.cur.slot d t.nextId) t
    { t with nextId := t.nextId + 1, memQ := t.memQ ++ [⟨t.nextId, s.cycle, s.cycle + lat - 1, t.ord, op, sync, rel⟩] })

/-- The slowest of a list of places. -/
def loadLatency (ps : List Place) : Nat := ps.foldl (fun m p => max m p.home.loadLatency) 1
/-- Cycles until a write completes at its home: its check's answer, and for an unchecked page that of a checked one. -/
def storeLatency (ps : List Place) : Nat := ps.foldl (fun m p => max m (match p.home with | .hbm => 280 | .peer _ => 3 | _ => p.answer)) 1

/-! ## Inbound queues -/

/-- The bytes of an entry as software sees them (Table 12-1). -/
def QEntry.image (e : QEntry) : Nat :=
  e.kind + e.src * 4 + e.ln * 32 + e.seq % 65536 * 2 ^ 16 + e.tag.toNat * 2 ^ 32 +
  (e.addr + (if e.kind = 2 then e.aop * 2 ^ 20 else 0)) * 2 ^ 64 + e.bmask.toNat * 2 ^ 128 +
  (if e.kind = 2 then e.operand * 2 ^ 256 + e.operand2 * 2 ^ 320 else 0) + (if e.kind = 2 then 0 else e.data * 2 ^ 512)

/-- Where entry `i` of queue `q` of a core lies (R270). -/
def queuePlace (core q i : Nat) : Nat := padPlace core (0xF6000 + 0xC00 * q + 192 * i)

/-- The credits of a sending core toward core `k` of its cluster (R272). -/
def Core.credit (c : Core) (k : Nat) : Nat := tget 16 c.cred k
def Core.msgCredit (c : Core) (k : Nat) : Nat := tget 8 c.mcred k

/-- The sending core gives credits for an entry (R272). -/
def State.takeCredits (s : State) (from_ tgt : Nat) (msg : Bool) : State :=
  s.updCore from_ (fun c =>
    { c with cred := tset c.cred (tgt % 8) (c.credit (tgt % 8) - 1),
             mcred := if msg then tset c.mcred (tgt % 8) (c.msgCredit (tgt % 8) - 1) else c.mcred })

/-- An entry is appended to the queue of the sending core at the target core (R270). -/
def State.appendEntry (s : State) (from_ tgt : Nat) (e : QEntry) : State :=
  let q := tget ⟨[], 0⟩ (s.core tgt).inq (from_ % 8)
  let slot := ((List.range 16).find? (fun i => !q.ents.any (fun x => x.place == i))).getD 0
  let e := { e with src := from_ % 8, seq := q.tail % 65536, place := slot, ready := s.cycle + 8, marked := none }
  (s.updCore tgt (fun c => { c with inq := tset c.inq (from_ % 8) ⟨q.ents ++ [e], q.tail + 1⟩ })).write (queuePlace tgt (from_ % 8) slot) 192 e.image

/-- A store's or atomic's entry takes its credit and is appended (R272). -/
def State.sendEntry (s : State) (from_ tgt : Nat) (e : QEntry) : State := (s.takeCredits from_ tgt false).appendEntry from_ tgt e

def QEntry.blank : QEntry := ⟨0, 0, 0, 0, 0, 0, 0, 0, 0, 0, 0, 0, 0, 0, 0, none⟩

/-- The write entry of some bytes of one 128-byte block (R270): byte offsets within the target scratchpad and their values. -/
def writeEntry (tid : Nat) (bytes : List (Nat × Byte)) : QEntry :=
  let base := (bytes.head?.map Prod.fst).getD 0 / 128 * 128
  let place (m : Nat × Nat) (b : Nat × Byte) : Nat × Nat :=
    let i := b.1 - base
    (setBits m.1 i 1 1, setBits m.2 (8 * i) 8 b.2.toNat)
  let (mask, data) := bytes.foldl place (0, 0)
  { QEntry.blank with kind := 1, addr := base, bmask := BitVec.ofNat 128 mask, data := data, asker := tid }

/-! ## Atomic operations -/

/-- The operations of Table 7-6 on a word or doubleword (R181): integer operations wrap, FP32 operations follow R84 under RNE. -/
def amoApply (size op old x : Nat) : Nat × Fp.Flags :=
  let n := 8 * size
  let w32 (v : Nat) : Word := BitVec.ofNat 32 v
  match op with
  | 0 => ((old + x) % 2 ^ n, 0)
  | 1 => (old &&& x, 0)
  | 2 => (old ||| x, 0)
  | 3 => (old ^^^ x, 0)
  | 4 => (if sval n old ≤ sval n x then old else x, 0)
  | 5 => (if sval n x ≤ sval n old then old else x, 0)
  | 6 => (min old x, 0)
  | 7 => (max old x, 0)
  | 8 => (x, 0)
  | 9 => let (r, f) := Fp.fadd .rne (w32 old) (w32 x); (r.toNat, f)
  | 10 => let (r, f) := Fp.fminmax false (w32 old) (w32 x); (r.toNat, f)
  | _ => let (r, f) := Fp.fminmax true (w32 old) (w32 x); (r.toNat, f)

/-- An operation applied at a bank: the value left there (R181). -/
def bankApply (size aop old x y : Nat) : Nat × Fp.Flags :=
  if aop = aopCas then (if old = x then y else old, 0)
  else if aop = aopLda then (old, 0)
  else if aop = aopSta then (x, 0)
  else amoApply size aop old x

/-- The operation stores: an LDA does not, and a CAS only where it finds the value it expects (R181). -/
def bankStores (aop old x : Nat) : Bool := aop != aopLda && (aop != aopCas || old == x)

/-! ## Performing -/

/-- A result of the access at the head lands (R52). -/
def State.deliver (s : State) (tid id : Nat) (d : Dest) (v : Nat) : State := s.updThread tid (fun t => t.landLocked s.cycle id d v)

/-- An atomic's result lands, and its flags are raised as it returns (R181). -/
def State.deliverFlags (s : State) (tid id : Nat) (d : Dest) (v : Nat) (f : Fp.Flags) : State :=
  (s.deliver tid id d v).updThread tid (·.raiseFlags f)

/-- The number of `n` bytes at a place. -/
def State.placeNat (s : State) (p : Place) (n : Nat) : Nat := leNat (s.placeBytes p n)

/-- An access is replaced by what is left of it; `none` where it is done: it leaves the queue and, as a release, advances the counters of its
level (R310). -/
def State.finish (s : State) (tid : Nat) (a : Access) (op : Option MemOp) : State :=
  match op with
  | some o => s.updThread tid (fun t => { t with memQ := t.memQ.map (fun b => if b.id = a.id then { a with op := o } else b) })
  | none =>
    s.updThread tid (fun t => ({ t with memQ := t.memQ.filter (fun b => b.id != a.id), locks := t.locks.filter (fun l => l.id != a.id) }).release a.relLevel)

/-- Lanes of a vector store, as far as the credits of peer queues allow; the lanes left (R270, R272). -/
def State.storeLanes (s : State) (tid : Nat) (blocks : Bool) : Nat → List (Place × Word) → State × List (Place × Word)
  | 0, ls => (s, ls)
  | _ + 1, [] => (s, [])
  | fuel + 1, (p, w) :: ls =>
    match p.home with
    | .peer c =>
      if (s.core (coreOf tid)).credit (c % 8) = 0 then (s, (p, w) :: ls)
      else
        let same (q : Place × Word) : Bool := blocks && decide (q.1.home = p.home ∧ q.1.key / 128 = p.key / 128)
        let group := (p, w) :: ls.takeWhile same
        let bytes := group.flatMap (fun q => (List.range 4).map (fun i => (q.1.key - padPlace c 0 + i, BitVec.ofNat 8 (q.2.toNat / 2 ^ (8 * i)))))
        (s.sendEntry (coreOf tid) c (writeEntry tid bytes)).storeLanes tid blocks fuel (ls.dropWhile same)
    | _ => (s.putPlace p (natBytes 4 w.toNat)).storeLanes tid blocks fuel ls

/-- The number of the hub's atomic unit among the units of the banks. -/
def hubUnit : Nat := 9 * 2 ^ 20

/-- The unit that applies an atomic, one a cycle (R184, Table 7-8): of its bank, or the hub's for HBM; a peer's is left to its queue unit. The spec is
silent on an 8-byte atomic, whose bytes lie in two banks of a scratchpad, and on the hub's rate: the former takes the unit of its low word, and the hub
applies one atomic a cycle as a bank does, both the model's choice (log entry 70). -/
def Place.bank (p : Place) : Option Nat :=
  match p.home with
  | .own => some (unitOf p.key)
  | .die _ => some (unitOf p.key)
  | .hbm => some hubUnit
  | _ => none

/-- The atomic unit of a place has applied an atomic in this cycle. -/
def State.bankUsed (s : State) (p : Place) : Bool := match p.bank with | some b => s.atoms.contains b | none => false

/-- An atomic is applied at a place: the word it returns, and its flags (R181, R184). -/
def State.atBank (s : State) (p : Place) (n op x y : Nat) : State × Nat × Fp.Flags :=
  let old := s.placeNat p n
  let (v, f) := bankApply n op old x y
  let s := { s with atoms := p.bank.toList ++ s.atoms }
  (if bankStores op old x then s.putPlace p (natBytes n v) else s, old, f)

/-- VAMO lanes in ascending order (R182), as far as their banks can apply them in this cycle: each sees the results of those before it; the words
returned, their flags and the lanes left. -/
def State.vamoLanes (s : State) (op : Nat) :
    List (Nat × Place × Word) → List (Nat × Nat) → Fp.Flags → State × List (Nat × Nat) × Fp.Flags × List (Nat × Place × Word)
  | [], acc, fl => (s, acc, fl, [])
  | (i, p, x) :: ls, acc, fl =>
    if s.bankUsed p then (s, acc, fl, (i, p, x) :: ls)
    else
      let (s, old, f) := s.atBank p 4 op x.toNat 0
      s.vamoLanes op ls (acc ++ [(i, old)]) (fl ||| f)

/-- A vector register with some lanes replaced. -/
def withLanes (base : VecReg) (ls : List (Nat × Nat)) : VecReg :=
  ofLanes (fun i => match ls.find? (fun l => l.1 == i) with | some l => BitVec.ofNat 32 l.2 | none => lane base i)

/-- A slot whose every row is written holds none of the errors that have been found in it (R190, R243). -/
def State.clearFound (s : State) (core slot : Nat) : State :=
  { s with ecc := s.ecc.filter (fun e => !(e.2 == 3 && decide (slotErrKey core slot 0 ≤ e.1) && decide (e.1 < slotErrKey core (slot + 1) 0))) }

/-- What the access at the head of a thread's queue does when it performs at its home, and what is left of it (R308). -/
def State.performOp (s : State) (tid : Nat) (a : Access) : State :=
  let core := coreOf tid
  match a.op with
  | .ld d p n sgn =>
    let v := s.placeNat p n
    (s.deliver tid a.id d (if sgn then wrapN 64 (sval (8 * n) v) else v)).finish tid a none
  | .st p n v =>
    match p.home with
    | .peer c =>
      if (s.core core).credit (c % 8) = 0 then s
      else
        let off := p.key - padPlace c 0
        let bytes := (List.range n).zip (natBytes n v) |>.map (fun b => (off + b.1, b.2))
        (s.sendEntry core c (writeEntry tid bytes)).finish tid a none
    | _ => (s.putPlace p (natBytes n v)).finish tid a none
  | .ldv d ls base =>
    (s.deliver tid a.id (.v d) (withLanes base (ls.map (fun l => (l.1, s.placeNat l.2 4)))).toNat).finish tid a none
  | .stv ls blocks =>
    let (s, left) := s.storeLanes tid blocks 32 ls
    s.finish tid a (if left = [] then none else some (.stv left blocks))
  | .amo d p n op x =>
    match p.home with
    | .peer c =>
      if (s.core core).credit (c % 8) = 0 then s
      else
        (s.sendEntry core c { QEntry.blank with kind := 2, addr := p.key - padPlace c 0, asker := tid, size := n, aop := op, operand := x }).finish
          tid a (some (.peerAmo d p n none))
    | _ =>
      let (s, old, f) := s.atBank p n op x 0
      (s.deliverFlags tid a.id d old f).finish tid a none
  | .cas d p n x y =>
    match p.home with
    | .peer c =>
      if (s.core core).credit (c % 8) = 0 then s
      else
        (s.sendEntry core c { QEntry.blank with kind := 2, addr := p.key - padPlace c 0, asker := tid, size := n, aop := aopCas,
                                                  operand := x, operand2 := y }).finish tid a (some (.peerAmo d p n none))
    | _ =>
      let (s, old, f) := s.atBank p n aopCas x y
      (s.deliverFlags tid a.id d old f).finish tid a none
  | .vamo d ls op base fl =>
    let (s, rs, fl, left) := s.vamoLanes op ls [] fl
    if left = [] then (s.deliverFlags tid a.id (.v d) (withLanes base rs).toNat fl).finish tid a none
    else s.finish tid a (some (.vamo d left op (withLanes base rs) fl))
  | .peerAmo d _ _ answer =>
    match answer with
    | some (v, f) => (s.deliverFlags tid a.id d v f).finish tid a none
    | none => s
  | .peerVamo d ls op base fl sent answer =>
    -- one lane at a time: the next is sent when the answer to the one before it has returned
    match ls, answer with
    | [], _ => (s.deliverFlags tid a.id (.v d) base.toNat fl).finish tid a none
    | (i, _, _) :: rest, some (v, f) => s.finish tid a (some (.peerVamo d rest op (withLanes base [(i, v)]) (fl ||| f) 0 none))
    | (i, p, x) :: rest, none =>
      match p.home with
      | .peer c =>
        if sent = 1 ∨ (s.core core).credit (c % 8) = 0 then s
        else
          (s.sendEntry core c { QEntry.blank with kind := 2, addr := p.key - padPlace c 0, asker := tid, size := 4, aop := op,
                                                    operand := x.toNat }).finish tid a (some (.peerVamo d ls op base fl 1 none))
      | _ =>
        let (s, rs, fl, left) := s.vamoLanes op [(i, p, x)] [] fl
        s.finish tid a (some (.peerVamo d (left ++ rest) op (withLanes base rs) fl 0 none))
  | .fence => s.finish tid a none
  | .carrive key n => (s.objArrive key n).finish tid a none
  | .tld slot entry tr row0 k0 _ =>
    let t := tensorOf (tget 0 (s.core core).arr.entries entry).toNat
    let rd (off n : Nat) : Nat := s.read (padPlace core off) n
    let s := s.updArr core (fun x => { x with slots := (List.range 32).foldl (fun m r =>
      tput 0 m (32 * slot + r) (t.slotRow rd tr (row0 + r) k0)) x.slots })
    (s.clearFound core slot).finish tid a none
  | .tlda tile af b st =>
    let n := afBytes af
    let codes := (List.range 1024).map (fun i => s.read (b + i / 32 * st + i % 32 * n) n)
    let (t, f) := tileLoad af codes
    ((s.updArr core (fun x => { x with tiles := tset x.tiles tile t })).updThread tid (·.raiseFlags f)).finish tid a none
  | .tst tile af b st mode rnd =>
    let n := afBytes af
    let cs := tileStore (tget .zero (s.core core).arr.tiles tile) af (fun i => modeOf mode (nth 0 rnd i))
    let s := (List.range 32).foldl (fun s r =>
      let row := ((cs.drop (32 * r)).take 32).flatMap (fun c => natBytes n c.1)
      (s.clearEcc (b + r * st) row.length).softBytes (b + r * st) row) s
    (s.updThread tid (·.raiseFlags (joinFlags (cs.map Prod.snd)))).finish tid a none
  | .image cmd b n =>
    let bs := s.bytesAt b n
    (s.updThread tid (fun t => { t with mat := { t.mat with queue := t.mat.queue.map (fun c =>
      if c.num = cmd then { c with image := some bs } else c) } })).finish tid a none
  | .snapst b bs => ((s.clearEcc b bs.length).softBytes b bs).finish tid a none
  | .msg tgt e => (s.appendEntry core tgt e).finish tid a none
  | .rpush ring slot src n dst mask rel =>
    let bytes := s.bytesAt src n
    let ds := (onesBelow 8 mask).map (fun c =>
      ({ ring := ring, slot := slot, core := c, dst := dst, bytes := bytes, lands := none, producer := tid, rel := rel } : Delivery))
    (s.updCluster (clusterOf tid) (fun c => { c with deliveries := c.deliveries ++ ds })).finish tid a none
  | .sladd cmd b n =>
    let bs := s.bytesAt b n
    (s.updDie (dieOf tid) (fun d => { d with cmds := d.cmds.map (fun c =>
      if c.org.tid = tid ∧ c.id = cmd then
        { c with op := match c.op with | .sladd x y g _ => .sladd x y g (some bs) | o => o }
      else c) })).finish tid a none
  | .packets org ps =>
    (s.updHub (fun h => { h with outq := h.outq ++ ps.map (fun p => ⟨some org, a.id, p.1, p.2.1, none, p.2.2⟩) })).finish tid a
      (some .sending)
  | .sending => if s.hub.outq.any (fun p => p.org.map Origin.tid == some tid && p.id == a.id) then s else s.finish tid a none

/-- The cores whose queues an access is still to append entries to. -/
def MemOp.sends : MemOp → List Nat
  | .st p _ _ => p.peers
  | .stv ls _ => ls.flatMap (fun l => l.1.peers)
  | .amo _ p _ _ _ => p.peers
  | .cas _ p _ _ _ => p.peers
  | .peerVamo _ ls _ _ _ _ _ => ls.flatMap (fun l => l.2.1.peers)
  | .msg tgt _ => [tgt]
  | _ => []

/-- A store, atomic or FRED that waits for credits or a window's limit holds its issue position at the load/store unit (R272, R406, R419). -/
def Access.holdsUnit (a : Access) (cycle : Nat) : Bool :=
  decide (a.ready < cycle) && (match a.op with
    | .msg _ _ => false
    | o => o.outbound || o.sends != [])

/-- An access of another sequencer of the core, issued earlier, is still to append entries to a core that `a` sends to (R273). -/
def State.olderSends (s : State) (tid : Nat) (a : Access) : Bool :=
  (List.range 4).any (fun k =>
    let t := 4 * coreOf tid + k
    t != tid && (s.thread t).memQ.any (fun b => decide (b.at_ < a.at_) && b.op.sends.any (fun c => a.op.sends.contains c)))

/-- The cores an access reads at, or sends an atomic to, behind the thread's own entries there (R274). -/
def MemOp.behind : MemOp → List Nat
  | .ld _ p _ _ => p.peers
  | .ldv _ ls _ => ls.flatMap (fun l => l.2.peers)
  | .amo _ p _ _ _ => p.peers
  | .cas _ p _ _ _ => p.peers
  | _ => []

/-- The place at which an atomic is to be applied next, if it is one. -/
def MemOp.atomPlace : MemOp → Option Place
  | .amo _ p _ _ _ => some p
  | .cas _ p _ _ _ => some p
  | .vamo _ ls _ _ _ => ls.head?.map (fun l => l.2.1)
  | .peerVamo _ ls _ _ _ 0 _ => ls.head?.map (fun l => l.2.1)
  | _ => none

/-- The access is an atomic that the hub's unit is still to apply. -/
def MemOp.atHub (o : MemOp) : Bool := o.atomPlace.any (fun p => decide (p.home = .hbm))

/-- An access that has been checked reaches a region of HBM under test, and waits (R388). -/
def State.opTested (s : State) (o : MemOp) : Bool := s.hub.units != [] && o.touches.any (fun x => s.regionTested x.1)

/-- Whether an access may perform: its time has come, no range in transfer and no test holds its bytes, the bank of an atomic is free, a peer load or atomic finds the thread's earlier entries there
applied, earlier accesses of the core have appended their entries, and a synchronisation operation finds every earlier write completed and every earlier
stream read (R168, R388, R184, R273, R274, R308, R311). -/
def State.canPerform (s : State) (tid : Nat) (a : Access) : Bool :=
  decide (a.ready ≤ s.cycle) && !s.rangesHold tid a.op && !s.opTested a.op && !(a.op.atomPlace.any s.bankUsed) && a.op.behind.all (fun c => !s.entriesAt tid c) && !s.olderSends tid a &&
  (!a.sync || (!s.writesAway tid && !s.streamsAhead tid a.ord))

/-- The accesses of a thread that nothing of its queue stands before: the oldest, and the oldest of those that no other waits for (R169, R311). -/
def Thread.firsts (t : Thread) : List Access := (t.memQ.find? (fun a => !a.op.outbound)).toList ++ (t.memQ.find? (fun a => a.op.outbound)).toList

/-- The first of them that satisfies a condition and may perform does. -/
def State.performFirst (s : State) (tid : Nat) (p : MemOp → Bool) : State :=
  match (s.thread tid).firsts.find? (fun a => p a.op && s.canPerform tid a) with
  | some a => s.performOp tid a
  | none => s

/-- ACCESS_PERFORMS_AT_HOME: the oldest access of a thread that has passed its checks performs (R169, R308). -/
def execAccessPerformsAtHome (tid : Nat) (s : State) : Host.Outcome State Fault Refusal := .next (s.performFirst tid (fun _ => true))

/-- A thread with restored records may issue from a cycle on that is known: it waits for nothing, and the hub has applied its atomics (R56, R258, R314). -/
def Thread.mayLand (t : Thread) : Bool :=
  t.parked != [] && (t.st == .running || t.st == .trapped || t.st == .retiring) && !t.paused && !t.memQ.any (fun a => a.op.atHub)

/-- The writes of a thread at the end of a cycle: restored records take their landing cycles once the thread may issue, and those that are due land. -/
def Thread.endWrites (t : Thread) (cycle : Nat) : Thread := (if t.mayLand then t.unpark (max t.ready (cycle + 1)) else t).landDue cycle

/-- FIXED_LATENCY_WRITE_LANDS: every write of a thread due by the end of the cycle lands (R51, R53). -/
def execFixedLatencyWriteLands (tid : Nat) (s : State) : Host.Outcome State Fault Refusal :=
  .next (s.updThread tid (fun t => t.endWrites s.cycle))

end Sys2Proof.Machine
end

