-- ==== Sys2Proof/Machine/Scalar.lean ====
section
/-! DEFINITION. The S slot (R114 to R124): integer, logic, constants, guards, system registers and scalar FP32. -/

namespace Sys2Proof.Machine

open Sys2Proof

/-! ## Values -/

/-- The low half of a scalar register: the FP32 operand (Table 4-1). -/
def low32 (x : DWord) : Word := x.setWidth 32

/-- The high half of an exact product of two integers (R115). -/
def highProduct (x y : Int) : DWord := BitVec.ofInt 64 (x * y / (2 ^ 64 : Nat))

/-- DIV: truncation toward zero; a zero divisor gives all ones; -2^63 / -1 wraps (R116). -/
def divS (x y : DWord) : DWord := if y = 0 then -1 else BitVec.ofInt 64 (Int.tdiv x.toInt y.toInt)

/-- REM: the dividend's sign; a zero divisor gives the dividend (R116). -/
def remS (x y : DWord) : DWord := if y = 0 then x else BitVec.ofInt 64 (Int.tmod x.toInt y.toInt)

/-- DIVU (R116). -/
def divU (x y : DWord) : DWord := if y = 0 then -1 else BitVec.ofNat 64 (x.toNat / y.toNat)

/-- REMU (R116). -/
def remU (x y : DWord) : DWord := if y = 0 then x else BitVec.ofNat 64 (x.toNat % y.toNat)

/-- Shifts by the low six bits of an amount (R117). -/
def shlS (x : DWord) (n : Nat) : DWord := x <<< (n % 64)
def shrS (x : DWord) (n : Nat) : DWord := x >>> (n % 64)
def sarS (x : DWord) (n : Nat) : DWord := x.sshiftRight (n % 64)

/-- The second operand of ADD, SUB and MUL: s[b], or n[b] when NB = 1 (R115). -/
def State.opNB (s : State) (b : BitVec 5) (k : BitVec 1) : DWord :=
  if k = 1 then (s.src.nreg b.toNat).setWidth 64 else s.s b

/-- BFX (R118). -/
def bitExtract (x : DWord) (lo w : Nat) (sx : Bool) : DWord :=
  let f := nbits x.toNat lo w
  if sx ∧ w < 64 then BitVec.ofInt 64 (sval w f) else BitVec.ofNat 64 f

/-- BFI (R118). -/
def bitInsert (old x : DWord) (lo w : Nat) : DWord := BitVec.ofNat 64 (setBits old.toNat lo w x.toNat)

/-! ## Shared operations -/

/-- A scalar result of two registers (R115 to R117). -/
def scalar2 (gd : Guard) (d a b : BitVec 5) (lat : Nat) (f : DWord → DWord → DWord) (s : State) :
    Host.Outcome State Fault Refusal :=
  guarded gd s (fun s => s.postS d (f (s.s a) (s.s b)) lat)

/-- A scalar result of a register and a value. -/
def scalarI (gd : Guard) (d a : BitVec 5) (lat : Nat) (f : DWord → DWord) (s : State) : Host.Outcome State Fault Refusal :=
  guarded gd s (fun s => s.postS d (f (s.s a)) lat)

/-- A rounding FP32 operation of s[a] and s[b] (R122, R123): the result zero-extended, flags into $fstat, one draw under RST. -/
def scalarFp (gd : Guard) (d a b : BitVec 5) (r : BitVec 4) (f : Fp.Mode → Word → Word → Word → Word × Fp.Flags) (s : State) :
    Host.Outcome State Fault Refusal :=
  guarded gd s (fun s =>
    let (md, s') := s.modes (s.roundCode4 r) 1
    let (x, fl) := f (md 0) (low32 (s.s a)) (low32 (s.s b)) (low32 (s.s d))
    (s'.flags fl).postS d (x.setWidth 64) 4)

/-- FMIN and FMAX (R122). -/
def scalarMinMax (gd : Guard) (d a b : BitVec 5) (isMax : Bool) (s : State) : Host.Outcome State Fault Refusal :=
  guarded gd s (fun s =>
    let (x, fl) := Fp.fminmax isMax (low32 (s.s a)) (low32 (s.s b))
    (s.flags fl).postS d (x.setWidth 64) 2)

/-! ## Integer arithmetic -/

/-- ADD, with s[b] or a loop index (R115). -/
def execAdd (gd : Guard) (d a b : BitVec 5) (k : BitVec 1) (s : State) : Host.Outcome State Fault Refusal :=
  guarded gd s (fun s => s.postS d (s.s a + s.opNB b k) 1)

/-- ADDI (R115). -/
def execAddi (gd : Guard) (d a : BitVec 5) (i : BitVec 12) (kw : Option (BitVec 32)) (s : State) :
    Host.Outcome State Fault Refusal :=
  scalarI gd d a 1 (fun x => x + immS12 i kw) s

/-- SUB, with s[b] or a loop index (R115). -/
def execSub (gd : Guard) (d a b : BitVec 5) (k : BitVec 1) (s : State) : Host.Outcome State Fault Refusal :=
  guarded gd s (fun s => s.postS d (s.s a - s.opNB b k) 1)

/-- MUL, with s[b] or a loop index (R115). -/
def execMul (gd : Guard) (d a b : BitVec 5) (k : BitVec 1) (s : State) : Host.Outcome State Fault Refusal :=
  guarded gd s (fun s => s.postS d (s.s a * s.opNB b k) 3)

/-- MULH: the high half of the exact signed product (R115). -/
def execMulh (gd : Guard) (d a b : BitVec 5) (s : State) : Host.Outcome State Fault Refusal :=
  scalar2 gd d a b 3 (fun x y => highProduct x.toInt y.toInt) s

/-- MULHU (R115). -/
def execMulhu (gd : Guard) (d a b : BitVec 5) (s : State) : Host.Outcome State Fault Refusal :=
  scalar2 gd d a b 3 (fun x y => highProduct x.toNat y.toNat) s

/-- DIV (R116). -/
def execDiv (gd : Guard) (d a b : BitVec 5) (s : State) : Host.Outcome State Fault Refusal :=
  scalar2 gd d a b 20 (fun x y => divS x y) s

/-- DIVU (R116). -/
def execDivu (gd : Guard) (d a b : BitVec 5) (s : State) : Host.Outcome State Fault Refusal :=
  scalar2 gd d a b 20 (fun x y => divU x y) s

/-- REM (R116). -/
def execRem (gd : Guard) (d a b : BitVec 5) (s : State) : Host.Outcome State Fault Refusal :=
  scalar2 gd d a b 20 (fun x y => remS x y) s

/-- REMU (R116). -/
def execRemu (gd : Guard) (d a b : BitVec 5) (s : State) : Host.Outcome State Fault Refusal :=
  scalar2 gd d a b 20 (fun x y => remU x y) s

/-! ## Logic, shifts, comparisons and counts -/

/-- AND (R117). -/
def execAndS (gd : Guard) (d a b : BitVec 5) (s : State) : Host.Outcome State Fault Refusal :=
  scalar2 gd d a b 1 (fun x y => x &&& y) s

/-- ANDI: the immediate sign-extends (R117). -/
def execAndi (gd : Guard) (d a : BitVec 5) (i : BitVec 12) (kw : Option (BitVec 32)) (s : State) :
    Host.Outcome State Fault Refusal :=
  scalarI gd d a 1 (fun x => x &&& immS12 i kw) s

/-- OR (R117). -/
def execOrS (gd : Guard) (d a b : BitVec 5) (s : State) : Host.Outcome State Fault Refusal :=
  scalar2 gd d a b 1 (fun x y => x ||| y) s

/-- ORI: the immediate zero-extends (R117). -/
def execOri (gd : Guard) (d a : BitVec 5) (i : BitVec 12) (kw : Option (BitVec 32)) (s : State) :
    Host.Outcome State Fault Refusal :=
  scalarI gd d a 1 (fun x => x ||| immZ12 i kw) s

/-- XOR (R117). -/
def execXorS (gd : Guard) (d a b : BitVec 5) (s : State) : Host.Outcome State Fault Refusal :=
  scalar2 gd d a b 1 (fun x y => x ^^^ y) s

/-- XORI: the immediate zero-extends (R117). -/
def execXori (gd : Guard) (d a : BitVec 5) (i : BitVec 12) (kw : Option (BitVec 32)) (s : State) :
    Host.Outcome State Fault Refusal :=
  scalarI gd d a 1 (fun x => x ^^^ immZ12 i kw) s

/-- ANDN (R117). -/
def execAndn (gd : Guard) (d a b : BitVec 5) (s : State) : Host.Outcome State Fault Refusal :=
  scalar2 gd d a b 1 (fun x y => x &&& ~~~y) s

/-- SHL by s[b][5:0] (R117). -/
def execShl (gd : Guard) (d a b : BitVec 5) (s : State) : Host.Outcome State Fault Refusal :=
  scalar2 gd d a b 1 (fun x y => shlS x y.toNat) s

/-- SHLI by 0 to 63 (R117). -/
def execShli (gd : Guard) (d a : BitVec 5) (i : BitVec 12) (kw : Option (BitVec 32)) (s : State) :
    Host.Outcome State Fault Refusal :=
  scalarI gd d a 1 (fun x => shlS x (immU12 i kw)) s

/-- SHR by s[b][5:0] (R117). -/
def execShr (gd : Guard) (d a b : BitVec 5) (s : State) : Host.Outcome State Fault Refusal :=
  scalar2 gd d a b 1 (fun x y => shrS x y.toNat) s

/-- SHRI by 0 to 63 (R117). -/
def execShri (gd : Guard) (d a : BitVec 5) (i : BitVec 12) (kw : Option (BitVec 32)) (s : State) :
    Host.Outcome State Fault Refusal :=
  scalarI gd d a 1 (fun x => shrS x (immU12 i kw)) s

/-- SAR by s[b][5:0] (R117). -/
def execSar (gd : Guard) (d a b : BitVec 5) (s : State) : Host.Outcome State Fault Refusal :=
  scalar2 gd d a b 1 (fun x y => sarS x y.toNat) s

/-- SARI by 0 to 63 (R117). -/
def execSari (gd : Guard) (d a : BitVec 5) (i : BitVec 12) (kw : Option (BitVec 32)) (s : State) :
    Host.Outcome State Fault Refusal :=
  scalarI gd d a 1 (fun x => sarS x (immU12 i kw)) s

/-- CMP (R117, Table 4-8). -/
def execCmp (gd : Guard) (d a b : BitVec 5) (c : BitVec 3) (s : State) : Host.Outcome State Fault Refusal :=
  guarded gd s (fun s => s.postG d (cmpCode c.toNat (s.s a) (s.s b)) 1)

/-- CMPI (R117, Table 4-8). -/
def execCmpi (gd : Guard) (c : BitVec 2) (q : BitVec 3) (a : BitVec 5) (i : BitVec 12) (kw : Option (BitVec 32)) (s : State) :
    Host.Outcome State Fault Refusal :=
  guarded gd s (fun s => s.postG q (cmpCode c.toNat (s.s a) (immS12 i kw)) 1)

/-- SEL: s[a] when the selecting guard, inverted by its negate bit, is true (R117). -/
def execSel (gd : Guard) (d a b : BitVec 5) (x : BitVec 1) (k : BitVec 3) (s : State) : Host.Outcome State Fault Refusal :=
  guarded gd s (fun s => s.postS d (if s.g k != (x == 1) then s.s a else s.s b) 1)

/-- MIN (R117). -/
def execMin (gd : Guard) (d a b : BitVec 5) (s : State) : Host.Outcome State Fault Refusal :=
  scalar2 gd d a b 1 (fun x y => minMax false false x y) s

/-- MAX (R117). -/
def execMax (gd : Guard) (d a b : BitVec 5) (s : State) : Host.Outcome State Fault Refusal :=
  scalar2 gd d a b 1 (fun x y => minMax true false x y) s

/-- MINU (R117). -/
def execMinu (gd : Guard) (d a b : BitVec 5) (s : State) : Host.Outcome State Fault Refusal :=
  scalar2 gd d a b 1 (fun x y => minMax false true x y) s

/-- MAXU (R117). -/
def execMaxu (gd : Guard) (d a b : BitVec 5) (s : State) : Host.Outcome State Fault Refusal :=
  scalar2 gd d a b 1 (fun x y => minMax true true x y) s

/-- CLZ (R117). -/
def execClz (gd : Guard) (d a : BitVec 5) (s : State) : Host.Outcome State Fault Refusal :=
  scalarI gd d a 1 (fun x => BitVec.ofNat 64 (clzN 64 x.toNat)) s

/-- POPC (R117). -/
def execPopc (gd : Guard) (d a : BitVec 5) (s : State) : Host.Outcome State Fault Refusal :=
  scalarI gd d a 1 (fun x => BitVec.ofNat 64 (popN 64 x.toNat)) s

/-- BFX (R118). -/
def execBfx (gd : Guard) (d a : BitVec 5) (i : BitVec 12) (kw : Option (BitVec 32)) (s : State) : Host.Outcome State Fault Refusal :=
  let (lo, w, sx) := bfField i kw
  scalarI gd d a 1 (fun x => bitExtract x lo w sx) s

/-- BFI: s[d] is source and destination (R118). -/
def execBfi (gd : Guard) (d a : BitVec 5) (i : BitVec 12) (kw : Option (BitVec 32)) (s : State) : Host.Outcome State Fault Refusal :=
  let (lo, w, _) := bfField i kw
  guarded gd s (fun s => s.postS d (bitInsert (s.s d) (s.s a) lo w) 1)

/-! ## Constants and addresses -/

/-- LI (R119). -/
def execLi (gd : Guard) (d : BitVec 5) (i : BitVec 17) (kw : Option (BitVec 32)) (s : State) : Host.Outcome State Fault Refusal :=
  guarded gd s (fun s => s.postS d (immS17 i kw) 1)

/-- LIH: the high half; the low half is kept (R119). -/
def execLih (gd : Guard) (d : BitVec 5) (i : BitVec 17) (kw : Option (BitVec 32)) (s : State) : Host.Outcome State Fault Refusal :=
  guarded gd s (fun s => s.postS d (BitVec.ofNat 64 (setBits (s.s d).toNat 32 32 (immS17 i kw).toNat)) 1)

/-- LEA (R119). -/
def execLea (gd : Guard) (d a : BitVec 5) (i : BitVec 12) (kw : Option (BitVec 32)) (s : State) : Host.Outcome State Fault Refusal :=
  scalarI gd d a 1 (fun x => ((x + immS12 i kw).setWidth 48).setWidth 64) s

/-- ADDPC (R119). -/
def execAddpc (gd : Guard) (d : BitVec 5) (i : BitVec 17) (kw : Option (BitVec 32)) (s : State) : Host.Outcome State Fault Refusal :=
  guarded gd s (fun s => s.postS d ((s.cur.pc + (immS17 i kw).setWidth 48).setWidth 64) 1)

/-! ## Guards and system registers -/

/-- GOP (R120, Table 4-9). -/
def execGop (gd : Guard) (d a b : BitVec 5) (f : BitVec 7) (s : State) : Host.Outcome State Fault Refusal :=
  guarded gd s (fun s =>
    if f = 8 then s.postG d (s.s a != 0) 1
    else if f = 9 then s.postS d (BitVec.ofNat 64 (b2n (s.g a))) 1
    else s.postG d (gopCode f.toNat (s.g a) (s.g b)) 1)

/-- The access of a system register is denied at the thread's level (R13, R39). -/
def State.sysDenied (s : State) (n : Nat) : Bool :=
  match sysRegInfo n with
  | some r => !r.atT && !s.me.atF
  | none => false

/-- MOVS: a denied register traps PRIVILEGED whatever the guard; the read zero-extends (R13, R121). -/
def execMovs (gd : Guard) (d : BitVec 5) (i : BitVec 17) (kw : Option (BitVec 32)) (s : State) : Host.Outcome State Fault Refusal :=
  let n := immU17 i kw
  if s.sysDenied n then .next (s.privileged 0) else guarded gd s (fun s => s.postS d (s.sysRead n) 2)

/-- The write of MOVZ: $fstat clears the bits that are 1; every other register takes the value with L = 1 (R14, R121). -/
def State.sysWrite (s : State) (n : Nat) (x : DWord) : State :=
  if n = 0x011 then s.updMe (fun t => { t with ctl := { t.ctl with fstat := t.ctl.fstat &&& ~~~(x.setWidth 6) } })
  else s.post (.sys n) x.toNat 1

/-- MOVZ: a denied register traps PRIVILEGED whatever the guard; a reserved bit traps ILLEGAL_OP and writes nothing (R13, R121). -/
def execMovz (gd : Guard) (d : BitVec 5) (i : BitVec 17) (kw : Option (BitVec 32)) (s : State) : Host.Outcome State Fault Refusal :=
  let n := immU17 i kw
  if s.sysDenied n then .next (s.privileged 0)
  else guarded gd s (fun s => if movzReserved n (s.s d) then s.illegal 0x28 0 else s.sysWrite n (s.s d))

/-! ## Scalar floating point -/

/-- FADD (R122). -/
def execFadd (gd : Guard) (d a b : BitVec 5) (r : BitVec 4) (s : State) : Host.Outcome State Fault Refusal :=
  scalarFp gd d a b r (fun md x y _ => Fp.fadd md x y) s

/-- FSUB (R122). -/
def execFsub (gd : Guard) (d a b : BitVec 5) (r : BitVec 4) (s : State) : Host.Outcome State Fault Refusal :=
  scalarFp gd d a b r (fun md x y _ => Fp.fsub md x y) s

/-- FMUL (R122). -/
def execFmul (gd : Guard) (d a b : BitVec 5) (r : BitVec 4) (s : State) : Host.Outcome State Fault Refusal :=
  scalarFp gd d a b r (fun md x y _ => Fp.fmul md x y) s

/-- FMA: s[a] x s[b] + s[d] with one rounding (R122). -/
def execFma (gd : Guard) (d a b : BitVec 5) (r : BitVec 4) (s : State) : Host.Outcome State Fault Refusal :=
  scalarFp gd d a b r (fun md x y z => Fp.fma md x y z) s

/-- FMIN (R122). -/
def execFmin (gd : Guard) (d a b : BitVec 5) (s : State) : Host.Outcome State Fault Refusal := scalarMinMax gd d a b false s

/-- FMAX (R122). -/
def execFmax (gd : Guard) (d a b : BitVec 5) (s : State) : Host.Outcome State Fault Refusal := scalarMinMax gd d a b true s

/-- FCMP (R122, Table 4-8). -/
def execFcmp (gd : Guard) (d a b : BitVec 5) (c : BitVec 3) (s : State) : Host.Outcome State Fault Refusal :=
  guarded gd s (fun s =>
    let (x, fl) := Fp.fcmp c.toNat (low32 (s.s a)) (low32 (s.s b))
    (s.flags fl).postG d x 2)

/-- FCVTI (R124). -/
def execFcvti (gd : Guard) (d a : BitVec 5) (u : BitVec 1) (r : BitVec 4) (s : State) : Host.Outcome State Fault Refusal :=
  guarded gd s (fun s =>
    let (md, s') := s.modes (s.roundCode4 r) 1
    let (x, fl) := Fp.toInt (u == 1) 64 (md 0) (low32 (s.s a))
    (s'.flags fl).postS d (BitVec.ofNat 64 x) 3)

/-- FCVTF (R124). -/
def execFcvtf (gd : Guard) (d a : BitVec 5) (u : BitVec 1) (r : BitVec 4) (s : State) : Host.Outcome State Fault Refusal :=
  guarded gd s (fun s =>
    let (md, s') := s.modes (s.roundCode4 r) 1
    let (x, fl) := Fp.ofIntF (md 0) (if u = 1 then (s.s a).toNat else (s.s a).toInt)
    (s'.flags fl).postS d (x.setWidth 64) 3)

end Sys2Proof.Machine
end

