-- ==== Sys2Proof/Machine/LoadStore.lean ====
section
/-! DEFINITION. Loads, stores, atomics and fences of the L slot (R176 to R185, R405, R406). -/

namespace Sys2Proof.Machine

open Sys2Proof

/-! ## Shared operations -/

/-- An address of 64-bit arithmetic, modulo 2^48 (R176). -/
def addr48 (x : DWord) : Nat := x.toNat % 2 ^ 48

/-- LD and LDU (R178): the access, then the result when it performs. -/
def State.load (s : State) (d b : BitVec 5) (i : BitVec 12) (kw : Option (BitVec 32)) (n : Nat) (sgn : Bool) : State :=
  s.access .load n [((s.ea b i kw).toNat, n)] (fun s ps =>
    match ps with
    | p :: _ => s.enqueue (.ld (.s d.toNat) p n sgn) (loadLatency ps) [.s d.toNat]
    | [] => s)

/-- The 4-byte units of a store into a window: address, offset and word. -/
abbrev WinUnit := Nat × Nat × Word

/-- The packet of one 128-byte block of a window store, with the address of its first byte (R406, R407): of two units at one place the later prevails. -/
def State.windowPacket (s : State) (w blk : Nat) (us : List WinUnit) : VAddr × Packet :=
  let win := (tget 0 s.me.regs.win w).toNat
  let mine := us.filter (fun u => u.2.1 / 128 == blk)
  let mask := mine.foldl (fun m u => setBits m (u.2.1 % 128 / 4) 1 1) 0
  let data := (List.range 32).map (fun i =>
    (mine.foldl (fun x u => if u.2.1 % 128 / 4 = i then some u.2.2 else x) none).getD 0)
  (BitVec.ofNat 48 ((mine.map Prod.fst).foldl min ((mine.head?.map Prod.fst).getD 0)),
   { type := 1, ndata := 2, src := s.hub.device, dst := BitVec.ofNat 11 (nbits win 1 11), vc := 0, hops := 0, esc := false, via := 0,
     seq := 0, stepno := BitVec.ofNat 32 s.hub.pod.stepnum, off := BitVec.ofNat 20 (blk * 128), core := BitVec.ofNat 3 (nbits win 18 3),
     clu := BitVec.ofNat 5 (nbits win 13 5), die := BitVec.ofNat 1 (nbits win 12 1), rule := BitVec.ofNat 2 (nbits win 21 2),
     op := BitVec.ofNat 3 (nbits win 23 3), dom := s.me.dom, umask := BitVec.ofNat 32 mask, ext := 0, data := data })

/-- The distinct blocks of units, each with its window, in the order of their first units. -/
def blocksOf (us : List (Nat × WinUnit)) : List (Nat × Nat) :=
  us.foldl (fun bs u => if bs.contains (u.1, u.2.2.1 / 128) then bs else bs ++ [(u.1, u.2.2.1 / 128)]) []

/-- The packets of a store's units through the windows it addresses, in lane order (R406). -/
def State.sendWindows (s : State) (us : List (Nat × WinUnit)) : State :=
  if us = [] then s
  else s.enqueue (.packets s.origin ((blocksOf us).map (fun b => (b.1, s.windowPacket b.1 b.2 ((us.filter (fun u => u.1 == b.1)).map Prod.snd))))) 1 []

/-- The window a place lies in. -/
def Place.window? (p : Place) : Option Nat :=
  match p.home with
  | .window k => some k
  | _ => none

/-- Words stored at places: through windows as packets, elsewhere as one vector store (R179, R180, R406). -/
def State.storeWords (s : State) (vas : List Nat) (ps : List Place) (ws : List Word) (blocks : Bool) : State :=
  let all := vas.zip (ps.zip ws)
  let mem := all.filterMap (fun x => if x.2.1.window?.isNone then some (x.2.1, x.2.2) else none)
  let wins : List (Nat × WinUnit) := all.filterMap (fun x => x.2.1.window?.map (fun k => (k, (x.1, x.2.1.key, x.2.2))))
  let s := if mem = [] then s else s.enqueue (.stv mem blocks) (storeLatency (mem.map Prod.fst)) []
  s.sendWindows wins

/-- ST (R178, R405): a byte or halfword store to a window traps MISALIGNED. -/
def State.store (s : State) (d b : BitVec 5) (i : BitVec 12) (kw : Option (BitVec 32)) (n : Nat) : State :=
  let va := (s.ea b i kw).toNat
  let v := (s.s d).toNat % 2 ^ (8 * n)
  let align := if n < 4 then (match regionOf s.cur.tid va with | .window _ _ => 2 ^ 48 | _ => n) else n
  s.access .store align [(va, n)] (fun s ps =>
    match ps with
    | p :: _ =>
      match p.window? with
      | some k =>
        s.sendWindows ((List.range (n / 4)).map (fun j => (k, (va + 4 * j, p.key + 4 * j, BitVec.ofNat 32 (v / 2 ^ (32 * j))))))
      | none => s.enqueue (.st p n v) (storeLatency ps) []
    | [] => s)

/-- Vector loads: the lanes in `act` at their addresses; the others from `base` (R179, R180). -/
def State.loadLanes (s : State) (d : BitVec 5) (act : List Nat) (va : Nat → Nat) (base : VecReg) : State :=
  s.access .load 4 (act.map (fun i => (va i, 4))) (fun s ps =>
    s.enqueue (.ldv d.toNat (act.zip ps) base) (loadLatency ps) [.v d.toNat])

/-- Vector stores of the lanes in `act`, in ascending order (R179, R180). -/
def State.storeActive (s : State) (v : VecReg) (act : List Nat) (va : Nat → Nat) (blocks : Bool) : State :=
  let vas := act.map va
  s.access .store 4 (vas.map (fun a => (a, 4))) (fun s ps => s.storeWords vas ps (act.map (lane v)) blocks)

/-- The active lanes of a mask register. -/
def State.actives (s : State) (k : BitVec 3) : List Nat := onesBelow 32 (s.m k).toNat

/-- What a masked load leaves in its inactive lanes: v[d] at issue, or 0 (R127, R180). -/
def State.loadBase (s : State) (d : BitVec 5) (z : BitVec 1) : VecReg := if z = 1 then 0 else s.v d

/-- Lane addresses of the strided and indexed forms (R180). -/
def State.strided (s : State) (a b : BitVec 5) (i : Nat) : Nat := addr48 (s.s a + BitVec.ofNat 64 i * (low32 (s.s b)).signExtend 64)
def State.indexed (s : State) (a b : BitVec 5) (i : Nat) : Nat := addr48 (s.s a + (lane (s.v b) i).setWidth 64)

/-- The order releases; it acquires or releases (Table 14-7). -/
def ordReleases (o : Nat) : Bool := o == 2 || o == 3 || o == 4

/-- An atomic at the address s[a] with its scope and order (R181, R183, R308): the next bundle waits for the hub's result. -/
def State.atomicAt (s : State) (k : AccKind) (a : BitVec 5) (n sc : Nat) (f : State → Place → State) : State :=
  s.access ⟨k, true, some sc, 3⟩ n [(addr48 (s.s a), n)] (fun s ps =>
    match ps with
    | p :: _ => f (if p.home = .hbm then s.updMe (fun t => { t with ready := max t.ready (s.cycle + 340) }) else s) p
    | [] => s)

/-- Cycles until an atomic's result lands (Table 14-4). -/
def Place.atomLatency (p : Place) : Nat := match p.home with | .hbm => 340 | .peer _ => 3 | h => h.loadLatency

/-! ## Scalar loads and stores -/

/-- LD.b (R178). -/
def execLdB (gd : Guard) (d b : BitVec 5) (i : BitVec 12) (kw : Option (BitVec 32)) (s : State) : Host.Outcome State Fault Refusal :=
  guarded gd s (fun s => s.load d b i kw 1 true)

/-- LD.h (R178). -/
def execLdH (gd : Guard) (d b : BitVec 5) (i : BitVec 12) (kw : Option (BitVec 32)) (s : State) : Host.Outcome State Fault Refusal :=
  guarded gd s (fun s => s.load d b i kw 2 true)

/-- LD.w (R178). -/
def execLdW (gd : Guard) (d b : BitVec 5) (i : BitVec 12) (kw : Option (BitVec 32)) (s : State) : Host.Outcome State Fault Refusal :=
  guarded gd s (fun s => s.load d b i kw 4 true)

/-- LD.d (R178). -/
def execLdD (gd : Guard) (d b : BitVec 5) (i : BitVec 12) (kw : Option (BitVec 32)) (s : State) : Host.Outcome State Fault Refusal :=
  guarded gd s (fun s => s.load d b i kw 8 false)

/-- LDU.b (R178). -/
def execLduB (gd : Guard) (d b : BitVec 5) (i : BitVec 12) (kw : Option (BitVec 32)) (s : State) : Host.Outcome State Fault Refusal :=
  guarded gd s (fun s => s.load d b i kw 1 false)

/-- LDU.h (R178). -/
def execLduH (gd : Guard) (d b : BitVec 5) (i : BitVec 12) (kw : Option (BitVec 32)) (s : State) : Host.Outcome State Fault Refusal :=
  guarded gd s (fun s => s.load d b i kw 2 false)

/-- LDU.w (R178). -/
def execLduW (gd : Guard) (d b : BitVec 5) (i : BitVec 12) (kw : Option (BitVec 32)) (s : State) : Host.Outcome State Fault Refusal :=
  guarded gd s (fun s => s.load d b i kw 4 false)

/-- ST.b (R178). -/
def execStB (gd : Guard) (d b : BitVec 5) (i : BitVec 12) (kw : Option (BitVec 32)) (s : State) : Host.Outcome State Fault Refusal :=
  guarded gd s (fun s => s.store d b i kw 1)

/-- ST.h (R178). -/
def execStH (gd : Guard) (d b : BitVec 5) (i : BitVec 12) (kw : Option (BitVec 32)) (s : State) : Host.Outcome State Fault Refusal :=
  guarded gd s (fun s => s.store d b i kw 2)

/-- ST.w (R178). -/
def execStW (gd : Guard) (d b : BitVec 5) (i : BitVec 12) (kw : Option (BitVec 32)) (s : State) : Host.Outcome State Fault Refusal :=
  guarded gd s (fun s => s.store d b i kw 4)

/-- ST.d (R178). -/
def execStD (gd : Guard) (d b : BitVec 5) (i : BitVec 12) (kw : Option (BitVec 32)) (s : State) : Host.Outcome State Fault Refusal :=
  guarded gd s (fun s => s.store d b i kw 8)

/-! ## Vector loads and stores -/

/-- LDV (R179). -/
def execLdv (gd : Guard) (d b : BitVec 5) (i : BitVec 12) (kw : Option (BitVec 32)) (s : State) : Host.Outcome State Fault Refusal :=
  guarded gd s (fun s => s.loadLanes d (List.range 32) (fun j => ((s.ea b i kw).toNat + 4 * j) % 2 ^ 48) 0)

/-- STV (R179). -/
def execStv (gd : Guard) (d b : BitVec 5) (i : BitVec 12) (kw : Option (BitVec 32)) (s : State) : Host.Outcome State Fault Refusal :=
  guarded gd s (fun s => s.storeActive (s.v d) (List.range 32) (fun j => ((s.ea b i kw).toNat + 4 * j) % 2 ^ 48) true)

/-- LDVS (R180). -/
def execLdvs (gd : Guard) (d a b : BitVec 5) (z : BitVec 1) (k : BitVec 3) (s : State) : Host.Outcome State Fault Refusal :=
  guarded gd s (fun s => s.loadLanes d (s.actives k) (s.strided a b) (s.loadBase d z))

/-- STVS (R180). -/
def execStvs (gd : Guard) (d a b : BitVec 5) (k : BitVec 3) (s : State) : Host.Outcome State Fault Refusal :=
  guarded gd s (fun s => s.storeActive (s.v d) (s.actives k) (s.strided a b) false)

/-- LDVX (R180). -/
def execLdvx (gd : Guard) (d a b : BitVec 5) (z : BitVec 1) (k : BitVec 3) (s : State) : Host.Outcome State Fault Refusal :=
  guarded gd s (fun s => s.loadLanes d (s.actives k) (s.indexed a b) (s.loadBase d z))

/-- STVX (R180). -/
def execStvx (gd : Guard) (d a b : BitVec 5) (k : BitVec 3) (s : State) : Host.Outcome State Fault Refusal :=
  guarded gd s (fun s => s.storeActive (s.v d) (s.actives k) (s.indexed a b) false)

/-! ## Atomics and fences -/

/-- LDA: an atomic that leaves its 4 or 8 bytes as they are, with its order and scope (R181, R308, R312). -/
def execLda (gd : Guard) (d a : BitVec 5) (w : BitVec 1) (sc o : BitVec 3) (s : State) : Host.Outcome State Fault Refusal :=
  let n := 4 + 4 * w.toNat
  guarded gd s (fun s => s.atomicAt .read a n sc.toNat (fun s p =>
    s.enqueue (.amo (.s d.toNat) p n aopLda 0) p.atomLatency
      [.s d.toNat] (o != 0) 0))

/-- STA: an atomic that stores 4 or 8 bytes, with its order and scope (R181, R308, R312). -/
def execSta (gd : Guard) (d a : BitVec 5) (w : BitVec 1) (sc o : BitVec 3) (s : State) : Host.Outcome State Fault Refusal :=
  let n := 4 + 4 * w.toNat
  guarded gd s (fun s => s.atomicAt .write a n sc.toNat (fun s p =>
    let v := (s.s d).toNat % 2 ^ (8 * n)
    s.enqueue (.amo .none p n aopSta v) (storeLatency [p])
      [] (o != 0) (if ordReleases o.toNat then sc.toNat else 0)))

/-- AMO: the old value returns, zero-extended (R181). -/
def execAmo (gd : Guard) (d a : BitVec 5) (w : BitVec 1) (sc : BitVec 3) (p : BitVec 4) (o : BitVec 3) (s : State) :
    Host.Outcome State Fault Refusal :=
  let n := 4 + 4 * w.toNat
  guarded gd s (fun s => s.atomicAt .atomic a n sc.toNat (fun s pl =>
    s.enqueue (.amo (.s d.toNat) pl n p.toNat ((s.s d).toNat % 2 ^ (8 * n))) pl.atomLatency [.s d.toNat] (o != 0)
      (if ordReleases o.toNat then sc.toNat else 0)))

/-- CAS: s[d] is the expected value and the result, s[b] the new value (R181). -/
def execCas (gd : Guard) (d a b : BitVec 5) (w : BitVec 1) (sc o : BitVec 3) (s : State) : Host.Outcome State Fault Refusal :=
  let n := 4 + 4 * w.toNat
  guarded gd s (fun s => s.atomicAt .atomic a n sc.toNat (fun s pl =>
    s.enqueue (.cas (.s d.toNat) pl n ((s.s d).toNat % 2 ^ (8 * n)) ((s.s b).toNat % 2 ^ (8 * n))) pl.atomLatency [.s d.toNat] (o != 0)
      (if ordReleases o.toNat then sc.toNat else 0)))

/-- VAMO: a lane whose offset is 0xFFFF_FFFF is skipped (R182). -/
def execVamo (gd : Guard) (d a b : BitVec 5) (sc : BitVec 3) (o : BitVec 4) (s : State) : Host.Outcome State Fault Refusal :=
  guarded gd s (fun s =>
    let act := (List.range 32).filter (fun i => lane (s.v b) i != 0xFFFFFFFF#32)
    let base := s.v d
    s.access ⟨.atomic, true, some sc.toNat, 3⟩ 4 (act.map (fun i => (s.indexed a b i, 4))) (fun s ps =>
      let ls := act.zip (ps.zip (act.map (lane base)))
      let lat := ps.foldl (fun m p => max m p.atomLatency) 1
      let s := if ps.any (fun p => decide (p.home = .hbm)) then s.updMe (fun t => { t with ready := max t.ready (s.cycle + 340) }) else s
      let peer := ps.any (fun p => match p.home with | .peer _ => true | _ => false)
      s.enqueue (if peer then .peerVamo d.toNat ls o.toNat base 0 0 none else .vamo d.toNat ls o.toNat base 0) lat [.v d.toNat]))

/-- FENCE orders the thread's accesses; as a release it advances the counters of its scope when every earlier access has performed
(R185, R309, R322). -/
def execFence (gd : Guard) (sc o : BitVec 3) (s : State) : Host.Outcome State Fault Refusal :=
  guarded gd s (fun s => s.enqueue .fence 1 [] true (if ordReleases o.toNat then sc.toNat else 0))

end Sys2Proof.Machine
end

