-- ==== Sys2Proof/Machine/Array.lean ====
section
/-! DEFINITION. The array: operand elements (R80, R81, R171, R239), cell programs (R193 to R201), K-groups and their accumulation (R87 to R91,
R195, R196), wavefront passes (R204), and the tile steps of a routine (R214, R241). -/

namespace Sys2Proof.Machine

open Sys2Proof

/-! ## Operand elements -/

/-- The exact value of an element code of a format without its scales; a QC4 code is its level (Table 3-1, R81). -/
def codeNum (levels : List (BitVec 16)) (fmt code : Nat) : Fp.Num :=
  match Fp.fmtOf fmt with
  | some F => F.decode code
  | none =>
    match fmt with
    | 7 => Fp.ofInt (sval 8 code)
    | 8 => Fp.ofInt (sval 4 code)
    | 9 => Fp.ofInt (sval 16 code)
    | 10 => Fp.bf16.decode (nth 0 levels (code % 16)).toNat
    | _ => .fin false (code % 2) 0

/-- A block scale as a number (R79). -/
def scaleNum (code : Nat) : Fp.Num :=
  match Fp.ue8m4 code with
  | some (m, e) => .fin false m e
  | none => .nan false

/-- The N of a sparse row: the kept value of dense position `p` of a slot row, 0 beyond the N-th set bit; `none` for a pruned
position (R171, R239). -/
def sparseCode (t : Tensor) (row p : Nat) : Option Nat :=
  let mask := nbits row (512 + 16 * (p / 16)) 16
  let w := heldWidth t.fmt
  if ¬ mask.testBit (p % 16) then none
  else
    let r := popN (p % 16) mask
    some (if t.n ≤ r then 0 else nbits row ((p / 16 * t.n + r) * w) w)

/-- The value a slot row presents at K position `p` of the slot, with its scales (R80, R81, R171). -/
def elemAt (levels : List (BitVec 16)) (t : Tensor) (row p : Nat) : Option Fp.Num :=
  let w := heldWidth t.fmt
  let code := if t.sp = 0 then some (nbits row (p * w) w) else sparseCode t row p
  code.map (fun c =>
    let x := codeNum levels t.fmt c
    if t.sm = 1 then
      let sc := if t.sp = 0 then nbits row (512 + 12 * (p / 32)) 12 else nbits row (448 + 12 * (p / 16)) 12
      (Fp.mul x (scaleNum sc)).1
    else if t.sm = 2 then
      let f := Fp.fp32.decode (nbits row 544 32)
      (Fp.mul (Fp.mul x f).1 (.fin false (nbits row (512 + 8 * (p / 64)) 8 + 1) (-8))).1
    else x)

/-- The integer value of an element of an integer or B1 format, its scales apart (R204). -/
def intAt (t : Tensor) (row p : Nat) : Int :=
  let w := heldWidth t.fmt
  let c := nbits row (p * w) w
  if t.fmt = 11 then (c : Int) else sval w c

/-- Integer and B1 formats (R204). -/
def isIntFmt (f : Nat) : Bool := f == 7 || f == 8 || f == 9 || f == 11

/-- The K-group length of a format and of a pair (R87). -/
def groupLen1 (f : Nat) : Nat :=
  match f with
  | 0 => 8 | 1 => 8 | 6 => 32 | 8 => 32 | 10 => 32 | 9 => 4 | 11 => 256 | _ => 16
def groupLen (f g : Nat) : Nat := min (groupLen1 f) (groupLen1 g)

/-- K positions one slot of a tensor holds (Table 7-1). -/
def Tensor.x (t : Tensor) : Nat := kPerSlot t.fmt (t.sp != 0)

/-! ## Cell programs -/

def opOf (w : Word) : Nat := nbits w.toNat 28 4
def dstOf (w : Word) : Nat := nbits w.toNat 25 3
def src1Of (w : Word) : Nat := nbits w.toNat 21 4
def src2Of (w : Word) : Nat := nbits w.toNat 17 4
def ccOf (w : Word) : Nat := nbits w.toNat 14 3
def imm14Of (w : Word) : Nat := nbits w.toNat 0 14

/-- A step-image word obeys Table 8-2 to Table 8-4: the fields its operation does not use are 0. -/
def stepWordOk (w : Word) : Bool :=
  let d := decide (dstOf w < 4)
  let a := decide (src1Of w < 14)
  let b := decide (src2Of w < 14)
  let noB := decide (src2Of w = 0)
  let noC := decide (ccOf w = 0)
  let noI := decide (imm14Of w = 0)
  match opOf w with
  | 7 => d && a && noB && noC && noI
  | 8 => d && a && b && noC && noI
  | 9 => d && a && b && noC && noI
  | 10 => d && a && b && noC && noI
  | 11 => d && a && b && decide (ccOf w < 4) && noI
  | 12 => d && a && noB && noC
  | 13 => decide (dstOf w = 0) && a && noB && noC && noI
  | 14 => w == 0xE0000000#32
  | _ => false

/-- R197: exactly a combine, an accumulate and CEND. -/
def isRateImage (ws : List Word) : Bool :=
  match ws with
  | [c, a, e] =>
    decide (opOf c < 3) && nbits c.toNat 0 28 == 0x6020000 && decide (3 ≤ opOf a) && decide (opOf a < 7) && nbits a.toNat 0 28 == 0x1000000 &&
    e == 0xF0000000#32
  | _ => false

/-- R197: step words, the last of them CEND and no other. -/
def isStepImage (ws : List Word) : Bool :=
  match ws.reverse with
  | [] => false
  | e :: rest => e == 0xF0000000#32 && rest.all stepWordOk && decide (rest.length < 8)

/-- The preset images of Table 8-6, by code 1 to 6. -/
def presetWords (p : Nat) : List Word :=
  match p with
  | 1 => [0x06020000, 0x31000000, 0xF0000000]
  | 2 => [0x16020000, 0x41000000, 0xF0000000]
  | 3 => [0x16020000, 0x51000000, 0xF0000000]
  | 4 => [0x06020000, 0x51000000, 0xF0000000]
  | 5 => [0x26020000, 0x61000000, 0xF0000000]
  | _ => [0xB7560000, 0x80900000, 0x92460000, 0xC2C00001, 0x94AC0000, 0xD0E00000, 0xF0000000]

/-- The combine and the accumulate operation of a rate image (Table 8-4). -/
def CellProg.combine (c : CellProg) : Nat := opOf (nth 0 c.words 0)
def CellProg.accum (c : CellProg) : Nat := opOf (nth 0 c.words 1)

/-! ## Cell values -/

/-- A cell value: NaN, PINF, NINF or a 48-bit m (R194); the flagged ones as in integer mode. -/
def cellInf (neg : Bool) : Elem := flagged true (if neg then 3 else 2)

/-- sat(x, 48) with SAT (R91, R194). -/
def sat48 (x : Int) : Int × Fp.Flags := satTo (-satMax) satMax x

/-- An integer as an element: it saturates, with SAT (R91, R204). -/
def edgeVal (x : Int) : Elem × Fp.Flags := let (v, f) := sat48 x; (⟨v, 0⟩, f)

/-- plus(x, y) of R194. -/
def cellPlus (x y : Elem) : Elem × Fp.Flags :=
  if x.flag = 1 ∨ y.flag = 1 then (⟨0, 1⟩, 0)
  else if (x.flag = 2 ∧ y.flag = 3) ∨ (x.flag = 3 ∧ y.flag = 2) then (⟨0, 1⟩, Fp.NV)
  else if x.flag = 2 ∨ y.flag = 2 then (cellInf false, 0)
  else if x.flag = 3 ∨ y.flag = 3 then (cellInf true, 0)
  else let (v, f) := sat48 (x.m + y.m); (⟨v, 0⟩, f)

/-- x comes before y in NINF < finite values by m < PINF. -/
def cellLt (x y : Elem) : Bool :=
  let rank (z : Elem) : Nat := match z.flag with | 3 => 0 | 2 => 2 | _ => 1
  decide (rank x < rank y) || (rank x == rank y && rank x == 1 && decide (x.m < y.m))

/-- lesser and greater of R194. -/
def cellPick (greater : Bool) (x y : Elem) : Elem :=
  if x.flag = 1 ∨ y.flag = 1 then ⟨0, 1⟩
  else if greater then (if cellLt x y then y else x) else (if cellLt y x then y else x)

/-- What one firing of a cell reads and writes. -/
structure Cell where
  a : Int
  b : Int
  n : Elem
  w : Elem
  nw : Elem
  c0 : Elem
  c1 : Elem
  h : Elem
  t : Elem
  acc : Elem
  flags : Fp.Flags
  deriving DecidableEq, Repr

/-- The value of a source code (Table 8-3). -/
def Cell.src (c : Cell) (k : Nat) : Elem :=
  match k with
  | 0 => ⟨c.a, 0⟩ | 1 => ⟨c.b, 0⟩ | 2 => c.n | 3 => c.w | 4 => c.nw | 5 => c.c0 | 6 => c.c1 | 7 => c.h | 8 => c.t | 9 => c.acc
  | 10 => ⟨0, 0⟩ | 11 => ⟨1, 0⟩ | 12 => cellInf false | _ => cellInf true

/-- A destination code takes a value (Table 8-2). -/
def Cell.put (c : Cell) (d : Nat) (x : Elem) : Cell :=
  match d with
  | 0 => { c with c0 := x } | 1 => { c with c1 := x } | 2 => { c with h := x } | _ => { c with t := x }

/-- One step operation (Table 8-4). -/
def Cell.exec (c : Cell) (w : Word) : Cell :=
  let x := c.src (src1Of w)
  let y := c.src (src2Of w)
  let d := dstOf w
  match opOf w with
  | 7 => c.put d x
  | 8 => let (v, f) := cellPlus x y; { c.put d v with flags := c.flags ||| f }
  | 9 => c.put d (cellPick false x y)
  | 10 => c.put d (cellPick true x y)
  | 11 =>
    let t := match ccOf w with
      | 0 => decide (c.a = c.b) | 1 => decide (c.a ≠ c.b) | 2 => decide (c.a < c.b) | _ => decide (c.b ≤ c.a)
    c.put d (if t then x else y)
  | 12 => let (v, f) := cellPlus x ⟨sval 14 (imm14Of w), 0⟩; { c.put d v with flags := c.flags ||| f }
  | 13 => { c with acc := x }
  | _ => c

/-! ## K-groups -/

/-- What the combine results of one group come to for one element (R88, R90): NaN, +inf and -inf among them, and the exact sum. -/
structure Group1 where
  nan : Bool
  pinf : Bool
  ninf : Bool
  sum : Fp.Num
  deriving DecidableEq, Repr

def Group1.push (g : Group1) (x : Fp.Num) : Group1 :=
  match x with
  | .nan _ => { g with nan := true }
  | .inf n => { g with pinf := g.pinf || !n, ninf := g.ninf || n }
  | .fin _ _ _ => { g with sum := (Fp.add false g.sum x).1 }

def groupOf (xs : List Fp.Num) : Group1 := xs.foldl Group1.push ⟨false, false, false, .fin false 0 0⟩

/-- R90: the flag an element takes from a group, and NV where the group is a cause of NaN: also on an element that is NaN already, whose flag is then set
again (log entry 72). -/
def specialFlag (old : Nat) (g : Group1) : Nat × Fp.Flags :=
  let nan := g.nan || (g.pinf && g.ninf) || (old == 2 && g.ninf) || (old == 3 && g.pinf)
  if nan then (1, Fp.NV)
  else if old ≠ 0 then (old, 0)
  else if g.pinf then (2, 0)
  else if g.ninf then (3, 0)
  else (0, 0)

/-- x / 2^e rounded to an integer, ties to even (R88). -/
def rneAt (e : Int) (x : Fp.Num) : Int :=
  match x with
  | .fin n m k => (rneInt n m (k - e)).1
  | _ => 0

/-- An unflagged element in the raise of R88: its mantissa, the exact term that joins it, and how the two join. -/
structure RaiseElem where
  idx : Nat
  m : Int
  term : Option Fp.Num
  /-- none: the identity, so that the term replaces m. -/
  fresh : Bool
  deriving DecidableEq, Repr

/-- The value an element takes at exponent `e` under ASUM (3), AMIN (4), AMAX (5), or the replacement of a row (6). -/
def RaiseElem.value (op : Nat) (e : Int) (r : RaiseElem) : Int :=
  match r.term with
  | none => r.m
  | some x =>
    let g := rneAt e x
    if r.fresh then g
    else
      match op with
      | 3 => r.m + g
      | 4 => min r.m g
      | 5 => max r.m g
      | _ => g

/-- The limit of a floating mantissa (R88). -/
def floatLimit : Int := (2 ^ 45 : Nat)

/-- m / 4 rounded to an integer, ties to even. -/
def quarterM (m : Int) : Int := (rneInt (decide (m < 0)) m.natAbs (-2)).1

/-- The raise loop of R88 over a tile's unflagged elements: the final exponent, the values, the elements that saturate, SAT, and the number of
raises. -/
def raiseLoop (op : Nat) : Nat → Int → List RaiseElem → Nat → Int × List (Nat × Elem) × Fp.Flags × Nat
  | 0, e, rs, k => (e, rs.map (fun r => (r.idx, ⟨r.value op e, 0⟩)), 0, k)
  | fuel + 1, e, rs, k =>
    let excess (r : RaiseElem) : Bool := decide (floatLimit ≤ ((r.value op e).natAbs : Int))
    if ¬ rs.any excess then (e, rs.map (fun r => (r.idx, ⟨r.value op e, 0⟩)), 0, k)
    else if 32767 < e + 2 then
      (e, rs.map (fun r => let v := r.value op e; (r.idx, if excess r then ⟨0, if v < 0 then 3 else 2⟩ else ⟨v, 0⟩)), Fp.SAT, k)
    else raiseLoop op fuel (e + 2) (rs.map (fun r => { r with m := quarterM r.m })) (k + 1)

/-- A tile of flagged elements and raised ones. -/
def Tile.raiseWith (t : Tile) (op : Nat) (flaggedEls : List (Nat × Elem)) (rs : List RaiseElem) : Tile × Fp.Flags × Nat :=
  let (e, vs, f, k) := raiseLoop op 32770 t.e rs 0
  let el := (flaggedEls ++ vs).foldl (fun m p => tput ⟨0, 0⟩ m p.1 p.2) t.el
  ({ t with e := e, el := el }, f, k)

/-- The extremum of the results of a group in the order of R194; `none` without results. -/
def extremum (greater : Bool) : List Fp.Num → Option Fp.Num
  | [] => none
  | x :: xs => some (xs.foldl (fun a y =>
      if a.isNan then a else if y.isNan then y
      else match Fp.cmpNum a y with
        | .lt => if greater then y else a
        | .gt => if greater then a else y
        | .eq => a) x)

/-- One K-group's results folded into elements of a floating tile by ASUM (3), AMIN (4) or AMAX (5) (R88, R90, R196); NV as `specialFlag` has it: every
cause of NaN sets it, on an element that is NaN already too. -/
def Tile.foldFloat (t : Tile) (op : Nat) (parts : List (Nat × List Fp.Num)) : Tile × Fp.Flags × Nat :=
  let part (i : Nat) : List Fp.Num := ((parts.find? (fun p => p.1 == i)).map Prod.snd).getD []
  let step (i : Nat) : ((Nat × Elem) ⊕ RaiseElem) × Fp.Flags :=
    let x := t.elem i
    let ps := part i
    if op = 3 then
      let g := groupOf ps
      let (fl, nv) := specialFlag x.flag g
      (if fl ≠ 0 then .inl (i, flagged false fl) else .inr ⟨i, x.m, some g.sum, false⟩, nv)
    else
      match extremum (op == 5) ps with
      | none => (if x.flag ≠ 0 then .inl (i, x) else .inr ⟨i, x.m, none, false⟩, 0)
      | some v =>
        let v' : Elem := match v with | .nan _ => ⟨0, 1⟩ | .inf n => ⟨0, if n then 3 else 2⟩ | .fin _ _ _ => ⟨0, 0⟩
        if v'.flag = 1 then (.inl (i, ⟨0, 1⟩), Fp.NV)
        else if x.flag = 1 then (.inl (i, x), 0)
        else if x.flag = 0 ∧ v'.flag = 0 then (.inr ⟨i, x.m, some v, false⟩, 0)
        else
          let p := cellPick (op == 5) x v'
          (if p.flag ≠ 0 then .inl (i, ⟨0, p.flag⟩)
           else if x.flag ≠ 0 then .inr ⟨i, 0, some v, true⟩ else .inr ⟨i, x.m, none, false⟩, 0)
  let all := (List.range 1024).map step
  let fls := all.filterMap (fun a => match a.1 with | .inl p => some p | .inr _ => none)
  let rs := all.filterMap (fun a => match a.1 with | .inr r => some r | .inl _ => none)
  let (t', f, k) := t.raiseWith op fls rs
  (t', f ||| joinFlags (all.map Prod.snd), k)

/-- The integer a result has in an integer tile: a floating value is rounded first (R214). -/
def resultInt (x : Fp.Num) : Int := rneAt 0 x

/-- One K-group's results folded into elements of an integer tile (R90, R91, R196). Under AMIN and AMAX a DRAIN's rounded value beyond the 48-bit range, for
which R91 speaks of sums alone, is held at the end of the range, with SAT: the model's choice (log entry 76). -/
def Tile.foldInt (t : Tile) (op : Nat) (parts : List (Nat × List Fp.Num)) : Tile × Fp.Flags :=
  parts.foldl (fun (acc : Tile × Fp.Flags) p =>
    let (t, f) := acc
    let x := t.elem p.1
    if op = 4 ∨ op = 5 then
      match extremum (op == 5) p.2 with
      | none => acc
      | some v =>
        let (y, sf) : Elem × Fp.Flags := match v with
          | .nan _ => (⟨0, 1⟩, Fp.NV)
          | .inf n => (cellInf n, 0)
          | .fin _ _ _ => edgeVal (resultInt v)
        (t.setElem p.1 (cellPick (op == 5) x y), f ||| sf)
    else
      let g := groupOf p.2
      let (fl, nv) := specialFlag x.flag g
      if fl ≠ 0 then (t.setElem p.1 (flagged true fl), f ||| nv)
      else if op = 6 then
        (t.setElem p.1 ⟨if x.m ≠ 0 ∨ p.2.any (fun r => decide (resultInt r = 1)) then 1 else 0, 0⟩, f)
      else let (v, sf) := sat48 (x.m + resultInt g.sum); (t.setElem p.1 ⟨v, 0⟩, f ||| sf)) (t, 0)

/-- AOR in a floating tile (R196): m becomes 1 or stays 0; R90 gives the flags. -/
def Tile.foldOr (t : Tile) (parts : List (Nat × List Fp.Num)) : Tile × Fp.Flags :=
  parts.foldl (fun (acc : Tile × Fp.Flags) p =>
    let (t, f) := acc
    let x := t.elem p.1
    let (fl, nv) := specialFlag x.flag (groupOf p.2)
    if fl ≠ 0 then (t.setElem p.1 (flagged false fl), f ||| nv)
    else
      let one (r : Fp.Num) : Bool := match r with | .fin _ _ _ => Fp.cmpNum r (.fin false 1 0) == .eq | _ => false
      (t.setElem p.1 ⟨if x.m ≠ 0 ∨ p.2.any one then 1 else 0, 0⟩, f)) (t, 0)

/-- The accumulate operation of a rate image on one K-group (R196): the tile, its flags, and the raises of E. -/
def Tile.accumulate (t : Tile) (op : Nat) (parts : List (Nat × List Fp.Num)) : Tile × Fp.Flags × Nat :=
  if t.int then let (t', f) := t.foldInt op parts; (t', f, 0)
  else if op = 6 then let (t', f) := t.foldOr parts; (t', f, 0)
  else t.foldFloat op parts

/-- A combine result at one position (R195): a product, an integer sum, or a conjunction of bits. -/
def combineOne (op : Nat) (x y : Fp.Num) : Fp.Num :=
  match op with
  | 0 => (Fp.mul x y).1
  | 1 => (Fp.add false x y).1
  | _ => match x, y with
    | .fin _ a _, .fin _ b _ => .fin false (if a ≠ 0 ∧ b ≠ 0 then 1 else 0) 0
    | _, _ => .fin false 0 0

/-- The combine results of the positions both operands present (R87, R239). -/
def combineAll (op : Nat) : List (Option Fp.Num) → List (Option Fp.Num) → List Fp.Num
  | some x :: xs, some y :: ys => combineOne op x y :: combineAll op xs ys
  | _ :: xs, _ :: ys => combineAll op xs ys
  | _, _ => []

/-! ## Tile steps -/

/-- The A operand of a FEED: the rows of a slot, or of a gather pool (R215), from its first slot. -/
inductive ASrc where
  | slot (s : Nat)
  | pool (base : Nat)
  deriving DecidableEq, Repr

/-- A duplication in force (R238): whose map (A's or B's) and the partner's first slot. -/
structure Dup where
  ofA : Bool
  s0 : Nat
  deriving DecidableEq, Repr

/-- A tile step (R241) with the word that makes it. -/
inductive TStep where
  /-- A K-group: A, B, entries, first positions within the slots, span, target; K position of the slot's first column in A and B, and
  the duplication. -/
  | group (word : Nat) (a : ASrc) (b da db pa pb span tc : Nat) (ka kb : Nat) (dup : Option Dup)
  /-- A K-group of an MV stream: first stream element, B slot, the stream's entry, DA and DB, position, span, target, address, stride and rows; K
  position of the B slot's first column, and the duplication. -/
  | mv (word k0 b de da db pb span tc : Nat) (addr stride : DWord) (rows kb : Nat) (dup : Option Dup)
  /-- A WF pass: A, B, entries, positions, tile and pass number, and the duplication as for a group. -/
  | pass (word : Nat) (a : ASrc) (b da db pa pb tile k : Nat) (ka kb : Nat) (dup : Option Dup)
  | drain (word src tc : Nat)
  | scale (word tc : Nat) (n : Int)
  deriving DecidableEq, Repr

def TStep.word : TStep → Nat
  | .group w _ _ _ _ _ _ _ _ _ _ _ => w
  | .mv w _ _ _ _ _ _ _ _ _ _ _ _ _ => w
  | .pass w _ _ _ _ _ _ _ _ _ _ _ => w
  | .drain w _ _ => w
  | .scale w _ _ => w

/-- What a routine reads beside the array: the code levels, the gather lanes, and the bytes of its stream. -/
structure RunEnv where
  levels : List (BitVec 16)
  gather : Nat → Nat
  stream : Nat → Nat → Nat

def Array.row (a : Array) (slot r : Nat) : Nat := tget 0 a.slots (32 * slot + r)

/-- Slot and row that feed array row `i` of A (R203, R215). -/
def ASrc.at (s : ASrc) (env : RunEnv) (i : Nat) : Nat × Nat :=
  match s with
  | .slot k => (k, i)
  | .pool b => (b + env.gather i / 32, env.gather i % 32)

def Array.tensor (a : Array) (e : Nat) : Tensor := tensorOf (tget 0 a.entries e).toNat
def Array.tile (a : Array) (i : Nat) : Tile := tget .zero a.tiles i
def Array.setTile (a : Array) (i : Nat) (t : Tile) : Array := { a with tiles := tset a.tiles i t }

/-- The position of the partner that stands in for position `k` (R238): the map's index j and its K index. -/
def dupAt (t : Tensor) (k : Nat) : Option Nat :=
  if t.ndup ≠ 0 ∧ t.kext - t.ndup ≤ k ∧ k < t.kext then some (nth 0 t.dups (k - (t.kext - t.ndup))) else none

/-- The values one row of A or B presents over positions `p`, ... of a slot: `own` its row within the slot, `other k` the row of slot k. -/
def presented (levels : List (BitVec 16)) (t : Tensor) (own : Nat) (p n : Nat) (swap : Nat → Option Nat) (other : Nat → Nat) :
    List (Option Fp.Num) :=
  (List.range n).map (fun x =>
    match swap x with
    | some k => elemAt levels t (other (k / t.x)) (k % t.x)
    | none => elemAt levels t own (p + x))

/-- The A and B values of a group: rows of A, columns of B (R203, R238). What a map replaces comes from the slots of the last RSETA or RSETB, in the array's
own row, a gather notwithstanding (log entry 31). -/
def Array.operands (a : Array) (env : RunEnv) (src : ASrc) (b da db pa pb span ka kb : Nat) (dup : Option Dup) :
    (Nat → List (Option Fp.Num)) × (Nat → List (Option Fp.Num)) :=
  let ta := a.tensor da
  let tb := a.tensor db
  let swapB (x : Nat) : Option Nat := match dup with | some ⟨true, _⟩ => dupAt ta (ka + pa + x) | _ => none
  let swapA (x : Nat) : Option Nat := match dup with | some ⟨false, _⟩ => dupAt tb (kb + pb + x) | _ => none
  let s0 := match dup with | some d => d.s0 | none => 0
  (fun i => let (sl, r) := src.at env i
            presented env.levels ta (a.row sl r) pa span swapA (fun k => a.row (s0 + k) i),
   fun j => presented env.levels tb (a.row b j) pb span swapB (fun k => a.row (s0 + k) j))

/-- The stream elements that an MV group of `span` positions presents from element `k0` on (R206): under a map of B, whose positions begin at `pos`,
those that the map names (R238). -/
def streamKs (tb : Tensor) (k0 pos span : Nat) (dup : Option Dup) : List Nat :=
  (List.range span).map (fun x => match dup with | some ⟨false, _⟩ => (dupAt tb (pos + x)).getD (k0 + x) | _ => k0 + x)

/-- The bytes that hold element `k` of a row of elements of `w` bits: offset and length. -/
def elemBytes (w k : Nat) : Nat × Nat := (k * w / 8, ceilDiv (k * w % 8 + w) 8)

/-- The DRAIN of R214: the source's elements, as exact values, form one K-group of the target. -/
def Array.drain (a : Array) (op src tc : Nat) : Array × Fp.Flags × Nat :=
  let s := a.tile src
  let parts := (List.range 1024).map (fun i => (i, [(s.elem i).num s.e]))
  let (t, f, k) := (a.tile tc).accumulate op parts
  (a.setTile tc t, f, k)

/-- The SCALE of R214. -/
def Tile.scale (t : Tile) (n : Int) : Tile × Fp.Flags :=
  if t.int then (t, 0)
  else
    let e := t.e + n
    if 32767 < e then
      ({ t with e := 32767, el := t.el.map (fun p => if p.2.flag = 0 ∧ p.2.m ≠ 0 then (p.1, ⟨0, if p.2.m < 0 then 3 else 2⟩) else p) }, Fp.SAT)
    else if e < -32768 then
      let d := -32768 - e
      let el := t.el.map (fun p => if p.2.flag = 0 then (p.1, (⟨(rneInt (decide (p.2.m < 0)) p.2.m.natAbs (-d)).1, 0⟩ : Elem)) else p)
      ({ t with e := -32768, el := el.filter (fun p => decide (p.2 ≠ ⟨0, 0⟩)) }, 0)
    else ({ t with e := e }, 0)

/-- The signed doubleword i of the flow descriptor; 0 without one (R208). -/
def Flow.dw (f : Flow) (i : Nat) : Int := (nth 0 f.desc i).toInt
def Flow.chain (f : Flow) : Bool := (nth 0 f.desc 13).getLsbD 0
/-- The row and column skews (Table 8-8). -/
def Flow.rs (f : Flow) (i : Nat) : Nat := nbits (nth 0 f.desc (i / 8)).toNat (8 * (i % 8)) 6
def Flow.cs (f : Flow) (j : Nat) : Nat := nbits (nth 0 f.desc (4 + j / 8)).toNat (8 * (j % 8)) 6

/-- Values a pass gathers cell by cell, in row-major order. -/
structure PassAcc where
  c0 : Table Elem
  c1 : Table Elem
  h : Table Elem
  tile : Tile
  flags : Fp.Flags
  /-- The row above, the cell to the west and the one to the north-west, as they fired in this pass. -/
  north : List Elem
  row : List Elem
  west : Elem
  diag : Elem
  deriving DecidableEq, Repr

/-- One cell of a pass (R204). -/
def PassAcc.fire (p : PassAcc) (words : List Word) (i j : Nat) (a b : Int) : PassAcc :=
  let idx := 32 * i + j
  let n := nth ⟨0, 0⟩ p.north j
  let c : Cell := { a := a, b := b, n := n, w := p.west, nw := p.diag, c0 := tget ⟨0, 0⟩ p.c0 idx, c1 := tget ⟨0, 0⟩ p.c1 idx,
                    h := tget ⟨0, 0⟩ p.h idx, t := ⟨0, 0⟩, acc := p.tile.elem idx, flags := 0 }
  let c := words.foldl Cell.exec c
  { p with c0 := tput ⟨0, 0⟩ p.c0 idx c.c0, c1 := tput ⟨0, 0⟩ p.c1 idx c.c1, h := tput ⟨0, 0⟩ p.h idx c.h,
           tile := p.tile.setElem idx { c.acc with m := if c.acc.flag = 0 then c.acc.m else flaggedM p.tile.int c.acc.flag },
           flags := p.flags ||| c.flags, row := p.row ++ [c.h], west := c.h, diag := n }

/-- A WF pass (R204, Table 8-9): `k` counts the passes of the routine; `av` and `bv` are the integer elements of rows and columns. -/
def Array.wavePass (a : Array) (tile k : Nat) (av bv : Nat → Int) : Array × Fp.Flags :=
  let fl := a.flow
  let chain := fl.chain && decide (1 ≤ k)
  let k' := if fl.chain then k else 0
  let north (j : Nat) : Elem × Fp.Flags :=
    if chain then (tget ⟨0, 0⟩ a.h (32 * 31 + j), 0) else edgeVal (fl.dw 8 + j * fl.dw 9)
  let west (i : Int) : Elem × Fp.Flags := edgeVal (fl.dw 10 + (32 * k' + i) * fl.dw 11)
  let corner : Elem × Fp.Flags := if chain then west (-1) else edgeVal (fl.dw 12)
  let norths := (List.range 32).map north
  let f0 := joinFlags (norths.map Prod.snd) ||| corner.2
  let p0 : PassAcc := { c0 := a.c0, c1 := a.c1, h := a.h, tile := a.tile tile, flags := f0, north := norths.map Prod.fst, row := [],
                        west := ⟨0, 0⟩, diag := ⟨0, 0⟩ }
  let p := (List.range 32).foldl (fun (p : PassAcc) (i : Nat) =>
    let w := west (i : Nat)
    let d := if i = 0 then corner else west ((i : Int) - 1)
    let p := { p with row := [], west := w.1, diag := d.1, flags := p.flags ||| w.2 }
    let p := (List.range 32).foldl (fun p j => p.fire a.cell.words i j (av i) (bv j)) p
    { p with north := p.row }) p0
  ({ a with c0 := p.c0, c1 := p.c1, h := p.h }.setTile tile p.tile, p.flags)

/-- One tile step (R241): the array after it, its flags, and the raises of E. -/
def Array.tileStep (a : Array) (env : RunEnv) (st : TStep) : Array × Fp.Flags × Nat :=
  match st with
  | .group _ src b da db pa pb span tc ka kb dup =>
    let (ra, cb) := a.operands env src b da db pa pb span ka kb dup
    let rows := (List.range 32).map ra
    let cols := (List.range 32).map cb
    let parts := (List.range 1024).map (fun i => (i, combineAll a.cell.combine (nth [] rows (i / 32)) (nth [] cols (i % 32))))
    let (t, f, k) := (a.tile tc).accumulate a.cell.accum parts
    (a.setTile tc t, f, k)
  | .mv _ k0 b de da db pb span tc addr stride rows kb dup =>
    let te := a.tensor de
    let tb := a.tensor db
    let n := min tb.rows 8
    let swapB (x : Nat) : Option Nat := match dup with | some ⟨true, _⟩ => dupAt (a.tensor da) (k0 + x) | _ => none
    let s0 := match dup with | some d => d.s0 | none => 0
    let vecs := (List.range n).map (fun v => presented env.levels tb (a.row b v) pb span swapB (fun k => a.row (s0 + k) v))
    let ks := streamKs tb k0 (kb + pb) span dup
    let rowVals (r : Nat) : List (Option Fp.Num) :=
      let base := (addr + BitVec.ofNat 64 r * stride).toNat
      ks.map (fun k => let (o, m) := elemBytes te.wMem k
                       some (codeNum env.levels te.fmt (nbits (env.stream (base + o) m) (k * te.wMem % 8) te.wMem)))
    (List.range (ceilDiv rows 32)).foldl (fun (acc : Array × Fp.Flags × Nat) q =>
      let (a, f, k) := acc
      let rs := (List.range (min 32 (rows - 32 * q))).map (fun c => (c, rowVals (32 * q + c)))
      let parts := rs.flatMap (fun r => (List.range n).map (fun v => (32 * v + r.1, combineAll a.cell.combine r.2 (nth [] vecs v))))
      let (t, f', k') := (a.tile (tc + q)).accumulate a.cell.accum parts
      (a.setTile (tc + q) t, f ||| f', k + k')) (a, 0, 0)
  | .pass _ src b da db pa pb tile k ka kb dup =>
    let ta := a.tensor da
    let tb := a.tensor db
    let av (i : Nat) : Int :=
      let (sl, r) := src.at env i
      match (match dup with | some ⟨false, s0⟩ => (dupAt tb (kb + pb)).map (fun x => (s0, x)) | _ => none) with
      | some (s0, x) => intAt ta (a.row (s0 + x / ta.x) i) (x % ta.x)
      | none => intAt ta (a.row sl r) pa
    let bv (j : Nat) : Int :=
      match (match dup with | some ⟨true, s0⟩ => (dupAt ta (ka + pa)).map (fun x => (s0, x)) | _ => none) with
      | some (s0, x) => intAt tb (a.row (s0 + x / tb.x) j) (x % tb.x)
      | none => intAt tb (a.row b j) pb
    let (a, f) := a.wavePass tile k av bv
    (a, f, 0)
  | .drain _ src tc => a.drain a.cell.accum src tc
  | .scale _ tc n => let (t, f) := (a.tile tc).scale n; (a.setTile tc t, f, 0)

/-- Slot rows a tile step reads, each with the cycles after the step's first that the feeder takes to reach it (R203, R240): the rows of A from the
west, those of B from the north; a row whose every position a map replaces is not read, and those of the map's slots are (R238). -/
def TStep.reads (a : Array) (env : RunEnv) (st : TStep) : List (Nat × Nat × Nat) :=
  let fl := a.flow
  let west (i : Nat) : Nat := i + fl.rs i + fl.cs 0
  let north (j : Nat) : Nat := j + fl.cs j + fl.rs 0
  let side (own : Nat → Nat × Nat) (at_ : Nat → Nat) (n : Nat) (maps : List (Option Nat)) (t : Tensor) (s0 : Nat) : List (Nat × Nat × Nat) :=
    let others := (maps.filterMap (fun m => m.map (fun k => s0 + k / t.x))).eraseDups
    (List.range n).flatMap (fun i =>
      (if maps.any Option.isNone then [((own i).1, (own i).2, at_ i)] else []) ++ others.map (fun o => (o, i, at_ i)))
  let both (src : ASrc) (b da db pa pb span ka kb n : Nat) (dup : Option Dup) : List (Nat × Nat × Nat) :=
    let ta := a.tensor da
    let tb := a.tensor db
    let s0 := match dup with | some d => d.s0 | none => 0
    let mapA := (List.range span).map (fun x => match dup with | some ⟨false, _⟩ => dupAt tb (kb + pb + x) | _ => none)
    let mapB := (List.range span).map (fun x => match dup with | some ⟨true, _⟩ => dupAt ta (ka + pa + x) | _ => none)
    side (src.at env) west 32 mapA ta s0 ++ side (fun j => (b, j)) north n mapB tb s0
  match st with
  | .group _ src b da db pa pb span _ ka kb dup => both src b da db pa pb span ka kb 32 dup
  | .pass _ src b da db pa pb _ _ ka kb dup => both src b da db pa pb 1 ka kb 32 dup
  | .mv _ k0 b _ da db _ span _ _ _ _ _ dup =>
    let mapB := (List.range span).map (fun x => match dup with | some ⟨true, _⟩ => dupAt (a.tensor da) (k0 + x) | _ => none)
    side (fun j => (b, j)) north (min (a.tensor db).rows 8) mapB (a.tensor db) (match dup with | some d => d.s0 | none => 0)
  | _ => []

/-- Tile steps in order: the array, the flags and the raises of each step (R241). -/
def Array.runSteps (a : Array) (env : RunEnv) : List TStep → Array × Fp.Flags × List Nat
  | [] => (a, 0, [])
  | st :: sts =>
    let (a, f, k) := a.tileStep env st
    let (a, f', ks) := a.runSteps env sts
    (a, f ||| f', k :: ks)

end Sys2Proof.Machine
end

