-- ==== Sys2Proof/Machine/Routine.lean ====
section
/-! DEFINITION. Routines: the checks of MROUT on a micro-word (Table 8-12), and the walk (R213 to R216, R227). -/

namespace Sys2Proof.Machine

open Sys2Proof

/-! ## Micro-words -/

/-- Bits `hi` to `lo` of a micro-word. -/
def mfield (w : DWord) (hi lo : Nat) : Nat := nbits w.toNat lo (hi - lo + 1)

/-- A VF field is well formed: its reserved bits are 0, and a literal lies in lo..hi (R212). -/
def vfOk (f lo hi : Nat) : Bool :=
  if f.testBit 11 then nbits f 5 6 == 0 else decide (lo ≤ f) && decide (f ≤ hi)

/-- Table 8-12: only the operation's own fields are set, and its literals lie in range. The table does not say what the base and count fields of a GATH
with ON = 0, which nothing reads, may hold: any literal passes, the model's choice (log entry 72). -/
def microOk (w : DWord) : Bool :=
  let only (lo : Nat) : Bool := nbits w.toNat 0 lo == 0
  match mfield w 63 60 with
  | 0 => only 36 && vfOk (mfield w 59 48) 0 63 && vfOk (mfield w 47 36) 0 63
  | 1 => only 36 && vfOk (mfield w 59 48) 0 63 && vfOk (mfield w 47 36) 0 63
  | 2 => only 48 && vfOk (mfield w 59 48) 0 15
  | 3 => only 48 && vfOk (mfield w 59 48) 1 2047
  | 4 => only 48
  | 5 => only 44
  | 6 => only 58
  | 7 =>
    only 35 &&
    (if w.getLsbD 59 then vfOk (mfield w 58 47) 0 63 && vfOk (mfield w 46 35) 1 16
     else vfOk (mfield w 58 47) 0 2047 && vfOk (mfield w 46 35) 0 2047)
  | 8 => only 36 && vfOk (mfield w 53 42) 1 512
  | 9 => only 56
  | 10 => only 48 && vfOk (mfield w 59 48) 0 2047
  | 11 => only 60
  | 12 => only 36 && vfOk (mfield w 59 48) 0 2047 && vfOk (mfield w 47 36) 0 2047
  | 13 => only 25
  | 14 => only 60
  | _ => only 60

/-- The value of a VF field under parameters (R212). -/
def vfVal (p : List DWord) (f : Nat) : Nat :=
  if f.testBit 11 then nbits (nth 0 p (nbits f 2 3)).toNat (16 * nbits f 0 2) 16 else f

/-! ## The walk -/

/-- What a walk reads: the array, the thread and its domain, the routine's first word and length, and the snapshot of the gather lanes. -/
structure WEnv where
  arr : Array
  tid : Nat
  dom : BitVec 6
  start : Nat
  len : Nat
  gather : Option VecReg

/-- An MV stream (R206, R214): address, stride, rows, entry and the next stream element. -/
structure Stream where
  addr : DWord
  stride : DWord
  rows : Nat
  entry : Nat
  k : Nat

/-- The state of a routine (R212). `aOff` and `bOff` are the slot steps since RSETA (or GATH) and RSETB. -/
structure WSt where
  off : Nat
  sa : Option Nat
  sb : Option Nat
  tc : Option Nat
  da : Option Nat
  db : Option Nat
  aOff : Int
  bOff : Int
  koa : Nat
  kob : Nat
  dupA : Bool
  dupB : Bool
  gath : Option (Nat × Nat)
  gOff : Int
  mv : Option Stream
  loops : List (Nat × Nat)
  p : List DWord
  pass : Nat
  x : Nat
  steps : List TStep
  /-- The footprint: slots in bits 0-63, tiles above (R221). -/
  foot : Nat
  done : Bool

def WSt.init (p : List DWord) : WSt :=
  { off := 0, sa := none, sb := none, tc := none, da := none, db := none, aOff := 0, bOff := 0, koa := 0, kob := 0, dupA := false, dupB := false,
    gath := none, gOff := 0, mv := none, loops := [], p := p, pass := 0, x := 0, steps := [], foot := 0, done := false }

/-- A failed check: cause and sub-code. -/
abbrev WErr := Cause × Nat

/-- A check of the walk. -/
def chk (ok : Bool) (c : Cause) (sub : Nat) : Except WErr Unit := if ok then .ok () else .error (c, sub)

def rout (ok : Bool) (sub : Nat) : Except WErr Unit := chk ok .routine sub

/-- A thread holds a slot; a tile (R218). -/
def Array.holdsSlot (a : Array) (tid i : Nat) : Bool := a.slotOwn.any (fun e => e.1 == i && e.2 == tid)
def Array.holdsTile (a : Array) (tid i : Nat) : Bool := a.tileOwn.any (fun e => e.1 == i && e.2 == tid)

def WEnv.slotHeld (v : WEnv) (i : Nat) : Except WErr Unit := chk (v.arr.holdsSlot v.tid i) .slotUnclaimed 0
def WEnv.tileHeld (v : WEnv) (i : Nat) : Except WErr Unit := chk (v.arr.holdsTile v.tid i) .slotUnclaimed 0

/-- Checks of a list of slots or tiles, in order. -/
def allHeld (f : Nat → Except WErr Unit) : List Nat → Except WErr Unit
  | [] => .ok ()
  | i :: is => do f i; allHeld f is

/-- The entry named is valid and of the thread's domain (R227, R236). -/
def WEnv.entryOk (v : WEnv) (e : Nat) : Except WErr Unit := do
  chk (v.arr.tensor e).v .tensorId 0x10
  chk (decide (tget 0 v.arr.entryDom e = v.dom)) .tensorId 0x12

/-- Bits of a footprint. -/
def footSlots (is : List Nat) : Nat := is.foldl (fun m i => m ||| 2 ^ i) 0
def footTiles (is : List Nat) : Nat := is.foldl (fun m i => m ||| 2 ^ (64 + i)) 0

/-- The word after the RNEXT that matches an RLOOP of count 0; `none` without one (R214). -/
def skipLoop (word : Nat → DWord) : Nat → Nat → Nat → Option Nat
  | 0, _, _ => none
  | fuel + 1, off, depth =>
    match mfield (word off) 63 60 with
    | 11 => if depth = 0 then some (off + 1) else skipLoop word fuel (off + 1) (depth - 1)
    | 10 => skipLoop word fuel (off + 1) (depth + 1)
    | _ => skipLoop word fuel (off + 1) depth

/-- RSETA and RSETB (R214, R227). -/
def WEnv.rset (v : WEnv) (s : WSt) (isA : Bool) (slot entry : Nat) : Except WErr WSt := do
  rout (decide (slot ≤ 63) && decide (entry ≤ 63)) 0x0A
  v.slotHeld slot
  v.entryOk entry
  let s := { s with foot := s.foot ||| footSlots [slot] }
  .ok (if isA then { s with sa := some slot, da := some entry, koa := 0, aOff := 0 }
       else { s with sb := some slot, db := some entry, kob := 0, bOff := 0 })

/-- The duplication in force for a pair (R238), with its checks: at most one map, matching extents, and a partner slot in range that the
thread holds. -/
def WEnv.dupOf (v : WEnv) (s : WSt) (da db : Nat) (sa0 sb0 : Int) : Except WErr (Option Dup × List Nat) := do
  let ta := v.arr.tensor da
  let tb := v.arr.tensor db
  let onA := s.dupA && ta.ndup != 0
  let onB := s.dupB && tb.ndup != 0
  if ¬ onA ∧ ¬ onB then .ok (none, [])
  else do
    rout (!(s.dupA && s.dupB && ta.ndup != 0 && tb.ndup != 0)) 0x0F
    let (t, u, s0) := if onA then (ta, tb, sb0) else (tb, ta, sa0)
    rout (decide (t.kext = u.kext + t.ndup)) 0x0F
    let slots := (t.dups.take t.ndup).map (fun d => s0 + (d / u.x : Nat))
    rout (slots.all (fun x => decide (0 ≤ x) && decide (x ≤ 63))) 0x0F
    allHeld v.slotHeld (slots.map Int.toNat)
    .ok (some ⟨onA, s0.toNat⟩, slots.map Int.toNat)

/-- The tile mode test of Table 9-4, 0x0E. -/
def modeSuits (t : Tile) (comb : Nat) (ta tb : Tensor) : Bool :=
  if t.int then isIntFmt ta.fmt && isIntFmt tb.fmt && ta.sm == 0 && tb.sm == 0 else comb == 0

/-- The operands the combine accepts (Table 8-5). -/
def combineTakes (comb : Nat) (f g : Nat) : Bool :=
  match comb with
  | 0 => true
  | 1 => f == 9 && g == 9
  | _ => f == 11 && g == 11

/-- The pool of a gather, from its base after the steps made, and its range (R215). -/
def WSt.pool (s : WSt) : Option (Int × Nat) := s.gath.map (fun g => ((g.1 : Int) + s.gOff, g.2))

/-- The slots of that pool that exist. -/
def WSt.poolSlots (s : WSt) : List Nat :=
  match s.pool with
  | some (p, c) => (List.range c).filterMap (fun (i : Nat) => if 0 ≤ p + (i : Int) ∧ p + (i : Int) ≤ 63 then some (p + (i : Int)).toNat else none)
  | none => []

/-- The checks that every FEED makes first (R215, R227): the ranges of its slots and tiles, `fits` saying that of the tiles; the holds of its slots, of the
gather's pool and of its tiles; and the pool's own range. A pool that steps below o0 is out of range as a slot is (log entry 76). -/
def WEnv.feedHolds (v : WEnv) (s : WSt) (a b : Int) (fits : Bool) (tiles : List Nat) : Except WErr Unit := do
  rout (decide (0 ≤ a) && decide (a ≤ 63) && decide (0 ≤ b) && decide (b ≤ 63)) 0x0A
  rout (match s.pool with | some (p, _) => decide (0 ≤ p) | none => true) 0x0A
  rout fits 0x0A
  allHeld v.slotHeld ([a.toNat, b.toNat] ++ s.poolSlots)
  allHeld v.tileHeld tiles
  rout (match s.pool with | some (p, c) => decide (p + c ≤ 64) | none => true) 0x0D

/-- FEED under OS and WF (R203, R204, R214), with the checks of R227, which gives the other checks of Tables 8-13 and 9-4 no order among themselves: they are made as
0x09, 0x0A, 0x0C, 0x0E, 0x0F, the holds of the map's slots, 0x10, the model's choice (log entry 76). -/
def WEnv.feed (v : WEnv) (s : WSt) (n : Nat) : Except WErr WSt := do
  let fl := v.arr.flow
  let wf := decide (fl.pattern = 1)
  match s.sa, s.sb, s.tc, s.da, s.db with
  | some sa0, some sb0, some tc, some da, some db =>
    let a : Int := sa0 + s.aOff
    let b : Int := sb0 + s.bOff
    let open0 := wf && !fl.chain
    let tiles := if open0 then (List.range (min n 16)).map (fun i => (tc + s.pass + i) % 16) else [tc]
    v.feedHolds s a b true tiles
    let ta := v.arr.tensor da
    let tb := v.arr.tensor db
    let comb := v.arr.cell.combine
    rout (if wf then isIntFmt ta.fmt && isIntFmt tb.fmt else combineTakes comb ta.fmt tb.fmt) 0x09
    rout (decide (n ≤ 2047)) 0x0A
    let sparse := ta.sp != 0 || tb.sp != 0
    let span := if wf then 1 else groupLen ta.fmt tb.fmt * (if sparse then 2 else 1)
    rout (decide (s.koa + n ≤ ta.x / span) && decide (s.kob + n ≤ tb.x / span)) 0x0A
    rout (!(open0 && decide (16 < s.pass + n))) 0x0C
    rout (tiles.all (fun i => modeSuits (v.arr.tile i) (if wf then 0 else comb) ta tb)) 0x0E
    let (dup, dslots) ← v.dupOf s da db sa0 sb0
    rout (!(ta.sp != 0 && tb.sp != 0) && !(sparse && wf)) 0x10
    let src := match s.pool with | some (p, _) => ASrc.pool p.toNat | none => .slot a.toNat
    let ka := (if s.gath.isSome then s.gOff else s.aOff).toNat * ta.x
    let kb := s.bOff.toNat * tb.x
    let steps := (List.range n).map (fun i =>
      if wf then TStep.pass s.off src b.toNat da db (s.koa + i) (s.kob + i) (if open0 then (tc + s.pass + i) % 16 else tc) (s.pass + i) ka kb dup
      else .group s.off src b.toNat da db ((s.koa + i) * span) ((s.kob + i) * span) span tc ka kb dup)
    .ok { s with koa := s.koa + n, kob := s.kob + n, pass := if wf then s.pass + n else s.pass, steps := steps.reverse ++ s.steps,
                 foot := s.foot ||| footSlots ([a.toNat, b.toNat] ++ s.poolSlots ++ dslots) ||| footTiles tiles }
  | _, _, _, _, _ => .error (.routine, 0x0A)

/-- Tiles an MV stream of `rows` rows fills (R206). -/
def mvTiles (tc rows : Nat) : List Nat := (List.range (ceilDiv rows 32)).map (fun i => tc + i)

/-- The byte ranges a stream step reads for row r: address and length, consecutive elements as one range (R206, R214, R238). -/
def streamSpans (a : Array) (st : TStep) (r : Nat) : List (Nat × Nat) :=
  match st with
  | .mv _ k0 _ de _ db pb span _ addr stride _ kb dup =>
    let w := (a.tensor de).wMem
    let base := (addr + BitVec.ofNat 64 r * stride).toNat
    if dup.any (fun d => !d.ofA) then (streamKs (a.tensor db) k0 (kb + pb) span dup).map (fun k => let (o, m) := elemBytes w k; (base + o, m))
    else [(base + k0 * w / 8, ceilDiv (k0 * w % 8 + span * w) 8)]
  | _ => []

def TStep.rows : TStep → Nat
  | .mv _ _ _ _ _ _ _ _ _ _ _ rows _ _ => rows
  | _ => 0

/-- The bytes of each row that a stream step reads lie in global HBM (Table 8-13, 0x0C). -/
def streamInHbm (a : Array) (st : TStep) : Bool :=
  (List.range st.rows).all (fun r => (streamSpans a st r).all (fun x => decide (0x100000000 ≤ x.1) && decide (x.1 + x.2 ≤ 2 ^ 48)))

/-- FEED under MV (R206, R214): the stream stands in for A, whose slot and entry are set and checked as for every FEED; G is that of DA and DB, and the
maps of DUP are those of DA and DB, A's K positions being the stream's (R238, log entry 31). The order of the other checks is 0x0C for a missing MVSTR, 0x09, 0x0A, 0x0C for BATCH,
0x0F, the holds of the map's slots, 0x0C for the addresses, 0x0E, 0x10, the model's choice (log entry 76). -/
def WEnv.feedMv (v : WEnv) (s : WSt) (n : Nat) : Except WErr WSt := do
  match s.sa, s.sb, s.tc, s.da, s.db with
  | some sa0, some sb0, some tc, some da, some db =>
    let a : Int := sa0 + s.aOff
    let b : Int := sb0 + s.bOff
    let rows := match s.mv with | some m => m.rows | none => 0
    v.feedHolds s a b (decide (tc + ceilDiv rows 32 ≤ 16)) (tc :: mvTiles tc rows)
    match s.mv with
    | none => .error (.routine, 0x0C)
    | some m =>
      let ta := v.arr.tensor da
      let te := v.arr.tensor m.entry
      let tb := v.arr.tensor db
      let comb := v.arr.cell.combine
      rout (combineTakes comb te.fmt tb.fmt) 0x09
      rout (decide (n ≤ 2047)) 0x0A
      let span := groupLen ta.fmt tb.fmt
      rout (decide (s.koa + n ≤ ta.x / span) && decide (s.kob + n ≤ tb.x / span)) 0x0A
      rout (decide (1 ≤ tb.rows) && decide (tb.rows ≤ 8)) 0x0C
      let (dup, dslots) ← v.dupOf s da db sa0 sb0
      let kb := s.bOff.toNat * tb.x
      let steps := (List.range n).map (fun i =>
        TStep.mv s.off (m.k + i * span) b.toNat m.entry da db ((s.kob + i) * span) span tc m.addr m.stride m.rows kb dup)
      rout (steps.all (streamInHbm v.arr)) 0x0C
      rout ((mvTiles tc m.rows).all (fun i => modeSuits (v.arr.tile i) comb te tb)) 0x0E
      rout (ta.sp == 0 && tb.sp == 0) 0x10
      .ok { s with kob := s.kob + n, koa := s.koa + n, mv := some { m with k := m.k + n * span }, steps := steps.reverse ++ s.steps,
                   foot := s.foot ||| footSlots ([a.toNat, b.toNat] ++ dslots) ||| footTiles (mvTiles tc m.rows) }
  | _, _, _, _, _ => .error (.routine, 0x0A)

/-- GATH ON (R215, R226, R227): the base's range, the holds of the pool's slots up to o63, the pool's own range, and the gather lanes in ascending
order. -/
def WEnv.gath (v : WEnv) (s : WSt) (base count : Nat) : Except WErr WSt := do
  rout (decide (base ≤ 63)) 0x0A
  let slots := ((List.range count).map (fun i => base + i)).filter (fun i => decide (i ≤ 63))
  allHeld v.slotHeld slots
  match v.gather with
  | none => .error (.routine, 0x0D)
  | some lanes =>
    rout (decide (1 ≤ count) && decide (count ≤ 16) && decide (base + count ≤ 64)) 0x0D
    chk ((List.range 32).all (fun i => decide ((lane lanes i).toNat < 32 * count))) .indexRange 0
    .ok { s with gath := some (base, count), gOff := 0, foot := s.foot ||| footSlots slots }

/-- SA, SB, TC, DA and DB are set, and the target tile (0x0A). R227 places the ranges before the holds and the entries and does not place this test: it comes first,
the model's choice (log entry 76). -/
def WSt.target (s : WSt) : Except WErr Nat :=
  match s.sa, s.sb, s.tc, s.da, s.db with
  | some _, some _, some tc, some _, some _ => .ok tc
  | _, _, _, _, _ => .error (.routine, 0x0A)

/-- MVSTR (R206, R214). A row count of a parameter outside 1 to 512, to which Table 8-13 gives no sub-code, fails with 0x0A: the model's choice (log
entry 72). R206 does not say at which word the stream's tiles are tested: they are, range and holds, by the TC in force at MVSTR and again at each FEED of the stream,
the model's choice (log entry 76). -/
def WEnv.mvstr (v : WEnv) (s : WSt) (x y rows entry : Nat) : Except WErr WSt := do
  let tc ← s.target
  rout (decide (1 ≤ rows) && decide (rows ≤ 512) && decide (tc + ceilDiv rows 32 ≤ 16)) 0x0A
  allHeld v.tileHeld (mvTiles tc rows)
  v.entryOk entry
  let te := v.arr.tensor entry
  rout (te.sm == 0 && te.sp == 0) 0x0C
  .ok { s with mv := some ⟨nth 0 s.p x, nth 0 s.p y, rows, entry, 0⟩ }

/-- DRAIN (R214). -/
def WEnv.drain (v : WEnv) (s : WSt) (src : Nat) : Except WErr WSt := do
  let tc ← s.target
  allHeld v.tileHeld [src, tc]
  rout (decide (src ≠ tc) && decide (v.arr.flow.pattern ≠ 1)) 0x0A
  .ok { s with steps := .drain s.off src tc :: s.steps, foot := s.foot ||| footTiles [src, tc] }

/-- One word of the walk (R214): the state after it. A FEED of a parameter count 0, which feeds nothing, makes no check either, the model's choice (log entry 76). -/
def WEnv.word1 (v : WEnv) (s : WSt) (w : DWord) : Except WErr WSt := do
  let vf (hi lo : Nat) : Nat := vfVal s.p (mfield w hi lo)
  let next := { s with off := s.off + 1 }
  match mfield w 63 60 with
  | 0 => let t ← v.rset s true (vf 59 48) (vf 47 36); .ok { t with off := s.off + 1 }
  | 1 => let t ← v.rset s false (vf 59 48) (vf 47 36); .ok { t with off := s.off + 1 }
  | 2 =>
    rout (decide (vf 59 48 ≤ 15)) 0x0A
    v.tileHeld (vf 59 48)
    .ok { next with tc := some (vf 59 48), foot := s.foot ||| footTiles [vf 59 48] }
  | 3 =>
    let n := vf 59 48
    if n = 0 then .ok next
    else do
      let t ← (if v.arr.flow.pattern = 2 then v.feedMv s n else v.feed s n)
      .ok { t with off := s.off + 1 }
  | 4 =>
    let dA := sval 6 (mfield w 59 54)
    let dB := sval 6 (mfield w 53 48)
    .ok { next with aOff := if s.gath.isSome then s.aOff else s.aOff + dA, gOff := if s.gath.isSome then s.gOff + dA else s.gOff,
                    bOff := s.bOff + dB, koa := if dA ≠ 0 then 0 else s.koa, kob := if dB ≠ 0 then 0 else s.kob }
  | 5 =>
    match s.tc with
    | none => .error (.routine, 0x0A)
    | some tc =>
      v.tileHeld tc
      .ok { next with steps := .scale s.off tc (sval 16 (mfield w 59 44)) :: s.steps, foot := s.foot ||| footTiles [tc] }
  | 6 => .ok { next with dupA := w.getLsbD 59, dupB := w.getLsbD 58 }
  | 7 =>
    if w.getLsbD 59 then do
      let t ← v.gath s (vf 58 47) (vf 46 35)
      .ok { t with off := s.off + 1 }
    else .ok { next with gath := none }
  | 8 => let t ← v.mvstr s (mfield w 59 57) (mfield w 56 54) (vf 53 42) (mfield w 41 36); .ok { t with off := s.off + 1 }
  | 9 => let t ← v.drain s (mfield w 59 56); .ok { t with off := s.off + 1 }
  | 10 =>
    rout (decide (s.loops.length < 2)) 0x0B
    if vf 59 48 = 0 then
      match skipLoop (fun o => tget 0 v.arr.rstore (v.start + o)) (v.len - (s.off + 1)) (s.off + 1) 0 with
      | none => .error (.routine, 0x0B)
      | some o => .ok { s with off := o }
    else .ok { next with loops := (s.off, vf 59 48) :: s.loops }
  | 11 =>
    match s.loops with
    | [] => .error (.routine, 0x0B)
    | (o, n) :: rest => .ok (if n = 1 then { next with loops := rest } else { s with off := o + 1, loops := (o, n - 1) :: rest })
  | 12 => .ok { next with koa := vf 59 48, kob := vf 47 36 }
  | 13 =>
    let i := mfield w 59 57
    .ok { next with p := setNth s.p i (nth 0 s.p i + (BitVec.ofNat 32 (mfield w 56 25)).signExtend 64) }
  | 14 => .ok next
  | _ => .ok { s with done := true }

/-- What a walk ends with: a failing word's offset, its cause and sub-code and the words executed; or the state at REND. -/
inductive Walked where
  | fail (off : Nat) (e : WErr) (x : Nat)
  | done (s : WSt)

/-- The walk of R213, at most 65,536 executed words. -/
def WEnv.walk (v : WEnv) : Nat → WSt → Walked
  | 0, s => .fail s.off (.routine, 0x0B) s.x
  | fuel + 1, s =>
    if v.len ≤ s.off then .fail s.off (.routine, 0x0B) s.x
    else
      match v.word1 s (tget 0 v.arr.rstore (v.start + s.off)) with
      | .error e => .fail s.off e (s.x + 1)
      | .ok t => if t.done then .done { t with x := s.x + 1 } else v.walk fuel { t with x := s.x + 1 }

end Sys2Proof.Machine
end

