-- ==== Sys2Proof/Machine/Matrix.lean ====
section
/-! DEFINITION. The M slot and the tile transfers: claims, parameters, the matrix queue, MCALL and its stops, tile rows, tensor entries and
the code table (R186 to R190, R200 to R245, R433). -/

namespace Sys2Proof.Machine

open Sys2Proof

/-! ## Commands and footprints -/

def MatOp.isCall : MatOp → Bool
  | .call _ _ _ _ _ _ => true
  | _ => false

/-- Configuration commands (R202). -/
def MatOp.isConfig : MatOp → Bool
  | .cell _ => true
  | .flow _ _ => true
  | .rout _ => true
  | _ => false

/-- Table commands (R234), and the entry one names. -/
def MatOp.entry : MatOp → Option Nat
  | .tid e _ => some e
  | .dup e _ _ _ _ => some e
  | _ => none
def MatOp.isTable (o : MatOp) : Bool := o.entry.isSome

def MatOp.isCode : MatOp → Bool
  | .mcode _ => true
  | _ => false

def MatOp.isNop : MatOp → Bool
  | .nop => true
  | _ => false

/-- What a command holds in a cycle (R221). -/
def MatCmd.holds (c : MatCmd) (cycle : Nat) : Nat := if cycle < c.walkEnd ∨ ¬ c.started then c.wide else c.foot

/-- Two footprints overlap. -/
def overlap (a b : Nat) : Bool := a &&& b != 0

/-- Everything a thread holds (R221). -/
def Array.heldFoot (a : Array) (tid : Nat) : Nat :=
  footSlots ((a.slotOwn.filter (fun e => e.2 == tid)).map Prod.fst) ||| footTiles ((a.tileOwn.filter (fun e => e.2 == tid)).map Prod.fst)

/-- The slots and tiles a tile transfer uses. -/
def MemOp.foot : MemOp → Nat
  | .tld slot _ _ _ _ _ => footSlots [slot]
  | .tlda t _ _ _ => footTiles [t]
  | .tst t _ _ _ _ _ => footTiles [t]
  | _ => 0

/-- An earlier command of the thread uses a footprint (R167, R221). -/
def State.footBusy (s : State) (foot : Nat) : Bool :=
  s.me.mat.live.any (fun c => decide (c.org.bundle < s.me.ord) && overlap (c.holds s.cycle) foot)

/-- A matrix command enters its thread's queue at issue (R220): behind the others, or, from a handler, ahead of the failing command of a halted queue (R222). An MCALL of lock
step, with a false predicate too, is a part of a gang (R225, R292). -/
def State.matCmd (s : State) (op : MatOp) (foot : Nat) (image : Bool) (dests : List Dest) (call : Bool := false) : State :=
  let core := coreOf s.cur.tid
  let ord := (s.core core).arr.ord
  let s := s.updArr core (fun a => { a with ord := ord + 1 })
  s.updMe (fun t =>
    let gang := match s.fuseOf s.cur.tid with
      | some f => if call && f.lock && (f.inLock.map Prod.snd).contains s.cur.tid then some (f.inLock.map Prod.snd, s.cycle) else none
      | none => none
    let c : MatCmd := { num := t.mat.next, id := t.nextId, op := op, image := if image then none else some [], st := .queued, ord := ord,
                        org := s.origin, issued := s.cycle, wide := foot, foot := foot, walkEnd := 0, gang := gang }
    let ahead (d : MatCmd) : Bool := !d.isFailed
    let q := if t.mat.halted then t.mat.queue.takeWhile ahead ++ [c] ++ t.mat.queue.dropWhile ahead else t.mat.queue ++ [c]
    let t := dests.foldl (fun t d => t.lock s.cur.slot d t.nextId) t
    { t with nextId := t.nextId + 1, mat := { t.mat with queue := q, next := (t.mat.next + 1) % 2 ^ 32 } })

/-- The bit of a descriptor: q[x[34:32]] at x[45:40] (R187, R225). -/
def State.descBit (s : State) (x : DWord) : Bool := (s.src.qreg (nbits x.toNat 32 3)).getLsbD (nbits x.toNat 40 6)

/-- A command under its predicate: with a false bit it enters the queue and does nothing (R225). -/
def State.predicated (s : State) (p : BitVec 1) (desc : DWord) (f : State → State) : State :=
  if p = 1 ∧ ¬ s.descBit desc then s.matCmd .nop 0 false [] else f s

/-- An access to the own scratchpad: alignment, then SCRATCH_RANGE with the first address outside, then Table 7-7 from step 2. -/
def State.padAccess (s : State) (k : AccKind) (engine align : Nat) (ps : List (Nat × Nat)) (f : State → State) : State :=
  match ps.find? (fun p => decide (p.1 % align ≠ 0)) with
  | some p => s.raise (trapInfo .misaligned engine 0 (BitVec.ofNat 48 p.1))
  | none =>
    match ps.find? (fun p => decide (0x100000 < p.1 + p.2)) with
    | some p => s.raise (trapInfo .scratchRange engine 0 (BitVec.ofNat 48 (max p.1 0x100000)))
    | none => s.access ⟨k, false, none, engine⟩ 1 (ps.flatMap (fun p => piecesOf p.1 p.2)) (fun s _ => f s)

/-- Where the own scratchpad's offset lies. -/
def State.ownPlace (s : State) (off : Nat) : Nat := padPlace (coreOf s.cur.tid) off

/-- A command with an image: its address checks at issue, its place in the queue, and the read (R433). -/
def State.imageCmd (s : State) (op : MatOp) (align n ea : Nat) : State :=
  s.padAccess .read 4 align [(ea, n)] (fun s =>
    let num := s.me.mat.next
    (s.matCmd op 0 true []).enqueue (.image num (s.ownPlace ea) n) 3 [])

/-! ## Claims and parameters -/

/-- The members of a set named by a mask register (R218): slots, or tiles. -/
def claimSet (tiles : Bool) (x : DWord) : List Nat := if tiles then onesBelow 16 x.toNat else onesBelow 64 x.toNat

/-- MCLAIM (R218): a member whose release is queued counts as held, and cannot be claimed. -/
def execMclaim (gd : Guard) (d a : BitVec 5) (t : BitVec 1) (s : State) : Host.Outcome State Fault Refusal :=
  guarded gd s (fun s =>
    let tiles := t == 1#1
    let set := claimSet tiles (s.s a)
    let core := coreOf s.cur.tid
    let arr := (s.core core).arr
    let own := if tiles then arr.tileOwn else arr.slotOwn
    let leaving := s.me.mat.queue.flatMap (fun c => match c.op with | .rel b m => if b = tiles then claimSet b m else [] | _ => [])
    let ok := set.all (fun i => match own.find? (fun e => e.1 == i) with
      | some e => e.2 == s.cur.tid && !leaving.contains i
      | none => true)
    let own' := set.foldl (fun m i => tset m i s.cur.tid) own
    let s := if ok then s.updArr core (fun a => if tiles then { a with tileOwn := own' } else { a with slotOwn := own' }) else s
    s.postVar (.g d.toNat) (b2n ok))

/-- MREL (R218). -/
def execMrel (gd : Guard) (a : BitVec 5) (t : BitVec 1) (s : State) : Host.Outcome State Fault Refusal :=
  guarded gd s (fun s =>
    let tiles := t == 1#1
    let set := claimSet tiles (s.s a)
    s.matCmd (.rel tiles (s.s a)) (if tiles then footTiles set else footSlots set) false [])

/-- MSETP (R223). -/
def execMsetp (gd : Guard) (d a : BitVec 5) (h : BitVec 1) (y : BitVec 2) (s : State) : Host.Outcome State Fault Refusal :=
  guarded gd s (fun s =>
    let x := (s.s a).toNat
    let v := if h = 0 then x else setBits (s.p d).toNat (16 * y.toNat) 16 x
    s.post (.p d.toNat) v 1)

/-- MGETP (R223). -/
def execMgetp (gd : Guard) (d a : BitVec 5) (s : State) : Host.Outcome State Fault Refusal :=
  guarded gd s (fun s => s.postS d (s.p a) 2)

/-- The bits lane i of a vector register is not 0 (R224). -/
def nonZeroLanes (v : VecReg) : Nat := footSlots ((List.range 32).filter (fun i => lane v i != 0))

/-- MPRED (R224, Table 9-3). -/
def execMpred (gd : Guard) (d a b : BitVec 5) (f : BitVec 7) (s : State) : Host.Outcome State Fault Refusal :=
  guarded gd s (fun s =>
    let setQ (x : DWord) : State := s.post (.q d.toNat) x.toNat 1
    match f.toNat with
    | 0 => setQ (s.s a)
    | 1 => s.postS d (s.q a) 1
    | 2 => setQ (BitVec.ofNat 64 (setBits (s.q d).toNat 0 32 (nonZeroLanes (s.v a))))
    | 3 => setQ (BitVec.ofNat 64 (setBits (s.q d).toNat 32 32 (nonZeroLanes (s.v a))))
    | 4 => setQ (s.q a &&& s.q b)
    | 5 => setQ (s.q a ||| s.q b)
    | 6 => setQ (s.q a &&& ~~~s.q b)
    | _ => s.postG d ((s.q a).getLsbD ((s.s b).toNat % 64)) 1)

/-! ## Commands at issue -/

/-- The levels an operation issued now reads, and its bank (R83). -/
def State.codeLevels (s : State) : List (BitVec 16) × Nat :=
  let c := (s.core (coreOf s.cur.tid)).arr.code
  let (b, d) := if c.active = 0 then (c.bank0, c.dom0) else (c.bank1, c.dom1)
  (match d with
    | none => b
    | some d => if d = s.me.dom then b else fixedLevels, c.active)

/-- MCALL: the snapshot of what the routine will read (R225, R226). -/
def execMcall (gd : Guard) (v : BitVec 5) (q x : BitVec 3) (w p : BitVec 1) (r : BitVec 6) (s : State) :
    Host.Outcome State Fault Refusal :=
  guarded gd s (fun s =>
    if p = 1 ∧ ¬ (s.q q).getLsbD ((s.p x).toNat % 64) then s.matCmd .nop 0 false [] true
    else
      let (levels, bank) := s.codeLevels
      let ps := (List.range 8).map s.src.preg
      s.matCmd (.call r.toNat ps (if w = 1 then some (s.v v) else none) s.src.ctl.round.toNat levels bank)
        ((s.core (coreOf s.cur.tid)).arr.heldFoot s.cur.tid) false [] true)

/-- MZERO (R225, R229). -/
def execMzero (gd : Guard) (t : BitVec 4) (a b : BitVec 5) (p : BitVec 1) (j : BitVec 2) (i : BitVec 1) (s : State) :
    Host.Outcome State Fault Refusal :=
  guarded gd s (fun s => s.predicated p (s.s b) (fun s =>
    s.matCmd (.zero t.toNat (i == 1#1) j.toNat ((s.s a).setWidth 16)) (footTiles [t.toNat]) false []))

/-- MNORM (R225, R230). -/
def execMnorm (gd : Guard) (t : BitVec 4) (a b : BitVec 5) (p x : BitVec 1) (s : State) : Host.Outcome State Fault Refusal :=
  guarded gd s (fun s => s.predicated p (s.s b) (fun s =>
    s.matCmd (.norm t.toNat (x == 1#1) ((s.s a).setWidth 16)) (footTiles [t.toNat]) false []))

/-- MRDROW (R231): under RST 32 values are drawn at issue; with AF 2 and 3, which round nothing, none are: the model's reading, since R231 does not except them
(log entry 72). -/
def execMrdrow (gd : Guard) (d : BitVec 5) (t : BitVec 4) (b : BitVec 5) (r : BitVec 3) (f : BitVec 2) (s : State) :
    Host.Outcome State Fault Refusal :=
  guarded gd s (fun s =>
    let code := s.roundCode3 r
    let row := (s.s b).toNat
    let (us, s) := if code = 5 ∧ f.toNat < 2 then s.draws16 32 else ([], s)
    s.matCmd (.rdrow t.toNat row d.toNat f.toNat code us) (footTiles [t.toNat]) false [.v d.toNat])

/-- MWRROW (R232). -/
def execMwrrow (gd : Guard) (d : BitVec 5) (t : BitVec 4) (b : BitVec 5) (f : BitVec 2) (s : State) :
    Host.Outcome State Fault Refusal :=
  guarded gd s (fun s => s.matCmd (.wrrow t.toNat (s.s b).toNat f.toNat (s.v d)) (footTiles [t.toNat]) false [])

/-- MCELL with an image in memory (R200). -/
def execMcell (gd : Guard) (a : BitVec 5) (i : BitVec 12) (kw : Option (BitVec 32)) (s : State) : Host.Outcome State Fault Refusal :=
  guarded gd s (fun s => s.imageCmd (.cell 0) 4 56 (s.ea a i kw).toNat)

/-- MCELL with a preset (R200). -/
def execMcellPre (gd : Guard) (p : BitVec 5) (s : State) : Host.Outcome State Fault Refusal :=
  guarded gd s (fun s => s.matCmd (.cell p.toNat) 0 false [])

/-- MFLOW (R208). -/
def execMflow (gd : Guard) (y : BitVec 1) (p : BitVec 2) (a : BitVec 5) (i : BitVec 12) (kw : Option (BitVec 32)) (s : State) :
    Host.Outcome State Fault Refusal :=
  guarded gd s (fun s =>
    if y = 1 then s.imageCmd (.flow p.toNat true) 8 128 (s.ea a i kw).toNat else s.matCmd (.flow p.toNat false) 0 false [])

/-- MROUT (R211, R433): the header first, and the words when its LEN lies in 1 to 256; the header is read behind the thread's earlier
writes of it. -/
def execMrout (gd : Guard) (d a : BitVec 5) (i : BitVec 12) (kw : Option (BitVec 32)) (s : State) : Host.Outcome State Fault Refusal :=
  guarded gd s (fun s =>
    let ea := (s.ea a i kw).toNat
    let key := s.ownPlace ea
    if s.me.memQ.any (fun x => x.op.touches.any (fun (k, m, w) => w && decide (k < key + 8) && decide (key < k + m))) then s.hold
    else
      s.padAccess .read 4 8 [(ea, 8)] (fun s =>
        let len := nbits (s.read key 8) 8 9
        s.imageCmd (.rout ((s.s d).toNat % 256)) 8 (if 1 ≤ len ∧ len ≤ 256 then 8 + 8 * len else 8) ea))

/-- MTID (R233). -/
def execMtid (gd : Guard) (a : BitVec 5) (e : BitVec 6) (s : State) : Host.Outcome State Fault Refusal :=
  guarded gd s (fun s => s.imageCmd (.tid e.toNat s.me.atF) 8 64 (addr48 (s.s a)))

/-- The entry number split over two fields (Table 9-1). -/
def entryNum (lo : BitVec 5) (hi : BitVec 1) : Nat := lo.toNat + 32 * hi.toNat

/-- The commands of every sequencer of a core. -/
def State.coreCmds (s : State) (core : Nat) : List (Nat × MatCmd) :=
  (List.range 4).flatMap (fun k => (s.thread (4 * core + k)).mat.queue.map (fun c => (4 * core + k, c)))

/-- A table command that names the entry is queued (R234). -/
def State.entryPending (s : State) (e : Nat) : Bool :=
  (s.coreCmds (coreOf s.cur.tid)).any (fun c => c.2.op.entry == some e &&
    !(c.1 == s.cur.tid && (decide (c.2.org.bundle = s.me.ord) || !s.me.mat.lives c.2)))

/-- MTIDR waits for the table commands on its entry, then reads doubleword k as it stands (R234, R235). -/
def execMtidr (gd : Guard) (d a : BitVec 5) (k : BitVec 3) (e : BitVec 1) (s : State) : Host.Outcome State Fault Refusal :=
  guarded gd s (fun s =>
    let n := entryNum a e
    let arr := (s.core (coreOf s.cur.tid)).arr
    if s.entryPending n then s.hold
    else if ¬ s.me.atF ∧ tget 0 arr.entryDom n ≠ s.me.dom then s.raise (trapInfo .tensorId 4 0x12)
    else s.postS d (BitVec.ofNat 64 (nbits (tget 0 arr.entries n).toNat (64 * k.toNat) 64)) 2)

/-- MDUP (R237). -/
def execMdup (gd : Guard) (d a b : BitVec 5) (q : BitVec 2) (e : BitVec 1) (s : State) : Host.Outcome State Fault Refusal :=
  guarded gd s (fun s => s.matCmd (.dup (entryNum d e) (s.s a) (s.s b) q.toNat s.me.atF) 0 false [])

/-- MCODE with entries in memory (R244). -/
def execMcode (gd : Guard) (a : BitVec 5) (i : BitVec 12) (kw : Option (BitVec 32)) (s : State) : Host.Outcome State Fault Refusal :=
  guarded gd s (fun s => s.imageCmd (.mcode false) 2 32 (s.ea a i kw).toNat)

/-- MCODE with the fixed levels (R244). -/
def execMcodeFixed (gd : Guard) (s : State) : Host.Outcome State Fault Refusal :=
  guarded gd s (fun s => s.matCmd (.mcode true) 0 false [])

/-- MWAIT holds its bundle until at most n commands remain (R245). -/
def execMwait (gd : Guard) (c : BitVec 6) (s : State) : Host.Outcome State Fault Refusal :=
  guarded gd s (fun s => if c.toNat < s.me.mat.queue.length then s.hold else s)

/-! ## Tile transfers -/

/-- The first failing cell of a core, in row-major order. -/
def State.cellErr (s : State) (core : Nat) : Option Nat :=
  (List.range 1024).find? (fun i => tget 0 s.ecc (cellErrKey core i) == 1)

/-- The failing row that the feeder reaches first among those of a step: its slot, and the cycles until it is read (R240). -/
def State.slotErr (s : State) (core : Nat) (rows : List (Nat × Nat × Nat)) : Option (Nat × Nat) :=
  (rows.filter (fun r => [1, 3].contains (tget 0 s.ecc (slotErrKey core r.1 r.2.1)))).foldl (fun (m : Option (Nat × Nat)) r =>
    match m with
    | some b => if r.2.2 < b.2 then some (r.1, r.2.2) else m
    | none => some (r.1, r.2.2)) none

/-- An error in a slot that nothing has found yet. -/
def State.slotSpoiled (s : State) (core slot : Nat) : Bool := (List.range 32).any (fun r => tget 0 s.ecc (slotErrKey core slot r) == 1)

/-- A slot is cleared to 0 (R170, R190). -/
def State.clearSlot (s : State) (core slot : Nat) : State :=
  (s.clearSlotErrs core [slot]).updArr core (fun a => { a with slots := a.slots.filter (fun e => e.1 / 32 != slot) })

/-- A TLD that meets an error in the operand memory traps, and its slot is left cleared (R190). -/
def State.spoil (s : State) (slot : Nat) (i : TrapInfo) : State :=
  let s := s.updMe (fun t => { t with walked := [] })
  if s.masked s.cur.tid then s.outcome .held
  else ((s.clearSlot (coreOf s.cur.tid) slot).outcome (.spoiled slot i)).takeTrap s.cur.tid i s.cur.pc

/-- The checks of TLD on its entry and coordinates, in the order of R186. -/
def tldCheck (t : Tensor) (foreign tr : Bool) (row0 k0 : Nat) : Option TrapInfo :=
  if ¬ t.v then some (trapInfo .tensorId 3 0x10)
  else if foreign then some (trapInfo .tensorId 3 0x12)
  else if tr ∧ ¬ t.transposable then some (trapInfo .tensorId 3 0x11)
  else if tr ∧ t.stride < ceilDiv (t.rows * t.wMem) 8 then some (trapInfo .tensorId 3 0x07)
  else if t.rows ≤ row0 ∨ t.kext ≤ k0 ∨ k0 % t.x ≠ 0 then some (trapInfo .indexRange 3)
  else none

/-- A TLD with its coordinate word (R186): it waits for table commands on its entry and for the footprint of earlier commands. With T = 1 its K lines may run beyond 0xF_FFFF, which
MTID does not test: they trap SCRATCH_RANGE, step 3 of Table 7-7, though R186 names only steps 2, 6 and 7 (log entry 72). An error in the slot that nothing
has found is found as TLD writes it (R190). R234 has the TLD wait at the load/store unit; the entry decides its faults, which are precise (R177, R246), so that its bundle has no
effect until the entry has been read, and it is held as for any access that waits to be checked (log entry 6). -/
def State.tldAt (s : State) (slot entry : Nat) (tr : Bool) (coord : Nat) : State :=
  let arr := (s.core (coreOf s.cur.tid)).arr
  let k0 := nbits coord 0 20
  let row0 := nbits coord 20 20
  let te := arr.tensor entry
  if s.entryPending entry ∨ s.footBusy (footSlots [slot]) then s.hold
  else if ¬ arr.holdsSlot s.cur.tid slot then s.raise (trapInfo .slotUnclaimed 3)
  else
    match tldCheck te (tget 0 arr.entryDom entry != s.me.dom) tr row0 k0 with
    | some i => s.raise i
    | none =>
      let spans := (List.range (min 32 (te.rows - row0))).flatMap (fun r => te.rowSpans tr (row0 + r) k0)
      s.padAccess .read 3 1 spans (fun s =>
        let side := if te.sm = 0 ∧ te.sp = 0 then 0 else 2
        if s.slotSpoiled (coreOf s.cur.tid) slot then s.spoil slot (trapInfo .engineDataError 3)
        else s.enqueue (.tld slot entry tr row0 k0 (spans.map (fun x => (s.ownPlace x.1, x.2)))) (17 + side) [])

/-- TLD (R186). -/
def execTld (gd : Guard) (d a b : BitVec 5) (t x y : BitVec 1) (s : State) : Host.Outcome State Fault Refusal :=
  guarded gd s (fun s => s.tldAt (entryNum d y) (entryNum b x) (t == 1#1) (s.s a).toNat)

/-- The rows of TLDA and TST and their checks (R187, R188): the claim, then alignment, then the range, then Table 7-7. Where s[a] is aligned and only STR is
not, the spec names no address: $badaddr is that of row 1, s[a] + STR, the model's choice (log entry 72). -/
def State.tileRows (s : State) (t : BitVec 4) (a b : BitVec 5) (af : Nat) (k : AccKind) (f : State → Nat → Nat → State) : State :=
  let n := afBytes af
  let va := addr48 (s.s a)
  let str := nbits (s.s b).toNat 0 20
  if s.footBusy (footTiles [t.toNat]) then s.hold
  else if ¬ (s.core (coreOf s.cur.tid)).arr.holdsTile s.cur.tid t.toNat then s.raise (trapInfo .slotUnclaimed 3)
  else if va % n ≠ 0 then s.raise (trapInfo .misaligned 3 0 (BitVec.ofNat 48 va))
  else if str % n ≠ 0 then s.raise (trapInfo .misaligned 3 0 (BitVec.ofNat 48 (va + str)))
  else s.padAccess k 3 1 ((List.range 32).map (fun r => (va + r * str, 32 * n))) (fun s => f s (s.ownPlace va) str)

/-- TLDA (R187). -/
def execTlda (gd : Guard) (t : BitVec 4) (a b : BitVec 5) (p : BitVec 1) (f : BitVec 3) (s : State) :
    Host.Outcome State Fault Refusal :=
  guarded gd s (fun s =>
    if p = 1 ∧ ¬ s.descBit (s.s b) then s
    else s.tileRows t a b f.toNat .read (fun s base str => s.enqueue (.tlda t.toNat f.toNat base str) (8 * afBytes f.toNat + 1) []))

/-- TST (R188): under RST 1,024 values are drawn at issue, for .raw none, which rounds nothing: the model's reading, since R188 does not except it (log entry
72). A cell error stores nothing (R190). -/
def execTst (gd : Guard) (t : BitVec 4) (a b : BitVec 5) (p : BitVec 1) (r f : BitVec 3) (s : State) :
    Host.Outcome State Fault Refusal :=
  guarded gd s (fun s =>
    if p = 1 ∧ ¬ s.descBit (s.s b) then s
    else
      let code := s.roundCode3 r
      s.tileRows t a b f.toNat .write (fun s base str =>
        match s.cellErr (coreOf s.cur.tid) with
        | some _ => s.raise (trapInfo .engineDataError 3)
        | none =>
          let (us, s) := if code = 5 ∧ f.toNat < 4 then s.draws16 1024 else ([], s)
          s.enqueue (.tst t.toNat f.toNat base str code us) (8 * afBytes f.toNat + 1) []))

/-! ## The engine -/

/-- The thread's next command to start: the first that is not running and has a false predicate no more than as the head (R225); behind a stopped one none
(R220, R222). A command that RFT lets retire as it stands waits to be the head too (R222). -/
def Mat.next? (m : Mat) : Option (MatCmd × Bool) :=
  let passed (c : MatCmd) : Bool := c.started || (c.op.isNop && c.st == .queued && (m.queue.head?.map MatCmd.num) != some c.num)
  match m.queue.dropWhile passed with
  | [] => none
  | c :: _ =>
    match c.st with
    | .failed _ => none
    | _ => some (c, decide ((m.queue.head?.map MatCmd.num) = some c.num))

/-- A command of the queue changes. -/
def Thread.updCmd (t : Thread) (num : Nat) (f : MatCmd → MatCmd) : Thread :=
  { t with mat := { t.mat with queue := t.mat.queue.map (fun c => if c.num = num then f c else c) } }

/-- A command leaves the queue, and its interlocks with it. -/
def Thread.retireCmd (t : Thread) (c : MatCmd) : Thread :=
  { t.unlock c.id with mat := { t.mat with queue := t.mat.queue.filter (fun d => d.num != c.num) } }

/-- A part of a gang that has not ended. -/
def MatCmd.openPart (c : MatCmd) (g : List Nat × Nat) : Bool := c.gang == some g && (match c.st with | .done => false | _ => true)

/-- A gang retires in every queue when no part is open; a participant that is gone has no part (R292). R228 and R292 bring the completion to the participants'
barriers and name no arrival that it counts as: it has no effect on a group's table or on what a barrier has counted, the model's choice
(log entry 39). -/
def State.gangTest (s : State) (g : List Nat × Nat) : State :=
  if g.1.any (fun t => (s.thread t).mat.queue.any (fun c => c.openPart g)) then s
  else g.1.foldl (fun s t => s.updThread t (fun th => (th.mat.queue.filter (fun c => c.gang == some g)).foldl Thread.retireCmd th)) s

/-- A command ends: it retires, or its gang waits for the other parts (R221, R292). -/
def State.endPart (s : State) (tid : Nat) (c : MatCmd) : State :=
  match c.gang with
  | none => s.updThread tid (fun t => t.retireCmd c)
  | some g => (s.updThread tid (fun t => t.updCmd c.num (fun d => { d with st := .done }))).gangTest g

/-- A command fails (R222): the queue halts with it at the head, its interlock is released, and the fault is reported with its index;
a part of a gang sets its core's bit in PF (R292), which takes it when the part stops, though Table 12-12 speaks of faults reported in gang completions: the
model's choice (log entry 76). -/
def State.failCmd (s : State) (tid : Nat) (c : MatCmd) (i : TrapInfo) (steps : Nat) : State :=
  let s := s.updThread tid (fun t =>
    let t := (t.unlock c.id).updCmd c.num (fun d => { d with st := .failed steps })
    { t with mat := { t.mat with halted := true } })
  let s := if c.gang.isSome then s.updFuse tid (fun f => { f with pf := f.pf ||| BitVec.ofNat 8 (2 ^ (coreOf tid % 8)) }) else s
  s.postFault c.org { i with cmdidx := BitVec.ofNat 32 c.num, engine := 4 }

/-- Whether a command is out of the way of a later one of its own thread's handler. -/
def State.earlierOn (s : State) (tid : Nat) (c : MatCmd) (p : Nat → MatCmd → Bool) : Bool :=
  let behind := (((s.thread tid).mat.queue.dropWhile (fun d => d.num != c.num)).map MatCmd.num)
  (s.coreCmds (coreOf tid)).any (fun (k, d) => decide (d.ord < c.ord) && !(k == tid && behind.contains d.num) && p k d)

/-- Whether the engine may start a command (R202, R220, R221, R228, R234, R244, R388). A restart waits for every tile transfer that its thread has issued to
its footprint, its handler's reload among them (R295). R234 orders a table command behind earlier TLDs, MTIDRs and MCALLs and says nothing of an earlier table command of another
thread: those of one entry apply in issue order, those of different entries do not wait for each other, the model's choice (log entry 76). -/
def State.canStart (s : State) (tid : Nat) (c : MatCmd) (head : Bool) : Bool :=
  let core := coreOf tid
  let t := s.thread tid
  let arr := (s.core core).arr
  let earlier := t.memQ.filter (fun a => decide (a.ord < c.org.bundle))
  let mem := match c.st with | .restart _ => t.memQ | _ => earlier
  let running := (t.mat.queue.takeWhile (fun d => d.num != c.num)).filter MatCmd.started
  decide (c.issued < s.cycle) && c.image.isSome &&
  (match c.st with | .restart _ => head | _ => true) &&
  !(s.underTest (2 * 2 ^ 20 + core) || s.underTest (3 * 2 ^ 20 + core)) &&
  mem.all (fun a => !overlap a.op.foot (match c.st with | .restart _ => c.wide ||| c.foot | _ => c.wide)) &&
  (if c.op.isCall then
    decide (arr.feedEnd < s.cycle) && !arr.runs.any (fun r => r.tid == tid && r.fault.isSome) &&
    (arr.flow.pattern != 2 || earlier == []) &&
    !s.earlierOn tid c (fun k d => d.op.isConfig || d.op.isTable || (d.op.isCall && !d.started && (s.thread k).mat.lives d))
   else running.all (fun d => !overlap (d.holds s.cycle) c.wide)) &&
  (!c.op.isConfig || !s.earlierOn tid c (fun _ d => d.op.isCall || d.op.isConfig)) &&
  (match c.op.entry with
    | some e =>
      !s.earlierOn tid c (fun _ d => d.op.isCall || d.op.entry == some e) &&
      (List.range 4).all (fun k => (s.thread (4 * core + k)).memQ.all (fun a =>
        match a.op with | .tld _ e' _ _ _ _ => e' != e | _ => true))
    | none => true) &&
  (!c.op.isCode || (!arr.code.flip && !s.earlierOn tid c (fun _ d => d.op.isCode)))

/-- The status word of Table 9-2. WORD has 8 bits: of a walk that leaves a routine of 256 words, whose failing word would be at offset 256, it holds 0 (the
model's choice, log entry 72). -/
def matStatus (sub word done kind rout : Nat) (rs : Bool) : DWord :=
  BitVec.ofNat 64 (sub + word % 256 * 2 ^ 8 + done * 2 ^ 16 + kind * 2 ^ 48 + rout * 2 ^ 56 + b2n rs * 2 ^ 63)

/-! ## MCALL -/

/-- The members that an MREL of the thread is releasing: an earlier command than any that starts now (R218, R220). -/
def Thread.leaving (t : Thread) (tiles : Bool) : List Nat :=
  t.mat.queue.flatMap (fun c => match c.st, c.op with | .running _, .rel b m => if b = tiles then claimSet b m else [] | _, _ => [])

/-- The walk's environment for a call. -/
def State.walkEnv (s : State) (tid routine : Nat) (gather : Option VecReg) : WEnv :=
  let arr := (s.core (coreOf tid)).arr
  let e := tget ⟨false, 0, 0, 0⟩ arr.rtab routine
  let gone (tiles : Bool) (x : Nat × Nat) : Bool := x.2 == tid && ((s.thread tid).leaving tiles).contains x.1
  { arr := { arr with slotOwn := arr.slotOwn.filter (fun x => !gone false x), tileOwn := arr.tileOwn.filter (fun x => !gone true x) }, tid := tid, dom := (s.thread tid).dom, start := e.start, len := e.len, gather := gather }

/-- The checks of R226 at the engine, then the walk: the tile steps, the words executed and the footprint, or the failure. -/
def State.planCall (s : State) (tid routine : Nat) (p : List DWord) (gather : Option VecReg) :
    Except (TrapInfo × Nat) (List TStep × Nat × Nat) :=
  let arr := (s.core (coreOf tid)).arr
  let e := tget ⟨false, 0, 0, 0⟩ arr.rtab routine
  let dom := (s.thread tid).dom
  let fail (sub : Nat) : Except (TrapInfo × Nat) (List TStep × Nat × Nat) :=
    .error (trapInfo .routine 4 (matStatus sub 0 0 0 routine false), 0)
  let wf := decide (arr.flow.pattern = 1)
  if ¬ e.v then fail 0x06
  else if e.dom != dom || (match arr.cell.dom with | some d => d != dom | none => false) then fail 0x07
  else if ¬ arr.cell.valid ∨ (if wf then isRateImage arr.cell.words else !isRateImage arr.cell.words) then fail 0x08
  else
    match (s.walkEnv tid routine gather).walk 65536 (WSt.init p) with
    | .fail off (c, sub) x => .error (trapInfo c 4 (matStatus sub off 0 0 routine false), x)
    | .done w => .ok (w.steps.reverse, w.x, w.foot)

/-- The translation of a stream address: that which its call began with, or of a buffer, or of the walk that the call has asked for (R303). -/
def State.streamLeaf (s : State) (tid va : Nat) : WalkEnd :=
  let dom := (s.thread tid).dom
  let held := ((s.core (coreOf tid)).arr.runs.filter (fun r => r.tid == tid)).flatMap Run.leaves
  match walkOf held dom va, s.tlbFind (coreOf tid) dom va with
  | some r, _ => r
  | none, some l => .leaf l l.level
  | none, none => s.dieLeaf (dieOf tid) (s.engGot (dieOf tid) (.stream tid)) dom va

/-- Bytes of a stream. -/
def State.streamBytes (s : State) (tid va n : Nat) : List Byte :=
  (piecesOf va n).flatMap (fun p =>
    match s.streamLeaf tid p.1 with
    | .leaf l _ => s.placeBytes ⟨l.pa + (p.1 - l.va), .hbm, l.chk, l.key.toNat⟩ p.2
    | .fault _ _ => List.replicate p.2 0)

/-- The first fault of a stream piece, checked as a load of the thread: translation, permission, conflicts, and data errors (R206, R240). -/
def State.streamPiece (s : State) (tid at_ : Nat) (p : Nat × Nat) : Option (RoutineFault × DWord) :=
  let t := s.thread tid
  let va := BitVec.ofNat 48 p.1
  match s.streamLeaf tid p.1 with
  | .fault sub _ => some (.stream at_ (if sub < 0x10 then .translation else .permission) va, 0)
  | .leaf l _ =>
    if ¬ l.r then some (.stream at_ .permission va, 0)
    else
      let key := l.pa + (p.1 - l.va)
      match (if l.chk then s.tagCheck tid t.ctl.cmask t.seen 4 key p.2 false false 4 p.1 else none) with
      | some i => some (.stream at_ i.cause i.badaddr, 0)
      | none => (s.badWord key p.2).map (fun _ => (.streamData at_ (BitVec.ofNat 48 (p.1 / 64 * 64)), 0))

/-- The pieces of the streams of a step. -/
def State.streamPieces (s : State) (tid : Nat) (st : TStep) : List (Nat × Nat) :=
  (List.range st.rows).flatMap (fun r => (streamSpans (s.core (coreOf tid)).arr st r).flatMap (fun x => piecesOf x.1 x.2))

/-- The cycles from a step's first until a failing cell of the core first fires. -/
def State.cellFires (s : State) (core : Nat) : Nat :=
  let fl := (s.core core).arr.flow
  let times := ((List.range 1024).filter (fun i => tget 0 s.ecc (cellErrKey core i) == 1)).map (fun i => i / 32 + i % 32 + fl.rs (i / 32) + fl.cs (i % 32))
  times.foldl min (times.headD 0)

/-- The first fault a tile step meets, and the cycles after the step's first until it is found (Table 9-5): at the first firing of a failing cell, at the
read of the failing row, or at the stream's read (R240). -/
def State.stepFault (s : State) (tid : Nat) (env : RunEnv) (at_ : Nat) (st : TStep) : Option (RoutineFault × Nat) :=
  let core := coreOf tid
  let arr := (s.core core).arr
  let cells := (s.cellErr core).map (fun i => (RoutineFault.cell at_ (BitVec.ofNat 10 i), s.cellFires core))
  let slots := (s.slotErr core (st.reads arr env)).map (fun x => (RoutineFault.slot at_ (BitVec.ofNat 6 x.1), x.2))
  let streams := ((s.streamPieces tid st).findSome? (s.streamPiece tid at_)).map (fun f => (f.1, 0))
  [cells, slots, streams].foldl (fun m x => match m, x with
    | some a, some b => if b.2 < a.2 then some b else some a
    | none, b => b
    | a, none => a) none

/-- The first tile step at which a fault strikes, from number `n` on. Where two steps hold an error each, the lower-numbered one's is reported, though the later
one's may be found in an earlier cycle: the model's choice (log entry 71). -/
def State.firstFault (s : State) (tid : Nat) (env : RunEnv) : Nat → List TStep → Option (Nat × RoutineFault × Nat)
  | _, [] => none
  | n, st :: sts =>
    match s.stepFault tid env n st with
    | some f => some (n, f)
    | none => s.firstFault tid env (n + 1) sts

/-- Cause, KIND and $badaddr of a stop (Table 9-5). -/
def stopKind : RoutineFault → Nat × Cause × Nat × VAddr
  | .stream n c a => (n, c, 1, a)
  | .streamData n a => (n, .copyFault, 2, a)
  | .cell n i => (n, .engineDataError, 3, i.setWidth 48)
  | .slot n o => (n, .engineDataError, 4, o.setWidth 48)
  | .partner n c => (n, .gangPartner, 5, c.setWidth 48)

/-- The record of a stop in the step made by word `word` of routine `rout` (R242). -/
def stopInfo (f : RoutineFault) (word rout : Nat) : TrapInfo :=
  let (n, c, k, a) := (stopKind f)
  trapInfo c 4 (matStatus 0 word n k rout true) a

/-- The place of the error that a stop for stream data names (Table 9-5). -/
def State.stopPlace (s : State) (tid : Nat) (i : TrapInfo) : Option Nat :=
  match s.streamLeaf tid i.badaddr.toNat with
  | .leaf l _ => s.badWord (l.pa + (i.badaddr.toNat - l.va)) 64
  | .fault _ _ => none

/-- What follows a stop, by the KIND of its record (R201, R240): a cell error makes the image invalid; the errors of a failing slot are found, so that
the TLD that reloads it does not find them again (log entry 71); and they, and an error in stream data at place `key`, start the self-test of their unit (R388). -/
def State.afterStop (s : State) (tid : Nat) (i : TrapInfo) (key : Option Nat) : State :=
  let core := coreOf tid
  match nbits i.estat.toNat 48 3 with
  | 2 => match key with | some k => s.memError 0x0101 k tid (s.thread tid).dom.toNat | none => s
  | 3 => (s.updArr core (fun a => { a with cell := { a.cell with valid := false } })).startTest (3 * 2 ^ 20 + core)
  | 4 =>
    let found (s : State) (r : Nat) : State :=
      let k := slotErrKey core i.badaddr.toNat r
      if tget 0 s.ecc k = 1 then { s with ecc := tset s.ecc k 3 } else s
    ((List.range 32).foldl found s).startTest (2 * 2 ^ 20 + core)
  | _ => s

/-- When the k-th of the steps from `first` on is fed, after t0, where nothing holds it up (R203, R205, R243). -/
def feedOffset (fl : Flow) (k : Nat) : Nat := if fl.pattern = 1 ∧ fl.chain then k * (32 + fl.rs 31 - fl.rs 0) else k

/-- When each step of a run enters cell (0, 0), after t0, by the bytes that each streams and the raises of E in each: a stream passes 44 bytes a cycle (R206),
and a raise delays what follows it (R89, R213). -/
def feedTimes (fl : Flow) (bytes raises : List Nat) : List Nat :=
  let total (l : List Nat) : Nat := l.foldl (· + ·) 0
  (List.range bytes.length).map (fun k => max (feedOffset fl k) (ceilDiv (total (bytes.take (k + 1))) 44 - 1) + 70 * total (raises.take k))

/-- When each of the steps that end is complete in the last cell, after t0. -/
def endTimes (fl : Flow) (feeds raises : List Nat) : List Nat := (feeds.zip raises).map (fun p => p.1 + 62 + fl.rs 31 + fl.cs 31 + 70 * p.2)

/-- The word of a routine that makes tile step n; of a stop behind the last step, that step's word. -/
def stepWord (steps : List TStep) (n : Nat) : Nat := ((steps[min n (steps.length - 1)]?).map TStep.word).getD 0

/-- Corrected errors in what some steps stream are counted (R305, R388). -/
def State.noteStream (s : State) (tid : Nat) (sts : List TStep) : State :=
  if s.ecc = [] then s
  else s.corrected tid (s.thread tid).dom.toNat ((sts.flatMap (s.streamPieces tid)).filterMap (fun p =>
    match s.streamLeaf tid p.1 with
    | .leaf l _ => some (l.pa + (p.1 - l.va), p.2)
    | .fault _ _ => none))

/-- Reads of a checked stream page leave their records (R206, R314). -/
def State.recordStream (s : State) (tid : Nat) (sts : List TStep) : State :=
  (sts.flatMap (s.streamPieces tid)).foldl (fun s p =>
    match s.streamLeaf tid p.1 with
    | .leaf l _ => if l.chk then
        s.tagRecord tid (s.thread tid).ctl.cmask (s.thread tid).rel none 4 (l.pa + (p.1 - l.va)) p.2 true false false else s
    | .fault _ _ => s) s


/-- What a run reads beside the array. -/
def State.runEnv (s : State) (tid : Nat) (levels : List (BitVec 16)) (gather : Option VecReg) : RunEnv :=
  { levels := levels, gather := fun i => (lane (gather.getD 0) i).toNat, stream := fun va n => leNat (s.streamBytes tid va n) }

/-- A call starts in cycle c (R213, R228, R243): its checks and walk; its tile steps from number `first` on; the cycle its last group enters cell (0, 0), or a
stop takes it out of the array; and the cycle its tile is complete. -/
def State.startCall (s : State) (tid : Nat) (c : MatCmd) (routine : Nat) (p : List DWord) (gather : Option VecReg)
    (levels : List (BitVec 16)) (first : Nat) : State :=
  let core := coreOf tid
  let arr := (s.core core).arr
  let run0 : Run := { tid := tid, cmd := c.num, tiles := arr.tiles, c0 := arr.c0, c1 := arr.c1, h := arr.h, first := first, flags := 0,
                      fault := none, stopped := none, t0 := s.cycle + 4, ends := [], leaves := [] }
  let go (s : State) (r : Run) (until_ walkEnd foot : Nat) : State :=
    (s.updArr core (fun a => { a with runs := a.runs ++ [r] })).updThread tid (fun t =>
      t.updCmd c.num (fun d => { d with st := .running until_, walkEnd := walkEnd, foot := foot }))
  match s.planCall tid routine p gather with
  | .error (i, x) => go s { run0 with fault := some i } (s.cycle + ceilDiv x 4) (s.cycle + ceilDiv x 4) 0
  | .ok (steps, x, foot) =>
    let env := s.runEnv tid levels gather
    let todo := steps.drop first
    let stop := s.firstFault tid env first todo
    let ok := match stop with | some (n, _, _) => todo.take (n - first) | none => todo
    let (a', fl, raises) := arr.runSteps env ok
    let t0 := s.cycle + 4 + ceilDiv x 4
    let bytes := todo.map (fun st => st.rows * ((streamSpans arr st 0).map Prod.snd).foldl (· + ·) 0)
    let feeds := feedTimes arr.flow bytes raises
    let ends := (endTimes arr.flow feeds raises).map (t0 + ·)
    let last := t0 + feeds.getLastD 0
    let leaves := (hbmPages ((todo.flatMap (s.streamPieces tid)).map Prod.fst)).map (fun p => (⟨(s.thread tid).dom, p, some (s.streamLeaf tid (65536 * p))⟩ : PageWalk))
    let run : Run := { run0 with flags := fl, t0 := t0, ends := ends, leaves := leaves }
    let fed (s : State) (until_ : Nat) : State := ((s.updArr core (fun _ => { a' with feedEnd := until_ })).recordStream tid ok).noteStream tid ok
    match stop with
    | none => go (fed s last) run (if ok = [] then t0 else ends.getLastD t0 + 2) (s.cycle + ceilDiv x 4) foot
    | some (n, f, d) =>
      let at_ := t0 + (feeds[n - first]?).getD 0 + d
      go (fed s (min last at_)) { run with fault := some (stopInfo f (stepWord steps n) routine), stopped := some n } at_ (s.cycle + ceilDiv x 4) foot

/-- The pages of a call's streams, from the first of its tile steps on (R302). -/
def State.streamPages (s : State) (tid routine : Nat) (p : List DWord) (gather : Option VecReg) (first : Nat) : List Nat :=
  match s.planCall tid routine p gather with
  | .ok (steps, _, _) => hbmPages (((steps.drop first).flatMap (s.streamPieces tid)).map Prod.fst)
  | .error _ => []

/-- A call starts once its streams are translated: it waits for the walks of their pages (R303, log entry 68), and for tests of the regions they
lie in (R388). -/
def State.startTranslated (s : State) (tid : Nat) (c : MatCmd) (routine : Nat) (p : List DWord) (gather : Option VecReg) (levels : List (BitVec 16))
    (first : Nat) : State :=
  let die := dieOf tid
  let dom := (s.thread tid).dom
  let pages := s.streamPages tid routine p gather first
  let missing := (s.engMissing die (s.engGot die (.stream tid)) dom pages).filter (fun k => (s.tlbFind (coreOf tid) dom (65536 * k)).isNone)
  if missing = [] ∧ s.hub.units ≠ [] ∧ pages.any (fun k => s.leafTested (65536 * k) (s.streamLeaf tid (65536 * k))) then s
  else if missing = [] then (s.startCall tid c routine p gather levels first).engTaken die (.stream tid)
  else s.engAsk die (.stream tid) dom missing [coreOf tid]

/-- MCALL_ENGINE_START: the thread's next command, a call whose turn it is, starts (R220, R226, R228). -/
def execMcallEngineStart (tid : Nat) (s : State) : Host.Outcome State Fault Refusal :=
  match (s.thread tid).mat.next? with
  | none => .next s
  | some (c, head) =>
    match c.op with
    | .call r p g _ levels _ =>
      if s.canStart tid c head then
        .next (s.startTranslated tid c r p g levels (match c.st with | .restart n => n | _ => 0))
      else .next s
    | _ => .next s

/-- The oldest run of a thread whose end has come. -/
def State.dueRun (s : State) (tid : Nat) : Option (Run × MatCmd) :=
  ((s.core (coreOf tid)).arr.runs.find? (fun r => r.tid == tid)).bind (fun r =>
    ((s.thread tid).mat.queue.find? (fun c => c.num == r.cmd)).bind (fun c =>
      match c.st with
      | .running u => if u ≤ s.cycle then some (r, c) else none
      | _ => none))

/-- A run leaves the array. -/
def Array.dropRun (a : Array) (r : Run) : Array := { a with runs := a.runs.filter (fun q => !(q.tid == r.tid && q.cmd == r.cmd)) }

/-- MCALL_RETIRE: the tile is complete and the command retires, its flags raised (R14, R221); a check failure or a stop found on the way is
reported (R222, R242). -/
def execMcallRetire (tid : Nat) (s : State) : Host.Outcome State Fault Refusal :=
  match s.dueRun tid with
  | none => .next ((((s.thread tid).mat.queue.filterMap MatCmd.gang)).foldl State.gangTest s)
  | some (r, c) =>
    let key := (r.fault.bind (fun i => s.stopPlace tid i))
    let s := (s.updArr (coreOf tid) (fun a => a.dropRun r)).updThread tid (fun t => t.raiseFlags r.flags)
    match r.fault with
    | some i =>
      let s := s.failCmd tid c i (r.stopped.getD 0)
      .next (if r.stopped.isSome then s.afterStop tid i key else s)
    | none => .next (s.endPart tid c)

/-- The array before a run, as far as the run and those the same stop ends have changed it (R242): the tiles each of them writes, as they stood at its own
start, the latest first; the cell values where no later run has used them; and the feeder, which the run has left (R228). -/
def Array.undo (a : Array) (r : Run) (ended : Run → Bool) (foot : Run → Nat) (now : Nat) : Array :=
  let rest := a.runs.filter (fun q => !ended q)
  let later := rest.any (fun q => decide (r.t0 < q.t0))
  let back (m : Table Tile) (q : Run) : Table Tile :=
    (List.range 16).foldl (fun m i => if (foot q).testBit (64 + i) then tset m i (tget .zero q.tiles i) else m) m
  { a with tiles := (stableSort (fun p q => decide (q.t0 < p.t0)) (a.runs.filter ended)).foldl back a.tiles,
           c0 := if later then a.c0 else r.c0, c1 := if later then a.c1 else r.c1, h := if later then a.h else r.h, runs := rest,
           feedEnd := if later then a.feedEnd else min a.feedEnd now }

/-- A fault in tile step n of a run: the array returns to the state before the routine, the steps up to n act, and the command stops (R242); later calls
of the thread are unstarted again. A halted partner may find every step complete (R293). -/
def State.stopRun (s : State) (tid : Nat) (r : Run) (e : RoutineFault) : State :=
  let core := coreOf tid
  match (s.thread tid).mat.queue.find? (fun c => c.num == r.cmd) with
  | none => s
  | some c =>
    match c.op with
    | .call rt p g _ levels _ =>
      match s.planCall tid rt p g with
      | .error _ => s
      | .ok (steps, _, _) =>
        let n := (stopKind e).1
        if n < r.first ∨ steps.length + (match e with | .partner _ _ => 1 | _ => 0) ≤ n then s
        else
          let ended (q : Run) : Bool := q.tid == tid && decide (r.t0 ≤ q.t0)
          let later := ((s.core core).arr.runs.filter (fun q => ended q && q.cmd != r.cmd)).map Run.cmd
          let foot (q : Run) : Nat := ((((s.thread tid).mat.queue.find? (fun d => d.num == q.cmd)).map MatCmd.foot).getD 0)
          let env := s.runEnv tid levels g
          let i := stopInfo e (stepWord steps n) rt
          let key := s.stopPlace tid i
          let s := s.updArr core (fun a => a.undo r ended foot s.cycle)
          let (a', fl, _) := (s.core core).arr.runSteps env ((steps.drop r.first).take (n - r.first))
          let s := (s.updArr core (fun _ => a')).updThread tid (fun t =>
            later.foldl (fun t k => t.updCmd k (fun d => { d with st := .queued })) (t.raiseFlags fl))
          (s.failCmd tid c i n).afterStop tid i key
    | _ => s

/-- ROUTINE_STOP: a fault in tile step n of the routine that the thread runs (R240, R242). -/
def execRoutineStop (tid : Nat) (e : RoutineFault) (s : State) : Host.Outcome State Fault Refusal :=
  match (s.core (coreOf tid)).arr.runs.find? (fun r => r.tid == tid && r.fault.isNone) with
  | none => .next s
  | some r => .next (s.stopRun tid r e)

/-! ## The other commands -/

/-- MZERO (R229). -/
def zeroTile (i : Bool) (idn : Nat) (e : BitVec 16) : Tile :=
  { e := if i then 0 else e.toInt, int := i,
    el := if idn = 0 then [] else (List.range 1024).map (fun k => (k, flagged i (if idn = 1 then 2 else 3))) }

/-- MNORM (R230). -/
def normTile (t : Tile) (target : Option Int) : Tile × Fp.Flags :=
  if t.int then (t, 0)
  else
    let top := t.el.foldl (fun m p => if p.2.flag = 0 then max m p.2.m.natAbs else m) 0
    let d : Int := (Nat.log2 top : Int) - 44
    let d := if (2 ^ 45 - 1) * 2 ^ d.toNat < top then d + 1 else d
    let emin : Int := if top = 0 then t.e else min 32767 (max (-32768) (t.e + d))
    let e' := match target with | none => emin | some x => max emin x
    let one (x : Elem) : Elem × Bool :=
      if x.flag ≠ 0 then (x, false)
      else
        let (v, nx) := rneInt (decide (x.m < 0)) x.m.natAbs (t.e - e')
        (⟨v, 0⟩, nx)
    let rs := t.el.map (fun p => (p.1, one p.2))
    ({ t with e := e', el := (rs.map (fun p => (p.1, p.2.1))).filter (fun p => decide (p.2 ≠ ⟨0, 0⟩)) },
      Fp.flagIf (rs.any (fun p => p.2.2)) Fp.NX)

/-- MRDROW: the lanes of a row, with their flags (R231). -/
def readRow (t : Tile) (row af code : Nat) (us : List Nat) : VecReg × Fp.Flags :=
  let one (j : Nat) : Nat × Fp.Flags :=
    let x := t.elem (32 * row + j)
    let m := wrapN 48 x.m
    match af with
    | 0 => t.readOut (32 * row + j) 0 (modeOf code (nth 0 us j))
    | 1 => t.readOut (32 * row + j) 3 (modeOf code (nth 0 us j))
    | 2 => (m % 2 ^ 32, 0)
    | _ => (m / 2 ^ 32 + b2n (x.flag == 1) * 2 ^ 16 + b2n (x.flag == 2) * 2 ^ 17 + b2n (x.flag == 3) * 2 ^ 18 + b2n t.int * 2 ^ 19, 0)
  let rs := (List.range 32).map one
  (ofLanes (fun j => BitVec.ofNat 32 (nth (0, 0) rs j).1), joinFlags (rs.map Prod.snd))

/-- One element under .mhi and .mlo (R232). -/
def writeHi (int : Bool) (old : Elem) (x : Word) : Elem :=
  match nbits x.toNat 16 3 with
  | 0 => ⟨sval 48 (wrapN 48 old.m % 2 ^ 32 + x.toNat % 2 ^ 16 * 2 ^ 32), 0⟩
  | 1 => flagged int 1
  | 2 => flagged int 2
  | 4 => flagged int 3
  | _ => flagged int 1
def writeLo (old : Elem) (x : Word) : Elem :=
  if old.flag ≠ 0 then old else ⟨sval 48 (wrapN 48 old.m / 2 ^ 32 * 2 ^ 32 + x.toNat), 0⟩

/-- MWRROW .fp32 on a floating tile (R232): the raise of R88 over the whole tile. -/
def writeFloatRow (t : Tile) (row : Nat) (v : VecReg) : Tile × Fp.Flags × Nat :=
  let xs := (List.range 32).map (fun j => Fp.f32 (lane v j))
  let item (i : Nat) : (Nat × Elem) ⊕ RaiseElem :=
    if i / 32 = row then
      match nth (.fin false 0 0) xs (i % 32) with
      | .nan _ => .inl (i, ⟨0, 1⟩)
      | .inf n => .inl (i, ⟨0, if n then 3 else 2⟩)
      | x => .inr ⟨i, 0, some x, true⟩
    else
      let x := t.elem i
      if x.flag ≠ 0 then .inl (i, x) else .inr ⟨i, x.m, none, false⟩
  let all := (List.range 1024).map item
  let fls := all.filterMap (fun a => match a with | .inl p => some p | .inr _ => none)
  let rs := all.filterMap (fun a => match a with | .inr r => some r | .inl _ => none)
  let (t', f, k) := t.raiseWith 6 fls rs
  let nx := xs.any (fun x => match x with | .fin n m e => (rneInt n m (e - t'.e)).2 | _ => false)
  (t', f ||| Fp.flagIf nx Fp.NX ||| Fp.flagIf (xs.any Fp.Num.isSnan) Fp.NV, k)

/-- MWRROW on a tile whose mode suits (R232). -/
def writeRow (t : Tile) (row af : Nat) (v : VecReg) : Tile × Fp.Flags × Nat :=
  let each (f : Elem → Word → Elem) : Tile :=
    (List.range 32).foldl (fun t j => t.setElem (32 * row + j) (f (t.elem (32 * row + j)) (lane v j))) t
  match af with
  | 0 => writeFloatRow t row v
  | 1 => (each (fun _ x => ⟨x.toInt, 0⟩), 0, 0)
  | 2 => (each writeLo, 0, 0)
  | _ => (each (writeHi t.int), 0, 0)

/-- A number from the bytes of an image. -/
def imgNat (img : List Byte) (off n : Nat) : Nat := leNat ((img.drop off).take n)

/-- The cell program of an image, or the sub-code that refuses it (R199, R200). -/
def cellOf (img : List Byte) (dom : BitVec 6) : Except Nat CellProg :=
  let dw0 := imgNat img 0 8
  let n := dw0 % 16
  let c0 := sval 64 (imgNat img 8 8)
  let c1 := sval 64 (imgNat img 16 8)
  let all := (List.range 8).map (fun i => BitVec.ofNat 32 (imgNat img (24 + 4 * i) 4))
  let ws := all.take n
  if n = 0 ∨ 8 < n ∨ 16 ≤ dw0 ∨ satMax < c0.natAbs ∨ satMax < c1.natAbs then .error 0x01
  else if (all.drop n).any (fun w => w != 0) ∨ ¬ (isRateImage ws || isStepImage ws) then .error 0x02
  else .ok ⟨ws, c0, c1, some dom, true⟩

/-- Every cell takes a program (R200). -/
def Array.loadCell (a : Array) (c : CellProg) : Array :=
  let fill (x : Int) : Table Elem := if x = 0 then [] else (List.range 1024).map (fun i => (i, ⟨x, 0⟩))
  { a with cell := c, c0 := fill c.c0i, c1 := fill c.c1i, h := [] }

/-- A flow descriptor, or its refusal (R207, R208): reserved bits, skews that decrease, edge values out of range. -/
def flowOf (img : List Byte) (pattern : Nat) : Option Flow :=
  let bs := (img.take 64).map BitVec.toNat
  let dws := (List.range 16).map (fun i => BitVec.ofNat 64 (imgNat img (8 * i) 8))
  let rising (l : List Nat) : Bool := (l.zip (l.drop 1)).all (fun p => decide (p.1 ≤ p.2))
  let edge (i : Nat) : Bool := decide (((nth 0 dws i).toInt.natAbs : Int) ≤ satMax)
  if bs.any (fun b => decide (64 ≤ b)) ∨ ¬ rising (bs.take 32) ∨ ¬ rising (bs.drop 32) ∨ ¬ [8, 9, 10, 11, 12].all edge ∨
     2 ≤ (nth 0 dws 13).toNat ∨ nth 0 dws 14 ≠ 0 ∨ nth 0 dws 15 ≠ 0 then none
  else some ⟨pattern, dws⟩

/-- MROUT on an image (R211): the routine store and table, or the refusing sub-code. -/
def Array.loadRoutine (a : Array) (img : List Byte) (st : Nat) (dom : BitVec 6) : Except Nat Array :=
  let h := imgNat img 0 8
  let len := nbits h 8 9
  let idx := h % 64
  let ws := (List.range len).map (fun i => BitVec.ofNat 64 (imgNat img (8 + 8 * i) 8))
  if nbits h 6 2 ≠ 0 ∨ nbits h 17 47 ≠ 0 ∨ len = 0 ∨ 256 < len ∨ 256 < st + len then .error 0x04
  else if ¬ ws.all microOk then .error 0x05
  else
    let store := ((List.range len).zip ws).foldl (fun m p => tset m (st + p.1) p.2) a.rstore
    let tab := a.rtab.map (fun e =>
      if e.1 ≠ idx ∧ e.2.start < st + len ∧ st < e.2.start + e.2.len then (e.1, { e.2 with v := false }) else e)
    .ok { a with rstore := store, rtab := tset tab idx ⟨true, st, len, dom⟩ }

/-- MTID's content checks and write (R173, R233, R236). -/
def Array.loadEntry (a : Array) (e : Nat) (img : Nat) (atF : Bool) (dom : BitVec 6) : Except Nat Array :=
  match tensorCheck img atF with
  | some sub => .error sub
  | none =>
    if ¬ atF ∧ (a.tensor e).v ∧ tget 0 a.entryDom e ≠ dom then .error 0x12
    else .ok { a with entries := tset a.entries e (BitVec.ofNat 512 img), entryDom := tset a.entryDom e dom }

/-- MDUP's checks and write (R236, R237). R237 does not list the domain check of R236: it stands behind the test of V. At F an MDUP
of another domain's valid entry is allowed: the second point of R236 lets a thread at F write any entry, where the third refuses MDUP the entry of another domain and names no level.
Both are the model's choice (log entry 76). -/
def Array.dupEntry (a : Array) (e : Nat) (hw nd : DWord) (q : Nat) (atF : Bool) (dom : BitVec 6) : Except Nat Array :=
  let old := (tget 0 a.entries e).toNat
  let img := setBits (setBits old (256 + 64 * q) 64 hw.toNat) 160 5 (nd.toNat % 32)
  if ¬ (tensorOf old).v then .error 0x10
  else if ¬ atF ∧ tget 0 a.entryDom e ≠ dom then .error 0x12
  else if 32 ≤ nd.toNat then .error 0x01
  else if tensorCheck img true = some 0x08 then .error 0x08
  else .ok { a with entries := tset a.entries e (BitVec.ofNat 512 img), entryDom := tset a.entryDom e dom }

/-- The release of a member (R218): its contents are cleared, and it is free. -/
def Array.releaseOne (a : Array) (tid : Nat) (tiles : Bool) (i : Nat) : Array :=
  if tiles then
    if a.holdsTile tid i then { a with tiles := tset a.tiles i .zero, tileOwn := tdel a.tileOwn i } else a
  else if a.holdsSlot tid i then
    { a with slots := a.slots.filter (fun e => e.1 / 32 != i), slotOwn := tdel a.slotOwn i }
  else a

/-- A command whose content check failed. -/
def State.refuseCmd (s : State) (tid : Nat) (c : MatCmd) (cause : Cause) (sub : Nat) (bad : VAddr := 0) : State :=
  s.failCmd tid c (trapInfo cause 4 (BitVec.ofNat 64 sub) bad) 0

/-- A command starts and occupies the engine for `n` cycles (Table 9-6). -/
def State.runCmd (s : State) (tid : Nat) (c : MatCmd) (n : Nat) : State :=
  s.updThread tid (fun t => t.updCmd c.num (fun d => { d with st := .running (s.cycle + n - 1) }))

/-- A command on a tile: the hold is tested when it reaches the engine (R229). -/
def State.onTile (s : State) (tid : Nat) (c : MatCmd) (tile : Nat) (f : State → Tile → State) : State :=
  let arr := (s.core (coreOf tid)).arr
  if ¬ arr.holdsTile tid tile then s.refuseCmd tid c .slotUnclaimed 0 else f s (arr.tile tile)

/-- A tile takes a value, its flags go to the thread, and the command occupies the engine. -/
def State.putTile (s : State) (tid : Nat) (c : MatCmd) (tile : Nat) (t : Tile) (f : Fp.Flags) (n : Nat) : State :=
  ((s.updArr (coreOf tid) (fun a => a.setTile tile t)).updThread tid (fun th => th.raiseFlags f)).runCmd tid c n

/-- A command reaches the engine: its checks and, for the tile and configuration commands, its effect (R200, R208, R211, R229 to R232). -/
def State.beginCmd (s : State) (tid : Nat) (c : MatCmd) : State :=
  let core := coreOf tid
  let arr := (s.core core).arr
  let dom := (s.thread tid).dom
  let img := c.image.getD []
  match c.op with
  | .nop => s.endPart tid c
  | .call _ _ _ _ _ _ => s
  | .zero tile i idn e => s.onTile tid c tile (fun s _ => s.putTile tid c tile (zeroTile i idn e) 0 2)
  | .norm tile t target => s.onTile tid c tile (fun s x =>
      let (y, f) := normTile x (if t then some target.toInt else none)
      s.putTile tid c tile y f 4)
  | .rdrow tile row d af code us =>
    if 31 < row then s.refuseCmd tid c .indexRange 0 (BitVec.ofNat 48 row)
    else s.onTile tid c tile (fun s x =>
      let (v, f) := readRow x row af code us
      (s.runCmd tid c 4).updThread tid (fun t => t.updCmd c.num (fun e => { e with op := .rowRead d v f })))
  | .rowRead _ _ _ => s
  | .wrrow tile row af v =>
    if 31 < row then s.refuseCmd tid c .indexRange 0 (BitVec.ofNat 48 row)
    else s.onTile tid c tile (fun s x =>
      if (af = 0 ∧ x.int) ∨ (af = 1 ∧ ¬ x.int) then s.refuseCmd tid c .routine 0x0E
      else
        let (y, f, k) := writeRow x row af v
        s.putTile tid c tile y f (2 + 70 * k))
  | .cell preset =>
    let clearErr (s : State) : State := { s with ecc := s.ecc.filter (fun e =>
      !(decide (cellErrKey core 0 ≤ e.1) && decide (e.1 < cellErrKey core 1024))) }
    if preset ≠ 0 then
      (clearErr (s.updArr core (fun a => a.loadCell ⟨presetWords preset, 0, 0, none, true⟩))).runCmd tid c 12
    else
      match cellOf img dom with
      | .error sub => s.refuseCmd tid c .routine sub
      | .ok p => (clearErr (s.updArr core (fun a => a.loadCell p))).runCmd tid c 12
  | .flow p d =>
    if d then
      match flowOf img p with
      | none => s.refuseCmd tid c .routine 0x03
      | some f => (s.updArr core (fun a => { a with flow := f, h := [] })).runCmd tid c 6
    else (s.updArr core (fun a => { a with flow := ⟨p, []⟩, h := [] })).runCmd tid c 6
  | .rout st =>
    match arr.loadRoutine img st dom with
    | .error sub => s.refuseCmd tid c .routine sub
    | .ok a => (s.updArr core (fun _ => a)).runCmd tid c (2 + ceilDiv (nbits (imgNat img 0 8) 8 9) 2)
  | .tid e f =>
    match arr.loadEntry e (leNat img) f dom with
    | .error sub => s.refuseCmd tid c .tensorId sub
    | .ok _ => s.runCmd tid c 2
  | .dup e hw nd q f =>
    match arr.dupEntry e hw nd q f dom with
    | .error sub => s.refuseCmd tid c .tensorId sub
    | .ok _ => s.runCmd tid c 2
  | .mcode _ => s.runCmd tid c 2
  | .rel _ _ => s.runCmd tid c 2

/-- The end of a command's occupancy: what becomes visible then, and its retirement (R218, R231, R233, R237, R244). -/
def State.endCmd (s : State) (tid : Nat) (c : MatCmd) : State :=
  let core := coreOf tid
  let dom := (s.thread tid).dom
  let img := c.image.getD []
  let keep (a : Array) (r : Except Nat Array) : Array := match r with | .ok b => b | .error _ => a
  let s := match c.op with
    | .rowRead d v f => s.updThread tid (fun t => (t.raiseFlags f).landLocked s.cycle c.id (.v d) v.toNat)
    | .tid e f => s.updArr core (fun a => keep a (a.loadEntry e (leNat img) f dom))
    | .dup e hw nd q f => s.updArr core (fun a => keep a (a.dupEntry e hw nd q f dom))
    | .mcode fixed => s.updArr core (fun a =>
        let levels := if fixed then fixedLevels else (List.range 16).map (fun i => BitVec.ofNat 16 (imgNat img (2 * i) 2))
        let d := if fixed then none else some dom
        { a with code := if a.code.active = 0 then { a.code with bank1 := levels, dom1 := d, flip := true }
                         else { a.code with bank0 := levels, dom0 := d, flip := true } })
    | .rel tiles mask =>
      let set := claimSet tiles mask
      let s := if tiles then s else s.clearSlotErrs core (set.filter (fun i => (s.core core).arr.holdsSlot tid i))
      s.updArr core (fun a => set.foldl (fun a i => a.releaseOne tid tiles i) a)
    | _ => s
  s.updThread tid (fun t => t.retireCmd c)

/-- One engine step for the commands a predicate selects: those whose occupancy ends retire, and the thread's next command starts when its turn
has come. -/
def State.engineStep (s : State) (tid : Nat) (p : MatOp → Bool) : State :=
  let ended := (s.thread tid).mat.queue.filter (fun c => p c.op && (match c.st with | .running u => decide (u ≤ s.cycle) | _ => false))
  let s := ended.foldl (fun s c => s.endCmd tid c) s
  match (s.thread tid).mat.next? with
  | none => s
  | some (c, head) => if p c.op && !c.op.isCall && s.canStart tid c head then s.beginCmd tid c else s

/-- CONFIG_COMMAND_APPLY: MCELL, MFLOW and MROUT (R202). -/
def execConfigCommandApply (tid : Nat) (s : State) : Host.Outcome State Fault Refusal := .next (s.engineStep tid MatOp.isConfig)

/-- TABLE_COMMAND_APPLY: MTID and MDUP (R234). -/
def execTableCommandApply (tid : Nat) (s : State) : Host.Outcome State Fault Refusal := .next (s.engineStep tid MatOp.isTable)

/-- MATRIX_COMMAND_ENGINE_APPLY: the other commands (R220, Table 9-6). -/
def execMatrixCommandEngineApply (tid : Nat) (s : State) : Host.Outcome State Fault Refusal :=
  .next (s.engineStep tid (fun o => !o.isCall && !o.isConfig && !o.isTable))

/-- CODE_TABLE_FLIP: the loaded bank becomes active when every operation that uses the old one has retired (R83). -/
def execCodeTableFlip (core : Nat) (s : State) : Host.Outcome State Fault Refusal :=
  let c := (s.core core).arr.code
  let busy := (s.coreCmds core).any (fun d => match d.2.op with | .call _ _ _ _ _ b => b == c.active | _ => false)
  if c.flip ∧ ¬ busy then .next (s.updArr core (fun a => { a with code := { a.code with active := 1 - a.code.active, flip := false } }))
  else .next s

end Sys2Proof.Machine
end

