-- ==== Sys2Proof/Machine/Traps.lean ====
section
/-! DEFINITION. Traps: TRAP, GATE, the snapshot's image, RFT, and the delivery of asynchronous faults (R246 to R259). -/

namespace Sys2Proof.Machine

open Sys2Proof

/-! ## The snapshot image -/

/-- FILE and IDX of a record (Table 10-1). -/
def Dest.fileIdx : Dest → Option (Nat × Nat)
  | .s r => some (0, r) | .v r => some (1, r) | .g r => some (2, r) | .m r => some (3, r) | .p r => some (4, r) | .q r => some (5, r)
  | _ => Option.none

/-- The destination of a FILE code and a register number. -/
def destOf (file idx : Nat) : Dest :=
  match file with
  | 0 => .s idx | 1 => .v idx | 2 => .g idx | 3 => .m idx | 4 => .p idx | _ => .q idx

/-- PST (Table 10-1). -/
def pstCode : TState → Nat
  | .waiting => 1
  | .retiring => 2
  | _ => 0

/-- The distinct bundles of the records, rising: ORD counts from the earliest. Records of one issue number from several bundles differ by their place
behind it, 8 of `slot` each. -/
def ordRank (rs : List SnapRec) (r : SnapRec) : Nat :=
  let key (x : SnapRec) : Nat × Nat := (x.ord, x.slot / 8)
  ((rs.map key).foldl (fun l x => if l.contains x then l else l ++ [x]) []).countP (fun x => decide (x.1 < r.ord ∨ (x.1 = r.ord ∧ x.2 < r.slot / 8)))

/-- One record of the image: its header and its payload. -/
def recBytes (rs : List SnapRec) (r : SnapRec) : List Byte :=
  match r.dest.fileIdx with
  | none => []
  | some (f, i) =>
    natBytes 8 (f + i * 8 + r.rem % 32 * 256 + r.slot % 8 * 2 ^ 13 + ordRank rs r * 2 ^ 16) ++ natBytes (if f = 1 then 128 else 8) r.val

/-- The stored image of a snapshot (Table 10-1). -/
def Snap.image (sn : Snap) : List Byte :=
  let rs := sn.recs.filter (fun r => r.dest.fileIdx.isSome)
  let body := rs.flatMap (recBytes rs)
  let dw0 := 1 + rs.length * 2 ^ 8 + (64 + body.length) * 2 ^ 16 + b2n sn.retF * 2 ^ 29 + pstCode sn.retSt * 2 ^ 30 + b2n sn.wdone * 2 ^ 32
  let dws := [dw0, sn.cause.toNat, sn.cmdidx.toNat, sn.engine.toNat, sn.estat.toNat, sn.badaddr.toNat, sn.xpc.toNat,
              sn.tid + sn.dom.toNat * 2 ^ 16]
  dws.flatMap (natBytes 8) ++ body

/-- The records of an image's body; `none` where a reserved field is set or a record is cut off (R258). -/
def parseRecs : Nat → List Byte → Option (List SnapRec × Nat)
  | 0, _ => some ([], 0)
  | k + 1, bs =>
    let h := leNat (bs.take 8)
    let n := if h % 8 = 1 then 128 else 8
    if bs.length < 8 + n ∨ 5 < h % 8 ∨ 2 ^ 32 ≤ h then none
    else
      match parseRecs k (bs.drop (8 + n)) with
      | none => none
      | some (rs, len) =>
        some (⟨destOf (h % 8) (nbits h 3 5), leNat ((bs.drop 8).take n), nbits h 8 5, nbits h 13 3, nbits h 16 16⟩ :: rs, 8 + n + len)

/-- What RFT takes from a stored image: the records, PF, PST and WDONE; `none` traps ILLEGAL_OP (R258). An NREC above 63 is refused too, while any REM and any
IDX pass, none of which R258 names: the model's choice (log entry 76). -/
def parseSnap (img : List Byte) : Option (List SnapRec × Bool × Nat × Bool) :=
  let dw (i : Nat) : Nat := leNat ((img.drop (8 * i)).take 8)
  let d := dw 0
  let reserved := 2 ^ 33 ≤ d ∨ nbits d 30 2 = 3 ∨ 2 ^ 22 ≤ dw 7 ∨ nbits (dw 7) 11 5 ≠ 0
  if d % 256 ≠ 1 ∨ reserved ∨ 63 < nbits d 8 8 then none
  else
    match parseRecs (nbits d 8 8) (img.drop 64) with
    | none => none
    | some (rs, len) => if nbits d 16 13 ≠ 64 + len then none else some (rs, d.testBit 29, nbits d 30 2, d.testBit 32)

/-! ## TRAP and GATE -/

/-- TRAP raises SOFTWARE_TRAP: $estat the code, $badaddr NEXT (R256). -/
def execTrap (gd : Guard) (i : BitVec 17) (kw : Option (BitVec 32)) (s : State) : Host.Outcome State Fault Refusal :=
  guarded gd s (fun s => s.raise (trapInfo .softwareTrap 0 (BitVec.ofNat 64 (immU17 i kw)) s.cur.next))

/-- GATE n: when the thread's writes have landed, service n at level F without a trap (R257); a GATE at F is illegal (R255). -/
def execGate (gd : Guard) (i : BitVec 8) (s : State) : Host.Outcome State Fault Refusal :=
  if s.me.atF then .next (s.illegal 0x17 0)
  else guarded gd s (fun s =>
    if s.me.flight.any (fun f => f.ord != s.me.ord) then s.hold
    else
      let s := s.updMe (fun t =>
        { t with ctl := { t.ctl with xpc := s.cur.next, cause := 0, estat := i.setWidth 64, engine := 0, cmdidx := 0, badaddr := 0 },
                 ret := ⟨false, .running⟩, atF := true, wdone := false })
      { s with cur := { s.cur with target := some (BitVec.ofNat 48 (0x4000 + 64 * i.toNat)) } })

/-! ## The snapshot -/

/-- The snapshot the thread in issue holds. -/
def State.mySnap (s : State) : Option Snap := ((s.core (coreOf s.cur.tid)).snap).filter (fun sn => sn.tid == s.cur.tid)

/-- The core's snapshot is free again. -/
def State.dropSnap (s : State) : State := s.updCore (coreOf s.cur.tid) (fun c => { c with snap := none })

/-- SNAPST stores the live snapshot (R251); it is F-only. -/
def execSnapst (gd : Guard) (b : BitVec 5) (o : BitVec 12) (kw : Option (BitVec 32)) (s : State) : Host.Outcome State Fault Refusal :=
  if ¬ s.me.atF then .next (s.privileged 0)
  else guarded gd s (fun s =>
    match s.mySnap with
    | none => s.illegal 0x19 0
    | some sn =>
      let ea := (s.ea b o kw).toNat
      let img := sn.image
      s.padAccess .write 3 64 [(ea, img.length)] (fun s => s.enqueue (.snapst (s.ownPlace ea) img) (ceilDiv img.length 128) []))

/-- SNAPREL releases the snapshot (R252); it is F-only. -/
def execSnaprel (gd : Guard) (s : State) : Host.Outcome State Fault Refusal :=
  if ¬ s.me.atF then .next (s.privileged 0)
  else guarded gd s (fun s => if s.mySnap.isSome then s.dropSnap else s)

/-! ## RFT -/

/-- Records in ORD and SLOT order (R53, R258). -/
def SnapRec.before (a b : SnapRec) : Bool := if a.ord ≠ b.ord then a.ord < b.ord else a.slot < b.slot

/-- The records of traps not yet returned from, each with the issue number of the last bundle before its trap, that restored records are: each of these
takes the first that nothing before it has taken. The restored records with their origins, and the records left. -/
def claimRecs : List (SnapRec × Nat) → List SnapRec → List (SnapRec × Option (SnapRec × Nat)) × List (SnapRec × Nat)
  | held, [] => ([], held)
  | held, r :: rs =>
    let hit (x : SnapRec × Nat) : Bool := x.1.dest == r.dest && x.1.slot % 8 == r.slot % 8 && x.1.val == r.val && x.1.rem == r.rem
    let (known, left) := claimRecs (held.eraseP hit) rs
    ((r, held.find? hit) :: known, left)

/-- Records in the order of their image take issue numbers: those of one ORD the number of a record among them that the thread knows, where it lies after every
number before it, and otherwise the number before them with a place of its own behind it (log entry 32). `o`, `m` and `k`: the ORD, number and place of the record
before. -/
def renumber (num : Nat → Option Nat) : Option Nat → Nat → Nat → List SnapRec → List SnapRec
  | _, _, _, [] => []
  | o, m, k, r :: rs =>
    let (m, k) := if o = some r.ord then (m, k) else match (num r.ord).filter (fun n => decide (m < n)) with | some n => (n, 0) | none => (m, k + 1)
    { r with ord := m, slot := r.slot % 8 + 8 * k } :: renumber num (some r.ord) m k rs

/-- The records are restored, each under its own bundle's issue number, and land in ORD and SLOT order once the thread may issue (R56, R258); an
interlocked result of the handler that has not come gives way to the record of its register. `last` is the issue number of the last bundle before the trap
returned from, which an edited record is of. -/
def Thread.restore (t : Thread) (rs : List SnapRec) (last : Nat) : Thread :=
  let known := (claimRecs t.snapped rs).1
  let num (o : Nat) : Option Nat := known.findSome? (fun x => if x.1.ord = o then x.2.map (fun y => y.1.ord) else none)
  let give (d : Dest) (o : Nat) : Bool := known.any (fun x => x.1.dest == d && decide ((x.2.map Prod.snd).getD last < o))
  { t with parked := t.parked ++ renumber num none 0 0 (stableSort SnapRec.before rs),
           locks := t.locks.map (fun l => if give l.dest l.ord then { l with void := true } else l),
           due := t.due.filter (fun f => !give f.dest f.ord) }

/-- The records that a return leaves held: none after a return to T, but all of them after RFT.n; after a return to F, those not restored. -/
def Thread.unsnap (t : Thread) (rs : List SnapRec) (toF n : Bool) : List (SnapRec × Nat) :=
  if n then t.snapped
  else if toF then (claimRecs t.snapped rs).2
  else []

/-- A participant whose trap stopped lock step is back at T: its input is high, and it waits for the line (R290). -/
def State.backInLine (s : State) : State :=
  let k := coreOf s.cur.tid % 8
  match s.fuseOf s.cur.tid with
  | none => s
  | some f =>
    if s.me.atF ∨ ¬ f.out.contains k then s
    else
      (s.updFuse s.cur.tid (fun f => { f with out := f.out.filter (· != k), high := tset f.high k true })).updMe
        (fun t => if t.st = .running then { t with st := .waiting, wait := some .lockstep } else t)

/-- The return of R258: level, state, the records, the transfer to $xpc, whose bit 0 reads 0 (R34), the halted matrix queue, which goes on by
$estat.RS (R222), and that of the die engine, unless its fault has yet to be delivered. A return to WAITING resumes the wait, at F as at T, unless it is over; one
to F leaves the waits below it registered. -/
def State.returnFrom (s : State) (recs : List SnapRec) (pf : Bool) (st : TState) (wdone n : Bool) : State :=
  let toF := pf && !n
  let s := s.updMe (fun t =>
    let held := t.unsnap recs toF n
    let last := ((if toF then t.traps.head? else t.traps.getLast?)).getD t.ord
    let t := { t.restore (if n then [] else recs) last with snapped := held, traps := if toF then t.traps.drop 1 else [] }
    let goes := decide (st = .waiting) && !wdone && !t.overFor toF
    let keeps := goes || (toF && (decide (st ≠ .waiting) || t.inner != []))
    let t := { t with atF := toF, wdone := toF && wdone, st := if st = .retiring then .retiring else if goes then .waiting else .running,
                      inner := if !toF then [] else if decide (st = .waiting) && !goes then t.inner.drop 1 else t.inner, paused := goes && toF && t.inner != [],
                      wait := if keeps then t.wait else none, xwait := if keeps then t.xwait else none }
    if !n && !t.faults.any (fun f => f.info.engine == 4) then t.resumeMatrix (t.ctl.estat.getLsbD 63) else t)
  let s := if n ∨ s.me.faults.any (fun f => f.info.engine == 6) then s else s.resumeDie s.cur.tid
  s.backInLine.transferTo (s.me.ctl.xpc &&& ~~~1)

/-- The state of a PST code. -/
def pstOf (c : Nat) : TState :=
  match c with
  | 1 => .waiting
  | 2 => .retiring
  | _ => .running

/-- RFT without an image: from the live snapshot, or from the sequencer's return state (R258). -/
def State.rftLive (s : State) (n : Bool) : State :=
  let t := s.me
  match s.mySnap with
  | some sn => s.dropSnap.returnFrom (sn.recs.map (fun r => { r with ord := ordRank sn.recs r })) t.ret.atF t.ret.st (t.wdone || sn.wdone) n
  | none => s.returnFrom [] t.ret.atF t.ret.st t.wdone n

/-- RFT from a stored image, read behind the thread's earlier accesses; corrected errors of it are counted (R166, R258). -/
def State.rftImage (s : State) (ea : Nat) : State :=
  if s.me.memQ.any (fun a => a.ord != s.me.ord) then s.hold
  else
    s.padAccess .read 3 64 [(ea, 64)] (fun s =>
      let len := nbits (s.read (s.ownPlace ea) 8) 16 13
      s.padAccess .read 3 64 [(ea, max 64 len)] (fun s =>
        let s := s.corrected s.cur.tid s.me.dom.toNat [(s.ownPlace ea, max 64 len)]
        match parseSnap (s.bytesAt (s.ownPlace ea) (max 64 len)) with
        | none => s.illegal 0x18 0
        | some (rs, pf, pst, wd) =>
          let s := if s.mySnap.isSome then s.dropSnap else s
          s.returnFrom rs pf (pstOf pst) (wd || s.me.wdone) false))

/-- RFT (R258); it is F-only. -/
def execRft (gd : Guard) (a : BitVec 5) (s : State) : Host.Outcome State Fault Refusal :=
  if ¬ s.me.atF then .next (s.privileged 0)
  else guarded gd s (fun s => if a = 0 then s.rftLive false else s.rftImage (addr48 (s.s a)))

/-- RFT.n enters T without the records, the matrix queue halted as it is (R258); it is F-only. -/
def execRftN (gd : Guard) (s : State) : Host.Outcome State Fault Refusal :=
  if ¬ s.me.atF then .next (s.privileged 0) else guarded gd s (fun s => s.rftLive true)

/-! ## Asynchronous causes and decode checks -/

/-- The oldest pending fault of a thread is delivered when it can be (R246, R249): not while another thread's snapshot masks it, nor while the
thread holds its own; a fault of a command the handler itself issued is a double fault (R253). $xpc is the next bundle, and in RETIRING the bundle
that issued the command (R23). A thread that has stopped takes none (Table 1-6). -/
def State.deliverFault (s : State) (tid : Nat) : State :=
  let th := s.thread tid
  let stopped := (th.stop.map StopReq.landed).getD false
  let can : Bool := match th.st with | .running => !stopped | .waiting => !stopped | .trapped => true | .retiring => true | _ => false
  let xpc (f : AFault) : VAddr := if th.st = .retiring then f.org.pc else th.pc
  if ¬ can then s
  else
    match (s.core (coreOf tid)).snap, th.faults with
    | _, [] => s
    | none, f :: rest =>
      let s := s.setThread tid { th with faults := rest }
      (s.takeTrap tid f.info (xpc f)).updThread tid (fun t => { t with ready := max th.ready (max s.cycle (f.cycle + 6)) })
    | some sn, fs =>
      match fs.find? (fun f => sn.tid == tid && decide (sn.ord < f.org.bundle)) with
      | none => s
      | some f => (s.setThread tid { th with faults := fs.erase f }).takeTrap tid f.info (xpc f)

/-- ASYNC_TRAP: a thread takes the trap of a pending asynchronous fault before its next bundle (R222, R246). -/
def execAsyncTrap (tid : Nat) (s : State) : Host.Outcome State Fault Refusal := .next (s.deliverFault tid)

/-- DECODE_CHECK_TRAP: the decode checks of R49 and R13 refuse the bundle in issue. -/
def execDecodeCheckTrap (cause : Cause) (engine : BitVec 3) (estat : BitVec 64) (s : State) : Host.Outcome State Fault Refusal :=
  .next (s.raise (trapInfo cause engine.toNat estat))

end Sys2Proof.Machine
end

