-- ==== Sys2Proof/Machine/Cluster.lean ====
section
/-! DEFINITION. The cluster: inbound queues and messages, sheaf rings, fused sets and ganged calls (R267 to R293). -/

namespace Sys2Proof.Machine

open Sys2Proof

/-! ## Traps of engine 5 -/

/-- QUEUE_MISUSE and RING_MISUSE with their sub-codes (Tables 12-7 and 12-11). -/
def State.queueMisuse (s : State) (sub : Nat) : State := s.raise (trapInfo .queueMisuse 5 (BitVec.ofNat 64 sub))
def State.ringMisuse (s : State) (sub : Nat) : State := s.raise (trapInfo .ringMisuse 5 (BitVec.ofNat 64 sub))

/-! ## Inbound queues -/

def InQ.empty : InQ := ⟨[], 0⟩
def Core.queue (c : Core) (j : Nat) : InQ := tget .empty c.inq j

/-- An entry is freed: its KIND bits clear, and its credits start back to the sender (R271, R272). -/
def State.freeEntry (s : State) (core j : Nat) (e : QEntry) : State :=
  let q := (s.core core).queue j
  let s := s.updCore core (fun c => { c with inq := tset c.inq j { q with ents := q.ents.filter (fun x => x.place != e.place) } })
  let s := s.updCore (core / 8 * 8 + j) (fun c => { c with back := c.back ++ [⟨s.cycle + 4, core % 8, e.isMsg⟩] })
  let k := queuePlace core j e.place
  s.putByte k (BitVec.ofNat 8 ((s.byteAt k).toNat / 4 * 4))

/-- The bytes of an entry overlap a live range of the core (R168, R271). -/
def Core.entryWaits (c : Core) (e : QEntry) : Bool :=
  let written (i : Nat) : Bool := e.kind != 1 || e.bmask.getLsbD i
  let (a, n) := e.span
  !e.isMsg && c.ranges.any (fun r => (List.range n).any (fun i => written i && decide (r.lo ≤ a + i) && decide (a + i < r.hi)))

/-- The entry of a queue the queue unit is to process next, if it can (R271); an atomic waits for the unit of its bank (R184). -/
def State.nextEntry (s : State) (core j : Nat) : Option QEntry :=
  match ((s.core core).queue j).ents.find? (fun e => e.marked.isNone) with
  | none => none
  | some e =>
    if s.cycle < e.ready ∨ (s.core core).entryWaits e ∨ (e.kind = 2 ∧ s.atoms.contains (unitOf (padPlace core e.addr))) then none else some e

/-- Round robin from the queue after the one served last (R271). -/
def State.turn (s : State) (core : Nat) : Option (Nat × QEntry) :=
  let last := (s.core core).served
  ((List.range 8).map (fun i => (last + 1 + i) % 8)).findSome? (fun j => (s.nextEntry core j).map (fun e => (j, e)))

/-- Bytes of a block under their mask, but those of queue entries (R5); a whole word clears its error state (R166, R271). -/
def State.putMasked (s : State) (place : Nat) (mask : BitVec 128) (data : Nat) : State :=
  (List.range 32).foldl (fun s w =>
    let bits := nbits mask.toNat (4 * w) 4
    let s := if bits = 15 then s.clearEcc (place + 4 * w) 4 else s
    (onesBelow 4 bits).foldl (fun s b => s.softBytes (place + 4 * w + b) [BitVec.ofNat 8 (data / 2 ^ (8 * (4 * w + b)))]) s) s

/-- The answer of an atomic, with its flags, reaches the access that waits for it (R181, R271, Table 12-2). -/
def Access.answered (a : Access) (cycle v : Nat) (f : Fp.Flags) : Access :=
  match a.op with
  | .peerAmo d p n none => { a with op := .peerAmo d p n (some (v, f)), ready := cycle + 7 }
  | .peerVamo d ls op base fl 1 none => { a with op := .peerVamo d ls op base fl 1 (some (v, f)), ready := cycle + 7 }
  | _ => a

/-- The first access of a thread that others wait for has its answer. -/
def Thread.answered (t : Thread) (cycle v : Nat) (f : Fp.Flags) : Thread :=
  let first := (t.memQ.find? (fun a => !a.op.outbound)).map Access.id
  { t with memQ := t.memQ.map (fun a => if first = some a.id then a.answered cycle v f else a) }

/-- An entry acts (R271): a write's bytes, an atomic at its bank with its answer, or a message marked ready. -/
def State.applyEntry (s : State) (core j : Nat) (e : QEntry) : State :=
  let place := padPlace core e.addr
  let s := s.updCore core (fun c => { c with served := j })
  match e.kind with
  | 1 => (s.putMasked place e.bmask e.data).freeEntry core j e
  | 2 =>
    let old := s.read place e.size
    let (v, f) := bankApply e.size e.aop old e.operand e.operand2
    let s := if bankStores e.aop old e.operand then (s.clearEcc place e.size).softBytes place (natBytes e.size v) else s
    let s := { s.updThread e.asker (fun t => t.answered s.cycle old f) with atoms := unitOf place :: s.atoms }
    s.freeEntry core j e
  | _ =>
    let q := (s.core core).queue j
    s.updCore core (fun c => { c with inq := tset c.inq j { q with ents := q.ents.map (fun x =>
      if x.place = e.place then { x with marked := some s.cycle } else x) } })

/-- QUEUE_ENTRY_APPLY (R271). -/
def execQueueEntryApply (core : Nat) (s : State) : Host.Outcome State Fault Refusal :=
  match s.turn core with
  | none => .next s
  | some (j, e) => .next (s.applyEntry core j e)

/-- QUEUE_CREDIT_RETURN: the credits due come back to the sending core (R272). -/
def execQueueCreditReturn (core : Nat) (s : State) : Host.Outcome State Fault Refusal :=
  let give (c : Core) (b : CredBack) : Core :=
    { c with cred := tset c.cred b.target (c.credit b.target + 1),
             mcred := if b.msg then tset c.mcred b.target (c.msgCredit b.target + 1) else c.mcred }
  .next (s.updCore core (fun c =>
    (c.back.filter (fun b => decide (b.at_ ≤ s.cycle))).foldl give { c with back := c.back.filter (fun b => decide (s.cycle < b.at_)) }))

/-! ## Messages -/

/-- MQSEND (R275, R276): the entry is appended behind the core's earlier entries for the target (R273). -/
def execMqsend (gd : Guard) (d a b : BitVec 5) (s : State) : Host.Outcome State Fault Refusal :=
  guarded gd s (fun s =>
    let x := (s.s a).toNat
    let core := coreOf s.cur.tid
    let t := x % 8
    if nbits x 3 5 ≠ 0 ∨ nbits x 13 19 ≠ 0 then s.queueMisuse 0x01
    else if (s.core core).credit t = 0 ∨ (s.core core).msgCredit t = 0 then s.postVar (.g d.toNat) 0
    else
      let tgt := core / 8 * 8 + t
      let n := nbits x 8 5
      let e : QEntry := { QEntry.blank with kind := 3, ln := n, tag := BitVec.ofNat 32 (x / 2 ^ 32), data := (s.v b).toNat % 2 ^ (32 * (n + 1)) }
      let pending := (List.range 4).any (fun k => (s.thread (4 * core + k)).memQ.any (fun m => m.op.sends.contains tgt))
      let s := (s.takeCredits core tgt true).postVar (.g d.toNat) 1
      if pending then s.enqueue (.msg tgt e) 1 [] else s.appendEntry core tgt e)

/-- The message MQRECV takes (R277): of one queue the oldest ready, or of all the one ready first. -/
def Core.message (c : Core) (anyQ : Bool) (j : Nat) : Option (Nat × QEntry) :=
  let first (j : Nat) : Option (Nat × QEntry) := (((c.queue j).ents.filter (fun e => e.isMsg && e.marked.isSome)).head?).map (fun e => (j, e))
  if anyQ then
    ((List.range 8).filterMap first).foldl (fun (m : Option (Nat × QEntry)) p =>
      match m with
      | none => some p
      | some b => if p.2.marked.getD 0 < b.2.marked.getD 0 then some p else m) none
  else first j

/-- MQRECV (R277). -/
def execMqrecv (gd : Guard) (d a : BitVec 5) (x : BitVec 1) (k : BitVec 3) (s : State) : Host.Outcome State Fault Refusal :=
  guarded gd s (fun s =>
    let sel := (s.s a).toNat
    let core := coreOf s.cur.tid
    if 8 ≤ sel then s.queueMisuse 0x01
    else
      match (s.core core).message (x == 1) (sel % 8) with
      | none => s.postVar (.g k.toNat) 0
      | some (j, e) =>
        let head := e.tag.toNat * 2 ^ 32 + e.seq * 2 ^ 16 + e.ln * 8 + e.src
        (((s.freeEntry core j e).postVar (.v d.toNat) e.data).postVar (.s a.toNat) head).postVar (.g k.toNat) 1)

/-- MQSTAT (R278, Table 12-4). -/
def execMqstat (gd : Guard) (d a : BitVec 5) (s : State) : Host.Outcome State Fault Refusal :=
  guarded gd s (fun s =>
    let sel := (s.s a).toNat
    let j := sel % 8
    let c := s.core (coreOf s.cur.tid)
    if 16 ≤ sel then s.queueMisuse 0x01
    else if sel.testBit 3 then s.postVar (.s d.toNat) (c.credit j + c.msgCredit j * 32)
    else
      let q := c.queue j
      let tail := q.tail % 65536
      let head := ((q.ents.head?).map QEntry.seq).getD tail
      let msgs := (q.ents.filter (fun e => e.isMsg && e.marked.isSome)).length
      s.postVar (.s d.toNat) (tail + head * 2 ^ 16 + q.ents.length * 2 ^ 32 + msgs * 2 ^ 37))

/-! ## Sheaf rings -/

/-- A ring of Table 12-5 at reset, and a slot. -/
def Ring.free : Ring := ⟨0, 0, 0, 0, 0, 0, 0, 0, 0, []⟩
def RingSlot.free : RingSlot := ⟨0, 0, 0⟩
def Ring.slot (r : Ring) (i : Nat) : RingSlot := tget .free r.slots i
def Ring.slotBytes (r : Ring) : Nat := 128 * 2 ^ r.sz
def Ring.held (r : Ring) : Bool := (List.range 16).any (fun i => (r.slot i).ms != 0)

def State.ring (s : State) (clu i : Nat) : Ring := tget .free (s.cluster clu).rings i
def State.setRing (s : State) (clu i : Nat) (r : Ring) : State := s.updCluster clu (fun c => { c with rings := tset c.rings i r })

/-- The ring key of a push: its ring, and its push within the ring's openings. -/
def ringKey (clu ring opens ps : Nat) : Nat × Nat := (clu * 8 + ring, opens * 2 ^ 32 + ps)

/-- RPUSH.open's descriptor breaks Table 12-7, 0x02. -/
def badRing (x core : Nat) : Bool :=
  let base := nbits x 0 20
  let sz := nbits x 20 3
  let ns := nbits x 24 5
  let cm := nbits x 32 8
  nbits x 23 1 != 0 || nbits x 29 3 != 0 || nbits x 40 24 != 0 || decide (6 < sz) || ns == 0 || decide (16 < ns) || base % 128 != 0 ||
    decide (0xF6000 < base + ns * (128 * 2 ^ sz)) || cm == 0 || cm.testBit (core % 8)

/-- RPUSH.open (R282). -/
def execRpushOpen (gd : Guard) (d a b : BitVec 5) (s : State) : Host.Outcome State Fault Refusal :=
  guarded gd s (fun s =>
    let sel := (s.s a).toNat
    let x := (s.s b).toNat
    let core := coreOf s.cur.tid
    let clu := clusterOf s.cur.tid
    let r := s.ring clu (sel % 8)
    if 8 ≤ sel then s.ringMisuse 0x01
    else if badRing x core then s.ringMisuse 0x02
    else if r.st = 1 ∨ (r.st = 2 ∧ r.held) then s.postVar (.g d.toNat) 0
    else
      (s.setRing clu (sel % 8)
        { st := 1, owner := s.cur.tid, pcore := core % 8, base := nbits x 0 20, sz := nbits x 20 3, ns := nbits x 24 5,
          cm := BitVec.ofNat 8 (nbits x 32 8), pushes := 0, opens := r.opens + 1, slots := [] }).postVar (.g d.toNat) 1)

/-- RPUSH (R282): the source is read behind the thread's earlier accesses, and the deliveries follow. -/
def execRpush (gd : Guard) (d a b : BitVec 5) (s : State) : Host.Outcome State Fault Refusal :=
  guarded gd s (fun s =>
    let x := (s.s a).toNat
    let src := (s.s b).toNat
    let clu := clusterOf s.cur.tid
    let k := x % 8
    let r := s.ring clu k
    let m := nbits x 8 8
    let n := nbits x 16 20
    if nbits x 3 5 ≠ 0 ∨ nbits x 36 28 ≠ 0 then s.ringMisuse 0x01
    else if r.st ≠ 1 ∨ r.owner ≠ s.cur.tid then s.ringMisuse 0x03
    else if m = 0 ∨ BitVec.ofNat 8 m &&& ~~~r.cm ≠ 0 ∨ n = 0 ∨ n % 128 ≠ 0 ∨ r.slotBytes < n ∨ src % 128 ≠ 0 ∨ 0xF6000 < src + n then s.ringMisuse 0x04
    else
      let i := r.pushes % r.ns
      if (r.slot i).ms ≠ 0 then s.postVar (.g d.toNat) 0
      else
        s.padAccess .read 5 128 [(src, n)] (fun s =>
          let s := s.setRing clu k { r with pushes := (r.pushes + 1) % 2 ^ 32, slots := tset r.slots i ⟨BitVec.ofNat 8 m, 0, r.pushes⟩ }
          (s.enqueue (.rpush k i (s.ownPlace src) n (r.base + i * r.slotBytes) m s.me.rel) 1 []).postVar (.g d.toNat) 1))

/-- RPUSH.close (R282): a delivery in flight, or a push whose source is not yet read, keeps the ring open. -/
def execRpushClose (gd : Guard) (d a : BitVec 5) (s : State) : Host.Outcome State Fault Refusal :=
  guarded gd s (fun s =>
    let sel := (s.s a).toNat
    let clu := clusterOf s.cur.tid
    let k := sel % 8
    let r := s.ring clu k
    let reading := s.me.memQ.any (fun x => match x.op with | .rpush j _ _ _ _ _ _ => j == k | _ => false)
    if 8 ≤ sel then s.ringMisuse 0x01
    else if r.st ≠ 1 ∨ r.owner ≠ s.cur.tid then s.ringMisuse 0x03
    else if r.held ∨ reading ∨ (s.cluster clu).deliveries.any (fun x => x.ring == k) then s.postVar (.g d.toNat) 0
    else (s.setRing clu k { r with st := 0 }).postVar (.g d.toNat) 1)

/-- The current slot of a core: the lowest PS among the slots whose MS has its bit (R283). -/
def Ring.current (r : Ring) (core : Nat) : Option Nat :=
  ((List.range r.ns).filter (fun i => (r.slot i).ms.getLsbD core)).foldl (fun m i =>
    match m with
    | none => some i
    | some j => if (r.slot i).ps < (r.slot j).ps then some i else m) none

/-- The status word of Table 12-8, and the slot when STATE = 1. -/
def Ring.status (r : Ring) (core : Nat) : Nat × Option Nat :=
  if r.st = 0 then (3 * 2 ^ 32, none)
  else
    match r.current core with
    | none => (if r.st = 2 then 2 * 2 ^ 32 else 0, none)
    | some i =>
      if (r.slot i).land.getLsbD core then (r.base + i * r.slotBytes + i * 2 ^ 20 + 2 ^ 32, some i) else (i * 2 ^ 20, none)

/-- RSTAT and RPOP (R283, R285): READY is remembered for the thread, and a pop clears the core's bit and comes, with the
accesses before it, before the slot's later deliveries. -/
def State.ringStatus (s : State) (d a : BitVec 5) (k : BitVec 3) (pop : Bool) : State :=
  let sel := (s.s a).toNat
  let clu := clusterOf s.cur.tid
  let core := coreOf s.cur.tid % 8
  let r := s.ring clu (sel % 8)
  if 8 ≤ sel then s.ringMisuse 0x01
  else if r.st ≠ 0 ∧ ¬ r.cm.getLsbD core then s.ringMisuse 0x05
  else
    let (w, ready) := r.status core
    let s := match ready with
      | none => s
      | some i =>
        let sl := r.slot i
        let key := ringKey clu (sel % 8) r.opens sl.ps
        let s := s.updMe (fun t => if t.seen.contains key then t else { t with seen := key :: t.seen })
        if pop then
          (s.setRing clu (sel % 8) { r with slots := tset r.slots i { sl with ms := sl.ms &&& ~~~(BitVec.ofNat 8 (2 ^ core)) } }).tagPop
            (coreOf s.cur.tid) (s.ownPlace (r.base + i * r.slotBytes)) r.slotBytes ⟨key.1, key.2, r.ns, 0, 0⟩
        else s
    (s.postVar (.s d.toNat) w).postVar (.g k.toNat) (b2n ready.isSome)

/-- RPOP (R283). -/
def execRpop (gd : Guard) (d a : BitVec 5) (k : BitVec 3) (s : State) : Host.Outcome State Fault Refusal :=
  guarded gd s (fun s => s.ringStatus d a k true)

/-- RSTAT (R283). -/
def execRstat (gd : Guard) (d a : BitVec 5) (k : BitVec 3) (s : State) : Host.Outcome State Fault Refusal :=
  guarded gd s (fun s => s.ringStatus d a k false)

/-- The owner number of a delivery's range entry. -/
def ringOwner (ring slot : Nat) : Nat := 2 ^ 32 + ring * 16 + slot

/-- A delivery's last byte lands (R282, R285): its bytes, its record as a write of the producer, its range released, LAND set. -/
def State.landDelivery (s : State) (clu : Nat) (x : Delivery) : State :=
  let core := clu * 8 + x.core
  let place := padPlace core x.dst
  let r := s.ring clu x.ring
  let sl := r.slot x.slot
  let s := (s.clearEcc place x.bytes.length).putBytes place x.bytes
  let key := ringKey clu x.ring r.opens sl.ps
  let s := (piecesOf place x.bytes.length).foldl (fun s p => s.tagRecord x.producer 0 x.rel (some key) 2 p.1 p.2 false true false) s
  let s := s.updCore core (fun c => { c with ranges := c.ranges.filter (fun e => e.owner != ringOwner x.ring x.slot) })
  s.setRing clu x.ring { r with slots := tset r.slots x.slot { sl with land := sl.land ||| BitVec.ofNat 8 (2 ^ x.core) } }

/-- An access of the consumer core to the bytes of a delivery has issued and not performed: the delivery comes after it (R285). -/
def State.slotInUse (s : State) (core : Nat) (x : Delivery) : Bool :=
  let lo := padPlace core x.dst
  (List.range 4).any (fun k => (s.thread (4 * core + k)).memQ.any (fun a => a.op.touches.any (fun t =>
    decide (t.1 < lo + x.bytes.length) && decide (lo < t.1 + t.2.1))))

/-- RING_DELIVERY_LAND: delivery k of a cluster takes its range entry once the accesses before it have performed, and lands when its bytes have moved,
128 a cycle (R282, R285). -/
def execRingDeliveryLand (clu k : Nat) (s : State) : Host.Outcome State Fault Refusal :=
  match (s.cluster clu).deliveries[k]? with
  | none => .next s
  | some x =>
    match x.lands with
    | none =>
      let core := clu * 8 + x.core
      if 32 ≤ (s.core core).ranges.length ∨ s.slotInUse core x then .next s
      else
        let s := s.updCore core (fun c => { c with ranges := c.ranges ++ [rangeEnt x.dst (x.dst + x.bytes.length) (ringOwner x.ring x.slot)] })
        .next (s.updCluster clu (fun c =>
          { c with deliveries := setNth c.deliveries k { x with lands := some (s.cycle + x.bytes.length / 128) } }))
    | some u =>
      if s.cycle < u then .next s
      else .next ((s.updCluster clu (fun c => { c with deliveries := delNth c.deliveries k })).landDelivery clu x)

/-! ## Fusing -/

/-- FUSE (R286, R287): the checks of Table 12-11, then the set of the range, joined or begun. -/
def State.fuse (s : State) (f n : Nat) : State :=
  let k := coreOf s.cur.tid % 8
  let clu := clusterOf s.cur.tid
  let sets := (s.cluster clu).sets
  if k < f ∨ f + n ≤ k then s.queueMisuse 0x10
  else if sets.any (fun x => x.parts.any (fun p => p.1 == k)) then s.queueMisuse 0x11
  else if sets.any (fun x => decide ((x.f ≠ f ∨ x.n ≠ n) ∧ x.f < f + n ∧ f < x.f + x.n)) then s.queueMisuse 0x12
  else
    let join (x : FuseSet) : FuseSet :=
      let parts := tset x.parts k s.cur.tid
      { x with parts := parts, formed := x.formed || parts.length == n, solo := if x.lock then k :: x.solo else x.solo }
    if sets.any (fun x => x.f == f) then
      s.updCluster clu (fun c => { c with sets := c.sets.map (fun x => if x.f = f then join x else x) })
    else s.updCluster clu (fun c => { c with sets := c.sets ++ [join ⟨f, n, [], false, false, [], 0, [], [], 0⟩] })

def execFuse (gd : Guard) (k : BitVec 4) (f : BitVec 3) (s : State) : Host.Outcome State Fault Refusal :=
  guarded gd s (fun s => s.fuse f.toNat k.toNat)

/-- DECOUPLE (R291). -/
def execDecouple (gd : Guard) (s : State) : Host.Outcome State Fault Refusal :=
  guarded gd s (fun s => if (s.fuseOf s.cur.tid).isNone then s.queueMisuse 0x13 else s.fuseLeave s.cur.tid)

/-- REJOIN raises the participant's input and waits for the line (R288); of a participant that is not in lock step, lock step of the others goes on. -/
def execRejoin (gd : Guard) (d : BitVec 5) (s : State) : Host.Outcome State Fault Refusal :=
  guarded gd s (fun s =>
    if (s.fuseOf s.cur.tid).isNone then s.queueMisuse 0x13
    else
      let k := coreOf s.cur.tid % 8
      (s.updFuse s.cur.tid (fun x => { x with lock := x.lock && x.solo.contains k, high := tset x.high k true })).waitFor (.rejoin d.toNat))

/-- The fuse status (Table 12-12). -/
def FuseSet.status (f : FuseSet) : Nat :=
  f.pf.toNat + (f.parts.map (fun p => 2 ^ p.1)).foldl (· + ·) 0 * 2 ^ 8 + ((f.parts.head?.map Prod.fst).getD 0) * 2 ^ 16

/-- A participant at the line: its input is high, and it is back from any handler. -/
def State.atLine (s : State) (f : FuseSet) (p : Nat × Nat) : Bool :=
  let th := s.thread p.2
  tget false f.high p.1 && !f.out.contains p.1 &&
    (match th.st, th.nowWait with
     | .waiting, some w => w.isLine
     | .trapped, some w => th.paused && w.isLine
     | .running, _ => true
     | _, _ => false)

/-- The wired-AND line of a set passes in the first cycle in which every input is high (R288, R290): an explicit REJOIN writes its status and
clears PF, every participant takes the leader's program counter and loops, and lock step runs. -/
def State.lineTest (s : State) (clu : Nat) (f : FuseSet) : State :=
  if ¬ f.formed ∨ f.lock ∨ s.cycle < f.retest ∨ ¬ f.parts.all (s.atLine f) then s
  else
    match f.parts.head? with
    | none => s
    | some (_, leader) =>
      let lead := s.thread leader
      let asked (t : Thread) : Option Nat := match t.st, t.nowWait with | .waiting, some (.rejoin d) => some d | .trapped, some (.rejoin d) => if t.paused then some d else none | _, _ => none
      let explicit := f.parts.any (fun p => (asked (s.thread p.2)).isSome)
      let pass (s : State) (p : Nat × Nat) : State :=
        let th := s.thread p.2
        let th := match asked th with | some d => th.landLocked s.cycle th.nextId (.s d) f.status | none => th
        let th := { th with pc := lead.pc, loops := lead.loops }
        let s := s.setThread p.2 th
        if th.st = .waiting ∨ th.paused then s.wakeIf p.2 (fun w => some w == th.nowWait) else s
      let s := f.parts.foldl pass s
      s.updCluster clu (fun c => { c with sets := c.sets.map (fun x =>
        if x.f = f.f then { x with lock := true, solo := [], high := [], pf := if explicit then 0 else x.pf } else x) })

/-! ## Partner faults -/

/-- The tile steps of a run completed before this cycle (R293). -/
def State.stepsDone (s : State) (r : Run) : Nat := r.first + (r.ends.filter (fun e => decide (e < s.cycle))).length

/-- One participant is told that its partner's core has halted (R293). -/
def State.tellPartner (s : State) (lost tid : Nat) : State :=
  let th := s.thread tid
  let cmd := th.mat.queue.find? (fun c => c.gang.isSome && (match c.st with | .done => false | _ => true))
  let o : Origin := ⟨tid, th.born, th.pc, th.ord⟩
  let plain (s : State) : State :=
    s.postFault o (trapInfo .gangPartner 4 (matStatus 0 0 0 5 0 false) (BitVec.ofNat 48 lost))
  match cmd with
  | none => plain s
  | some c =>
    match c.st, c.op with
    | .failed _, _ => plain s
    | .running _, .call rt p g _ _ _ =>
      match (s.core (coreOf tid)).arr.runs.find? (fun r => r.tid == tid && r.cmd == c.num), s.planCall tid rt p g with
      | some r, .ok _ => s.stopRun tid r (.partner (s.stepsDone r) (BitVec.ofNat 3 lost))
      | some r, .error _ => (s.updArr (coreOf tid) (fun a => a.dropRun r)).failCmd tid c (stopInfo (.partner 0 (BitVec.ofNat 3 lost)) 0 rt) 0
      | none, _ => plain s
    | .restart n, .call rt p g _ _ _ =>
      let word := match s.planCall tid rt p g with | .ok (steps, _, _) => stepWord steps n | .error _ => 0
      s.failCmd tid c (stopInfo (.partner n (BitVec.ofNat 3 lost)) word rt) n
    | _, .call rt _ _ _ _ _ => s.failCmd tid c (stopInfo (.partner 0 (BitVec.ofNat 3 lost)) 0 rt) 0
    | _, _ => plain s

/-- The participants of the sets a core has left by its halt are told (R293). -/
def State.tellLost (s : State) (clu : Nat) : State :=
  let lost := (s.cluster clu).lost
  if lost = [] then s
  else
    lost.foldl (fun s l => l.2.foldl (fun s t => s.tellPartner l.1 t) s) (s.updCluster clu (fun c => { c with lost := [] }))

/-- The sets of a cluster at the end of a cycle: partners told, and lines tested. -/
def State.clusterEnd (s : State) (clu : Nat) : State :=
  let s := s.tellLost clu
  (s.cluster clu).sets.foldl (fun s f => s.lineTest clu f) s

end Sys2Proof.Machine
end

