-- ==== Sys2Proof/Machine/Engine.lean ====
section
/-! DEFINITION. What the die engine and the copy engine share: memory as engine 6 reaches it, what an AWAIT finds, the energy account, task records
and join counters (R302, R324 to R327, R332, R333, R350 to R354, R383 to R387). -/

namespace Sys2Proof.Machine

open Sys2Proof

/-! ## Memory as engine 6 reaches it -/

/-- Where a byte of die memory or HBM lies for a domain's access by an engine of a die, or the sub-code and level that refuse it (Table 14-3);
at the rights of F the ownership table does not apply. -/
def State.engPlace (s : State) (die : Nat) (got : List PageWalk) (dom : BitVec 6) (atF : Bool) (ks : List AccKind) (va : Nat) : Except (Nat × Nat) Place :=
  match regionOf (1024 * die) va with
  | .die d off same => if ¬ atF ∧ ks.any (fun k => s.ownDenies d off dom k) then .error (0x14, 0) else .ok ⟨diePlace d off, .die same, true, 0⟩
  | .hbm =>
    match s.dieLeaf die got dom va with
    | .fault sub level => .error (sub, level)
    | .leaf l level =>
      match ks.findSome? l.denies with
      | some sub => .error (sub, level)
      | none => .ok ⟨l.pa + (va - l.va), .hbm, l.chk, l.key.toNat⟩
  | _ => .error (0x13, 0)

/-- A byte range cut at 64 KiB, the smallest page and the size of a block. -/
def pagesOf (va : Nat) : Nat → Nat → List (Nat × Nat)
  | 0, _ => []
  | fuel + 1, n =>
    if n = 0 then []
    else
      let k := min n (65536 - va % 65536)
      (va, k) :: pagesOf (va + k) fuel (n - k)

def pageCuts (va n : Nat) : List (Nat × Nat) := pagesOf va (n / 65536 + 2) n

/-- The first byte of a range that is refused: its address, sub-code and level. -/
def State.engFault (s : State) (die : Nat) (got : List PageWalk) (dom : BitVec 6) (atF : Bool) (ks : List AccKind) (va n : Nat) : Option (Nat × Nat × Nat) :=
  (pageCuts va n).findSome? (fun p =>
    if 2 ^ 48 ≤ p.1 then some (p.1, 0x13, 0)
    else
      match s.engPlace die got dom atF ks p.1 with
      | .error (sub, level) => some (p.1, sub, level)
      | .ok _ => none)

/-- Bytes of a range that is not refused. -/
def State.engRead (s : State) (die : Nat) (got : List PageWalk) (dom : BitVec 6) (va n : Nat) : List Byte :=
  (pageCuts va n).flatMap (fun p =>
    match s.engPlace die got dom true [] p.1 with
    | .ok pl => s.placeBytes pl p.2
    | .error _ => List.replicate p.2 0)

/-- Bytes stored over a range that is not refused. -/
def State.engWrite (s : State) (die : Nat) (got : List PageWalk) (dom : BitVec 6) (va : Nat) (bs : List Byte) : State :=
  (pageCuts va bs.length).foldl (fun s p =>
    match s.engPlace die got dom true [] p.1 with
    | .ok pl => s.putPlace pl ((bs.drop (p.1 - va)).take p.2)
    | .error _ => s) s

/-- The first word with an uncorrectable error in a range: its address. -/
def State.engBad (s : State) (die : Nat) (got : List PageWalk) (dom : BitVec 6) (va n : Nat) : Option Nat :=
  (pageCuts va n).findSome? (fun p =>
    match s.engPlace die got dom true [] p.1 with
    | .ok pl => (s.badWord pl.key p.2).map (fun w => p.1 + (w - pl.key))
    | .error _ => none)

/-- The cause and $estat of a sub-code of Table 14-3 for engine 6. -/
def engInfo (sub level : Nat) (wr : Bool) (va : Nat) : TrapInfo := mapFault sub level (if wr then .write else .read) 6 va

/-- Bytes of die memory or HBM have been read at their homes for a thread or task: corrected errors among them are counted, and the first uncorrectable one is
detected (R305, R388). -/
def State.noteRead (s : State) (tid : Nat) (dom : BitVec 6) (key n : Nat) : State :=
  let s := s.corrected tid dom.toNat [(key, n)]
  match s.badWord key n with
  | some w => s.memError 0x0101 w tid dom.toNat
  | none => s

/-- The same of bytes by their addresses. -/
def State.noteEng (s : State) (die : Nat) (got : List PageWalk) (dom : BitVec 6) (tid va n : Nat) : State :=
  if s.ecc = [] then s
  else (pageCuts va n).foldl (fun s p =>
    match s.engPlace die got dom true [] p.1 with
    | .ok pl => s.noteRead tid dom pl.key p.2
    | .error _ => s) s

/-! ## Objects in die shared memory -/

/-- The place of an object an instruction of this engine names, or the precise trap: alignment, the map, ownership (R107, R329, R352); AWAIT reads it,
and the others update it. -/
def State.dieObject (s : State) (k : AccKind) (align : Nat) (va : Nat) : Except TrapInfo Nat :=
  if va % align ≠ 0 then .error (trapInfo .misaligned 6 0 (BitVec.ofNat 48 va))
  else
    match regionOf s.cur.tid va with
    | .die d off _ =>
      if ¬ s.me.atF ∧ s.ownDenies d off s.me.dom k then .error (mapFault 0x14 0 k 6 va) else .ok (diePlace d off)
    | _ => .error (mapFault 0x13 0 k 6 va)

/-- Cycles until an object's bank answers (Table 14-4). -/
def bankDelay (die key : Nat) : Nat := if placeDie key = die then 30 else 90

/-- The record COPY_FAULT gives (R353). -/
def copyFaultInfo (addr sub ent done : Nat) : TrapInfo :=
  trapInfo .copyFault 6 (BitVec.ofNat 64 (sub + ent * 2 ^ 8 + done * 2 ^ 20)) (BitVec.ofNat 48 addr)

/-- What an AWAIT finds at its object on a die (R107, R305, R353): an uncorrectable error, a flag's fault, or whether the phase has passed. -/
def State.objPoll (s : State) (die key : Nat) (v : BitVec 16) : Except TrapInfo Bool :=
  let faddr := s.dwField key 2 0 48
  if (s.badWord key 16).isSome then .error (trapInfo .uncorrectableMemory 6 0 (BitVec.ofNat 48 (placeVa die ((s.badWord key 16).getD key))))
  else if s.dwField key 1 32 1 = 1 then .error (copyFaultInfo faddr (s.dwField key 3 0 8) (s.dwField key 3 8 12) (s.dwField key 3 20 32))
  else if s.dwField key 1 33 1 = 1 then .error (trapInfo .counterUnderflow 6 0 (BitVec.ofNat 48 faddr))
  else
    let d := (s.dwField key 0 48 16 + 65536 - v.toNat) % 65536
    .ok (decide (1 ≤ d ∧ d ≤ 32767))

/-! ## The energy account -/

def Energy.resvOf (e : Energy) (d : Nat) : Nat := tget 0 e.resv d

/-- HELD: the sum of the holds of running tasks (Table 18-3). -/
def State.held (s : State) : Nat := (List.range 2).foldl (fun a d => (s.die d).running.foldl (fun a r => a + if r.killed then 0 else r.hold) a) 0

/-- AVAIL (R385). -/
def State.avail (s : State) : Int :=
  s.hub.energy.bal - s.held - (s.hub.energy.resv.foldl (fun a r => a + r.2) 0 : Nat)

/-- The admission of a task of a domain with estimate E (R385): the reservation it uses, or none. -/
def State.admission (s : State) (dom : BitVec 6) (e : Nat) : Option Nat :=
  let use := min e (s.hub.energy.resvOf dom.toNat)
  let need := e - use
  if need = 0 ∨ (min need (s.hub.energy.carry + s.hub.energy.g) : Int) ≤ s.avail then some use else none

/-! ## Task records (Table 15-1) -/

/-- STATE of a record (Table 15-2). -/
def State.recState (s : State) (r : Nat) : Nat := s.dwField r 2 48 4
def State.setRecState (s : State) (r st : Nat) : State := s.setDw r 2 48 4 st
/-- JOIN, as an int32. -/
def State.recJoin (s : State) (r : Nat) : Int := sval 32 (s.dwField r 2 0 32)
def State.setRecJoin (s : State) (r : Nat) (j : Int) : State := s.setDw r 2 0 32 (wrapN 32 j)

/-- The scheduler's access to a record obeys the ownership table with the domain of the task (R299, R324). -/
def State.recOwned (s : State) (dom : BitVec 6) (r : Nat) : Bool := !s.ownDenies (placeDie r) ((r - 2 ^ 40) % 2 ^ 26) dom .atomic

/-- A field of a record as the scheduler reads it: 0 where the domain of the task may not reach the record, or its doubleword holds an uncorrectable error
(log entry 69). -/
def State.recField (s : State) (dom : BitVec 6) (r i lo n : Nat) : Nat :=
  if s.recOwned dom r ∧ (s.badWord (r + 8 * i) 8).isNone then s.dwField r i lo n else 0

/-- The scheduler writes a record, where its domain may (log entry 69). -/
def State.onRecord (s : State) (dom : BitVec 6) (r : Nat) (f : State → State) : State := if s.recOwned dom r then f s else s

/-- The record an address names for the tasks of a die, if it is one their domain may reach (R324). -/
def State.recordAt (s : State) (die : Nat) (dom : BitVec 6) (va : Int) : Option Nat :=
  match regionOf (1024 * die) va.toNat with
  | .die d off _ => if va < 0 ∨ s.ownDenies d off dom .atomic then none else some (diePlace d off)
  | _ => none

/-- The reserved fields of a record. -/
def State.recReserved (s : State) (r : Nat) : Bool :=
  s.dwField r 0 48 16 != 0 || s.dwField r 2 38 2 != 0 || s.dwField r 2 47 1 != 0 || s.dwField r 2 52 12 != 0 || s.dwField r 4 48 16 != 0 ||
    s.dwField r 5 33 31 != 0 || s.dwField r 6 60 4 != 0 || [8, 9, 10, 11].any (fun i => s.dwField r i 60 4 != 0) ||
    s.dwField r 12 11 5 != 0 || s.dwField r 12 22 42 != 0 || s.dwField r 13 42 22 != 0 || s.dwField r 14 48 16 != 0

/-- The declared ranges with RLEN ≠ 0. -/
def State.recRanges (s : State) (r : Nat) : List DepRange :=
  ([8, 9, 10, 11].map (fun i => (⟨s.dwField r i 0 42, s.dwField r i 42 16, s.dwField r i 58 1 == 1, s.dwField r i 59 1 == 1⟩ : DepRange))).filter
    (fun d => d.len != 0)

/-- What placement may use (R337): dies, clusters and core indices by bit, the domain, SPREAD, ONECLU, EXCL and the threads. -/
structure Affinity where
  dies : Nat
  clus : Nat
  cores : Nat
  dom : BitVec 6
  spread : Bool
  oneclu : Bool
  excl : Bool
  nthr : Nat
  deriving DecidableEq, Repr

/-- The affinity fields of a record submitted on a die. -/
def State.recAffinity (s : State) (r die : Nat) (dom : BitVec 6) : Affinity :=
  let or (x full : Nat) : Nat := if x = 0 then full else x
  { dies := or (s.dwField r 13 0 2) (2 ^ die), clus := or (s.dwField r 13 2 32) (2 ^ 32 - 1), cores := or (s.dwField r 13 34 8) 255, dom := dom,
    spread := s.dwField r 12 10 1 == 1, oneclu := s.dwField r 12 9 1 == 1, excl := s.dwField r 12 8 1 == 1, nthr := s.dwField r 2 40 7 }

/-- The cores an affinity allows on a die, rising (R268, R337). -/
def State.allowedCores (s : State) (a : Affinity) (die : Nat) : List Nat :=
  if ¬ a.dies.testBit die then []
  else
    ((List.range 32).filter (fun c => a.clus.testBit c && (s.cluster (32 * die + c)).dom == a.dom)).flatMap (fun c =>
      ((List.range 8).filter (fun k => a.cores.testBit k)).map (fun k => 8 * (32 * die + c) + k))

/-- The checks of Table 15-4 in their order: the first failing sub-code (R329, R334). -/
def State.recCheck (s : State) (r die : Nat) (dom : BitVec 6) (drain od : Bool) : Option Nat :=
  let nthr := s.dwField r 2 40 7
  let st := s.recState r
  let a := s.recAffinity r die dom
  let n := (s.allowedCores a 0 ++ s.allowedCores a 1).length
  if s.recReserved r then some 0x01
  else if nthr = 0 ∨ 64 < nthr then some 0x02
  else if (if drain then st ≠ 6 else st ≠ 0 ∧ st ≠ 5) then some 0x03
  else if s.recJoin r < 0 then some 0x04
  else if (s.recRanges r).any (fun d => (!d.r && !d.w) || decide (2 ^ 42 < d.lo + d.len)) then some 0x05
  else if s.dwField r 5 32 1 = 1 ∧ (s.dwField r 4 24 24 ≤ s.dwField r 4 0 24 ∨ s.dwField r 5 0 32 = 0) then some 0x06
  else if s.dwField r 6 48 12 ≠ 0 ∧ s.dwField r 6 0 48 % 64 ≠ 0 then some 0x07
  else if n = 0 ∨ (a.spread ∧ n < nthr) then some 0x08
  else if od ∧ (List.range 256).all (fun k => !(s.core (256 * die + k)).inService) then some 0x09
  else none

/-- The LAUNCH trap of a failing record. -/
def launchInfo (va sub : Nat) : TrapInfo := trapInfo .launch 6 (BitVec.ofNat 64 sub) (BitVec.ofNat 48 va)

/-! ## Ready queues (R327) -/

/-- A task enters the queue of its PRIO, or waits for room in it, 65,536 tasks long; SEQ is written to its record. -/
def State.enqueueReady (s : State) (die : Nat) (t : ReadyTask) : State :=
  let full := decide (65536 ≤ ((s.die die).ready.filter (fun x => x.prio == t.prio)).length) || (s.die die).overflow.any (fun x => x.prio == t.prio)
  if full then s.updDie die (fun d => { d with overflow := d.overflow ++ [t] }) else s.updDie die (fun d => { d with ready := d.ready ++ [t] })

/-- A record becomes READY with a new SEQ, written to it where its domain may (R324, R325, R327). -/
def State.becomeReady (s : State) (die r : Nat) (dom : BitVec 6) (ranges : List DepRange) : State :=
  let seq := (s.die die).seq
  let s := (s.updDie die (fun d => { d with seq := seq + 1 })).onRecord dom r (fun s => (s.setDw r 15 0 64 seq).setRecState r 2)
  s.enqueueReady die ⟨r, dom, s.dwField r 2 32 4, seq, s.cycle, 0, none, .fresh, ranges⟩

/-! ## The ends of commands -/

/-- A command is done: it leaves the engine. -/
def State.dropCmd (s : State) (die : Nat) (c : DieCmd) : State :=
  s.updDie die (fun d => { d with cmds := d.cmds.filter (fun x => !(x.org.tid == c.org.tid && x.id == c.id)) })

/-- Interlocks of a command are released, and its wait ends. -/
def State.endX (s : State) (c : DieCmd) : State :=
  let s := s.updThread c.org.tid (fun t => t.unlock c.id)
  let th := s.thread c.org.tid
  if th.xwait = some c.id ∨ th.inner.any (fun p => p.xwait == some c.id) then s.wakeX c.org.tid c.id else s

/-- A command fails (R246): its thread's queue on the engine halts with it at the head, and the fault is reported; without a thread to hear it, it is gone. -/
def State.failDie (s : State) (die : Nat) (c : DieCmd) (i : TrapInfo) : State :=
  if s.hears c.org then
    let stop (x : DieCmd) : DieCmd := if x.org.tid = c.org.tid ∧ x.id = c.id then { x with op := .halted (s.thread c.org.tid).ord } else x
    ((s.updDie die (fun d => { d with cmds := d.cmds.map stop })).endX c).postFault c.org i
  else (s.dropCmd die c).endX c

/-- A command that its thread carries out itself fails (R246): it stands at the head of the thread's halted queue on the engine, and the fault is reported. -/
def State.failAt (s : State) (die : Nat) (o : Origin) (i : TrapInfo) : State :=
  if s.hears o then
    let th := s.thread o.tid
    ((s.setThread o.tid { th with nextId := th.nextId + 1 }).updDie die (fun d => { d with cmds := d.cmds ++ [⟨o, th.nextId, s.cycle, .halted th.ord⟩] })).postFault o i
  else s

/-- The trap of a record that a domain may not reach, or that holds an uncorrectable error in the `n` bytes read from `key` on, and the word in error
(R299, R305, R324). -/
def State.recTrap (s : State) (die : Nat) (dom : BitVec 6) (r key n : Nat) : Option (TrapInfo × Option Nat) :=
  if ¬ s.recOwned dom r then some (mapFault 0x14 0 .atomic 6 (placeVa die r), none)
  else (s.badWord key n).map (fun w => (trapInfo .uncorrectableMemory 6 0 (BitVec.ofNat 48 (placeVa die w)), some w))

/-- The word in error, if any, is reported (R388, R391). -/
def State.noteWord (s : State) (tid : Nat) (dom : BitVec 6) (w : Option Nat) : State :=
  match w with
  | some w => s.memError 0x0101 w tid dom.toNat
  | none => s

/-- Who decrements a join counter (R332, R333). -/
inductive Decrement where
  /-- A copy or a completion, with the completion object of the copy if it has one. -/
  | quiet (cobj : Option Nat)
  /-- A TSIGNAL, at an engine, of a thread of a domain. -/
  | signal (die : Nat) (c : DieCmd) (dom : BitVec 6)

/-- A completion object is updated for a copy (R350, R351), unless its words hold an uncorrectable error (R305). -/
def State.atObject (s : State) (dom : BitVec 6) (key : Nat) (f : State → State) : State :=
  let s := s.noteRead noTid dom key 16
  if (s.badWord key 16).isSome then s else f s

/-- One decrement of a join counter at its record's bank (R332 to R334), which an uncorrectable error there stops (R305); `va` is the record's address as
the decrementer names it. -/
def State.decJoin (s : State) (r va : Nat) (by_ : Decrement) : State :=
  let j := s.recJoin r
  let s := match by_ with
    | .quiet _ => s.corrected noTid 0 [(r + 16, 4)]
    | .signal _ c dom => s.corrected c.org.tid dom.toNat [(r + 16, 4)]
  if (s.badWord (r + 16) 4).isSome then
    let w := (s.badWord (r + 16) 4).getD r
    match by_ with
    | .quiet _ => s.memError 0x0101 w noTid 0
    | .signal die c dom => (s.memError 0x0101 w c.org.tid dom.toNat).failDie die c (trapInfo .uncorrectableMemory 6 0 (BitVec.ofNat 48 (placeVa die w)))
  else if j ≤ 0 then
    match by_ with
    | .quiet (some obj) => s.atObject 0 obj (fun s => s.objRecord obj true va 0 0 0)
    | .quiet none => s.event (placeDie r) 0x0140 none noTid 0 (some (BitVec.ofNat 64 va)) none
    | .signal die c dom =>
      let s' := s.failDie die c (trapInfo .counterUnderflow 6 0 (BitVec.ofNat 48 va))
      if s.hears c.org then s'
      else s'.event (placeDie r) 0x0140 (some (coreOf c.org.tid)) c.org.tid dom.toNat (some (BitVec.ofNat 64 va)) none
  else
    let s := s.setRecJoin r (j - 1)
    if j = 1 ∧ s.recState r = 1 then
      (List.range 2).foldl (fun s die =>
        match (s.die die).blocked.find? (fun b => b.record == r) with
        | none => s
        | some b => (s.updDie die (fun d => { d with blocked := d.blocked.filter (fun b => b.record != r) })).becomeReady die r b.dom b.ranges) s
    else s

end Sys2Proof.Machine
end

