-- ==== Sys2Proof/Machine/Hamper.lean ====
section
/-! DEFINITION. The hamper's format (R355, Tables 15-7 and 15-8): what is written of a thread and loaded from its record, the layout, and the
header's checks (R363). -/

namespace Sys2Proof.Machine

open Sys2Proof

/-! ## Where a hamper lies -/

/-- A hamper: the die and domain that reach it, its address, whether that is a physical address of the checkpoint pool (R342), and the translations
of its pages that who reaches it holds: pinned, or received of its walks (R303, R358). -/
structure Ham where
  die : Nat
  dom : BitVec 6
  va : Nat
  pool : Bool
  got : List PageWalk
  deriving DecidableEq, Repr

def State.hamRead (s : State) (h : Ham) (off n : Nat) : List Byte :=
  if h.pool then s.placeBytes ⟨h.va + off, .hbm, false, 0⟩ n else s.engRead h.die h.got h.dom (h.va + off) n
def State.hamWrite (s : State) (h : Ham) (off : Nat) (bs : List Byte) : State :=
  if h.pool then s.putPlace ⟨h.va + off, .hbm, false, 0⟩ bs else s.engWrite h.die h.got h.dom (h.va + off) bs
/-- Doubleword i of the header, and its write. -/
def State.hamDw (s : State) (h : Ham) (i : Nat) : Nat := leNat (s.hamRead h (8 * i) 8)
def State.setHamDw (s : State) (h : Ham) (i v : Nat) : State := s.hamWrite h (8 * i) (natBytes 8 v)

/-- STATE of a header (R357). -/
def State.hamState (s : State) (h : Ham) : Nat := nbits (s.hamDw h 0) 8 4
def State.setHamState (s : State) (h : Ham) (st : Nat) : State := s.setHamDw h 0 (setBits (s.hamDw h 0) 8 4 st)

/-- STATE, GEN and SELF of a header (R357). -/
def State.hamStamp (s : State) (h : Ham) : Nat × Nat × Nat := (s.hamState h, s.hamDw h 1, s.hamDw h 2 % 2 ^ 48)

/-- A change of STATE from `old` by a compare-and-swap of STATE, GEN and SELF (R357): a header that has changed stays. -/
def State.swapHamState (s : State) (h : Ham) (old gen st : Nat) : State :=
  if s.hamStamp h = (old, gen, h.va) then s.setHamState h st else s

/-- Bytes of a hamper have been read for a thread or task: the errors met are reported (R305, R388). -/
def State.noteHam (s : State) (h : Ham) (tid off n : Nat) : State :=
  if h.pool then s.noteRead tid h.dom (h.va + off) n else s.noteEng h.die h.got h.dom tid (h.va + off) n

/-- The first word with an uncorrectable error among some bytes of a hamper, by its address. -/
def State.hamWord (s : State) (h : Ham) (off n : Nat) : Option Nat :=
  if h.pool then s.badWord (h.va + off) n else s.engBad h.die h.got h.dom (h.va + off) n

/-- The translations of the HBM pages of `n` bytes from the base: what step 1 of R358 pins. -/
def State.pinsOf (s : State) (h : Ham) (n : Nat) : List PageWalk :=
  (hbmPages ((pageCuts h.va n).map Prod.fst)).map (fun p => ⟨h.dom, p, some (s.dieLeaf h.die h.got h.dom (65536 * p))⟩)

/-- The pages of the first `n` bytes of a hamper, which are translated before they are reached (R302, R303). -/
def Ham.pages (h : Ham) (n : Nat) : List Nat := if h.pool then [] else hbmPages ((pageCuts h.va n).map Prod.fst)

/-- Those whose translation is still to come. -/
def State.hamMissing (s : State) (h : Ham) (n : Nat) : List Nat := s.engMissing h.die h.got h.dom (h.pages n)

/-- Some of the first `n` bytes of a hamper lie in a region of HBM under test (R388). -/
def State.hamTested (s : State) (h : Ham) (n : Nat) : Bool :=
  if h.pool then s.hub.units != [] && (pageCuts h.va n).any (fun p => s.regionTested p.1) else s.pagesTested h.die h.got h.dom (h.pages n)

/-- An instruction that names a hamper waits until its first `n` bytes are translated and free of tests, as for an access of its own (R302, R303, R388). -/
def State.withPages (s : State) (h : Ham) (n : Nat) (f : State → State) : State :=
  match s.hamMissing h n with
  | p :: _ => s.outcome (.walk h.dom p)
  | [] => if s.hamTested h n then s.hold else f s

/-! ## Member records -/

/-- The member index of a thread: in its group, or else in its task (R28). -/
def Thread.memIndex (t : Thread) : Nat := (t.grp.map Prod.snd).getD t.member

/-- The tiles and slots a thread holds, rising. -/
def Array.heldTiles (a : Array) (tid : Nat) : List Nat := (List.range 16).filter (fun i => a.holdsTile tid i)
def Array.heldSlots (a : Array) (tid : Nat) : List Nat := (List.range 64).filter (fun i => a.holdsSlot tid i)

/-- The mask of a list of numbers. -/
def maskOf (l : List Nat) : Nat := l.foldl (fun m i => setBits m i 1 1) 0

/-- LOOP: entry 0 the outermost live loop, the rest 0. -/
def loopBytes (ls : List LoopEntry) : List Byte :=
  let out := ls.reverse
  (List.range 6).flatMap (fun i =>
    match out[i]? with
    | some l => natBytes 8 l.start.toNat ++ natBytes 8 l.last.toNat ++ natBytes 4 l.remaining.toNat ++ natBytes 4 l.index.toNat
    | none => natBytes 24 0)

/-- The select state of a record, from 0x400 to 0xBFF. -/
def Sel.bytes (x : Sel) : List Byte :=
  let ctl := b2n x.isOpen + x.kt.toNat * 2 + b2n x.d * 8 + x.k.toNat * 16 + x.count.toNat * 2 ^ 11
  let flags := b2n x.leftNan + b2n x.leftSnan * 2 + b2n x.leftPinf * 4 + b2n x.leftNinf * 8
  natBytes 8 ctl ++ natBytes 8 x.seq.toNat ++ natBytes 40 x.left.toNat ++ natBytes 8 flags ++ natBytes 0x3C0 0 ++
  (List.range 64).flatMap (fun i =>
    match (x.entries.take x.count.toNat)[i]? with
    | some e => natBytes 4 e.key.toNat ++ natBytes 4 e.index.toNat ++ natBytes 8 e.arrival.toNat
    | none => natBytes 16 0)

/-- The member record of a thread that resumes at `pc` with the loops `ls` (Table 15-8). -/
def memberBytes (t : Thread) (pc : VAddr) (ls : List LoopEntry) (mem coreset oheld aheld : Nat) : List Byte :=
  let g := maskOf ((List.range 8).filter (fun i => t.greg i))
  let sys := t.ctl.round.toNat + t.ctl.fstat.toNat * 8 + t.ctl.stallchk.toNat * 2 ^ 9 + t.ctl.cmask.toNat * 2 ^ 10
  let dws (f : Nat → DWord) (n : Nat) : List Byte := (List.range n).flatMap (fun i => natBytes 8 (f i).toNat)
  dws t.sreg 32 ++ loopBytes ls ++ natBytes 8 pc.toNat ++ natBytes 8 (g + ls.length * 2 ^ 8 + mem * 2 ^ 11 + coreset * 2 ^ 17) ++
  (List.range 8).flatMap (fun i => natBytes 4 (t.mreg i).toNat) ++ dws t.qreg 8 ++ dws t.preg 8 ++ dws (fun i => tget 0 t.regs.seed i) 4 ++
  natBytes 8 sys ++ natBytes 8 t.mat.next ++ natBytes 8 oheld ++ natBytes 8 aheld ++ dws (fun i => tget 0 t.regs.win i) 16 ++
  dws (fun i => tget 0 t.regs.allow i) 16 ++ natBytes 0x80 0 ++ t.sel.bytes ++ natBytes 0x400 0 ++
  (List.range 32).flatMap (fun i => natBytes 128 (t.vreg i).toNat)

/-- A field of a record. -/
def recNat (bs : List Byte) (off n : Nat) : Nat := leNat ((bs.drop off).take n)

/-- The loops of a record, the innermost first; bit 0 of an address of code reads 0, as that of the program counter does (R34; log entry 32). -/
def loopsOf (bs : List Byte) (depth : Nat) : List LoopEntry :=
  ((List.range (min depth 6)).map (fun i =>
    let o := 0x100 + 24 * i
    (⟨BitVec.ofNat 48 (recNat bs o 8) &&& ~~~1, BitVec.ofNat 48 (recNat bs (o + 8) 8) &&& ~~~1, BitVec.ofNat 32 (recNat bs (o + 16) 4),
      BitVec.ofNat 32 (recNat bs (o + 20) 4)⟩ : LoopEntry))).reverse

/-- The select state of a record. R148 gives no check and no meaning to KT = 3, K or COUNT above 64 or entries out of order: the model loads them, keeps 64
entries, and takes KT = 3 as FP32 (log entry 72). -/
def selOf (bs : List Byte) : Sel :=
  let c := recNat bs 0x400 8
  let f := recNat bs 0x438 8
  let count := nbits c 11 7
  { isOpen := c.testBit 0, kt := BitVec.ofNat 2 (c / 2), d := c.testBit 3, k := BitVec.ofNat 7 (c / 16), count := BitVec.ofNat 7 count,
    seq := BitVec.ofNat 64 (recNat bs 0x408 8),
    entries := (List.range (min count 64)).map (fun i =>
      let o := 0x800 + 16 * i
      ⟨BitVec.ofNat 32 (recNat bs o 4), BitVec.ofNat 32 (recNat bs (o + 4) 4), BitVec.ofNat 64 (recNat bs (o + 8) 8)⟩),
    left := BitVec.ofNat 320 (recNat bs 0x410 40), leftNan := f.testBit 0, leftSnan := f.testBit 1, leftPinf := f.testBit 2, leftNinf := f.testBit 3 }

/-- A table of the entries that differ from their default. -/
def tableOf {α : Type} [DecidableEq α] (d : α) (n : Nat) (f : Nat → α) : Table α :=
  (List.range n).foldl (fun t i => if f i = d then t else tset t i (f i)) []

/-- The registers of a record; OUT of every window's bound is 0 (R404). -/
def regsOf (bs : List Byte) : Regs :=
  let dw (o n : Nat) : Table DWord := tableOf 0 n (fun i => BitVec.ofNat 64 (recNat bs (o + 8 * i) 8))
  { s := tdel (dw 0 32) 0, v := tableOf 0 32 (fun i => BitVec.ofNat 1024 (recNat bs (0x1000 + 128 * i) 128)),
    g := tdel (tableOf false 8 (fun i => (recNat bs 0x198 1).testBit i)) 0,
    m := tdel (tableOf 0 8 (fun i => BitVec.ofNat 32 (recNat bs (0x1A0 + 4 * i) 4))) 0, q := dw 0x1C0 8, p := dw 0x200 8,
    seed := dw 0x240 4, win := dw 0x280 16,
    allow := tableOf 0 16 (fun i => BitVec.ofNat 64 (setBits (recNat bs (0x300 + 8 * i) 8) 16 16 0)) }

/-- A sequencer's thread is placed: what the sequencer keeps between its threads stays. -/
def Thread.placed (old : Thread) (cycle : Nat) : Thread :=
  { Thread.free with st := .ready, ready := cycle + 1, rel := old.rel, ord := old.ord + 1, nextId := old.nextId, born := old.born + 1 }

/-- A thread loaded from its member record (R28, R360); bit 0 of its pc reads 0 (R34; log entry 32). -/
def loadThread (old : Thread) (cycle : Nat) (bs : List Byte) (dom : BitVec 6) (grp : Option Nat) (task : Nat) : Thread :=
  let sys := recNat bs 0x260 8
  let w := recNat bs 0x198 8
  let mem := nbits w 11 6
  { old.placed cycle with
    pc := BitVec.ofNat 48 (recNat bs 0x190 8) &&& ~~~1, loops := loopsOf bs (nbits w 8 3), regs := regsOf bs,
    ctl := { Ctl.zero with round := BitVec.ofNat 3 sys, fstat := BitVec.ofNat 6 (sys / 8), stallchk := BitVec.ofNat 1 (sys / 2 ^ 9),
                           cmask := BitVec.ofNat 2 (sys / 2 ^ 10) },
    dom := dom, grp := grp.map (fun g => (g, mem)), mat := { Mat.empty with next := recNat bs 0x268 4 }, sel := selOf bs,
    task := some task, member := mem }

/-! ## Layout -/

/-- The carry ranges in use: base, length and the member named. -/
def carryOf (dws : List DWord) : List (Nat × Nat × Nat) :=
  (dws.map (fun d => (nbits d.toNat 0 20, nbits d.toNat 20 20, nbits d.toNat 40 7))).filter (fun c => c.2.1 != 0)

/-- A carry range is well formed (R358). -/
def carryOk (c : Nat × Nat × Nat) : Bool :=
  c.1 % 4 == 0 && c.2.1 % 4 == 0 && decide (c.1 + c.2.1 ≤ 0xF6000) && (c.2.2 == 127 || decide (c.2.2 ≤ 63))

/-- The members a carry range names, rising. -/
def named (mems : List Nat) (m : Nat) : List Nat := mems.filter (fun x => m == 127 || x == m)

def pad64 (n : Nat) : Nat := (n + 63) / 64 * 64

/-- The required size of a hamper (R355). -/
def State.hamSize (s : State) (members : List Nat) (carry : List DWord) : Nat :=
  let one (t : Nat) : Nat :=
    let a := (s.core (coreOf t)).arr
    8192 + 8192 * (a.heldTiles t).length + 2304 * (a.heldSlots t).length
  let mems := members.map (fun t => (s.thread t).memIndex)
  512 + (members.map one).foldl (· + ·) 0 + ((carryOf carry).map (fun c => (named mems c.2.2).length * pad64 c.2.1)).foldl (· + ·) 0

/-- The lowest member index among the members on a thread's core. -/
def State.coreset (s : State) (members : List Nat) (t : Nat) : Nat :=
  ((members.filter (fun x => coreOf x == coreOf t)).map (fun x => (s.thread x).memIndex)).foldl min 63

/-- The bytes of a tile in the .raw layout, and of a slot (R355). -/
def tileBytes (t : Tile) : List Byte := (tileStore t 4 (fun _ => .rne)).flatMap (fun c => natBytes 8 c.1)
def Array.slotImage (a : Array) (i : Nat) : List Byte :=
  (List.range 32).flatMap (fun r => natBytes 64 (a.row i r)) ++ (List.range 32).flatMap (fun r => natBytes 8 (a.row i r / 2 ^ 512))

/-- The address and loops a member resumes at (R261, R359): one that was stopped in WAITING at its waiting bundle, whether or not its wait has ended
since; after a REJOIN. -/
def Thread.resumeAt (t : Thread) : VAddr × List LoopEntry :=
  match t.wait, t.back with
  | some (.rejoin _), _ => (t.pc, t.loops)
  | some .lockstep, _ => (t.pc, t.loops)
  | _, some b => if t.held = .waiting then b else (t.pc, t.loops)
  | _, none => (t.pc, t.loops)

/-- A thread as its record shows it: a status register that a REJOIN or the issuer's SUSPEND is still to write reads 0 (R358, R359). -/
def Thread.asRecorded (t : Thread) (issuer : Option Nat) : Thread :=
  match t.wait, issuer with
  | some (.rejoin d), _ => t.land (.s d) 0
  | _, some d => if d = 0 then t else t.land (.s d) 0
  | _, none => t

/-- What is written behind the header, in order: member records, tiles, slots, carry data (R355); `d` is the issuer's status register. -/
def State.hamBody (s : State) (members : List Nat) (carry : List DWord) (issuer : Option (Nat × Nat)) : List Byte :=
  let rec1 (t : Nat) : List Byte :=
    let th := (s.thread t).asRecorded (match issuer with | some (i, d) => if i = t then some d else none | none => none)
    let a := (s.core (coreOf t)).arr
    let (pc, ls) := th.resumeAt
    memberBytes th pc ls th.memIndex (s.coreset members t) (maskOf (a.heldSlots t)) (maskOf (a.heldTiles t))
  let tiles := members.flatMap (fun t => let a := (s.core (coreOf t)).arr; (a.heldTiles t).flatMap (fun i => tileBytes (a.tile i)))
  let slots := members.flatMap (fun t => let a := (s.core (coreOf t)).arr; (a.heldSlots t).flatMap a.slotImage)
  let mem (m : Nat) : List Nat := members.filter (fun t => m == 127 || (s.thread t).memIndex == m)
  let data := (carryOf carry).flatMap (fun c => (mem c.2.2).flatMap (fun t =>
    s.bytesAt (padPlace (coreOf t) c.1) c.2.1 ++ List.replicate (pad64 c.2.1 - c.2.1) 0))
  members.flatMap rec1 ++ tiles ++ slots ++ data

/-- An uncorrectable error among what a hamper is written from (Table 15-10). -/
def State.hamBad (s : State) (members : List Nat) (carry : List DWord) : Bool :=
  let mem (m : Nat) : List Nat := members.filter (fun t => m == 127 || (s.thread t).memIndex == m)
  (carryOf carry).any (fun c => (mem c.2.2).any (fun t => (s.badWord (padPlace (coreOf t) c.1) c.2.1).isSome)) ||
    members.any (fun t => (s.slotErr (coreOf t) (((s.core (coreOf t)).arr.heldSlots t).flatMap (fun o => (List.range 32).map (fun r => (o, r, 0))))).isSome)

/-- The header (Table 15-7) in a state, with its detached copies. -/
def State.hamHeader (s : State) (h : Ham) (members : List Nat) (carry : List DWord) (size used src gen st schw stg nxt : Nat) (det : List (Nat × Nat)) :
    List Byte :=
  let na := (members.map (fun t => ((s.core (coreOf t)).arr.heldTiles t).length)).foldl (· + ·) 0
  let ns := (members.map (fun t => ((s.core (coreOf t)).arr.heldSlots t).length)).foldl (· + ·) 0
  let key := match (if h.pool then Except.error (0, 0) else s.engPlace h.die h.got h.dom true [] h.va) with | .ok p => p.keyId | .error _ => 0
  let oacc := 512 + 8192 * members.length
  let oslot := oacc + 8192 * na
  let die := ((members.head?).map dieOf).getD 0
  let dws := [1 + st * 2 ^ 8 + die * 2 ^ 12, gen, h.va, h.dom.toNat + key * 2 ^ 8 + members.length * 2 ^ 16 + na * 2 ^ 24 + ns * 2 ^ 35,
              size + used * 2 ^ 32, oacc + oslot * 2 ^ 32, oslot + 2304 * ns, src] ++ (List.range 4).map (fun j => (nth 0 carry j).toNat) ++
             [schw, stg + nxt * 2 ^ 16] ++ List.replicate 18 0
  dws.flatMap (natBytes 8) ++ (List.range 16).flatMap (fun k => let (a, c) := nth (0, 0) det k; natBytes 8 a ++ natBytes 8 c)

/-! ## Checks of a source header (R363) -/

/-- Checks 1 to 5, at level T or F; HCOPY in place skips HAMPER_MOVED. Hamper ranges need R and W (R302); `wr` says whether the access writes. A header with an
uncorrectable error traps as a read of it does (R166, R305). -/
def State.hamCheck (s : State) (h : Ham) (atF inPlace wr : Bool) : Option TrapInfo :=
  let bad : VAddr := BitVec.ofNat 48 h.va
  if h.va % 4096 ≠ 0 then some (trapInfo .misaligned 6 0 bad)
  else
    match (if h.pool then none else s.engFault h.die h.got h.dom atF [.read, .write] h.va 512) with
    | some (va, sub, level) => some (engInfo sub level wr va)
    | none =>
      let d := s.hamDw h 0
      if (s.hamWord h 0 512).isSome then some (trapInfo .uncorrectableMemory 6 0 (BitVec.ofNat 48 ((s.hamWord h 0 512).getD 0)))
      else if d % 256 ≠ 1 then some (trapInfo .hamperVersion 6 1 bad)
      else if 6 ≤ nbits d 8 4 then some (trapInfo .hamperVersion 6 2 bad)
      else if ¬ inPlace ∧ s.hamDw h 2 % 2 ^ 48 ≠ h.va then some (trapInfo .hamperMoved 6 1 bad)
      else if ¬ atF ∧ s.hamDw h 3 % 64 ≠ h.dom.toNat then some (trapInfo .hamperRights 6 1 bad)
      else none

/-- Checks 6 and 7 for a RESUME. -/
def State.resumeCheck (s : State) (h : Ham) (atF : Bool) : Option TrapInfo :=
  match s.hamCheck h atF false true with
  | some i => some i
  | none =>
    let bad : VAddr := BitVec.ofNat 48 h.va
    match s.hamState h with
    | 5 => some (trapInfo .hamperPoisoned 6 1 bad)
    | 0 => some (trapInfo .doubleResume 6 3 bad)
    | 1 => none
    | _ => some (trapInfo .doubleResume 6 1 bad)

end Sys2Proof.Machine
end

