-- ==== Sys2Proof/Machine/Copies.lean ====
section
/-! DEFINITION. Copy schedules and the copy engine (R343 to R349). -/

namespace Sys2Proof.Machine

open Sys2Proof

/-! ## Entries (Table 15-5) -/

def Copy.field (c : Copy) (i lo n : Nat) : Nat := nbits (nth 0 c.words i).toNat lo n
def Copy.src (c : Copy) : Nat := c.field 0 0 48
def Copy.dst (c : Copy) : Nat := c.field 1 0 48
def Copy.rows (c : Copy) : Nat := c.field 2 0 16
def Copy.rowb (c : Copy) : Nat := c.field 2 16 16
/-- The element size; code 3 is reserved. -/
def Copy.es (c : Copy) : Nat := 2 ^ c.field 2 32 2
def Copy.transposed (c : Copy) : Bool := c.field 2 34 1 == 1
def Copy.sstr (c : Copy) : Nat := c.field 3 0 32
def Copy.dstr (c : Copy) : Nat := c.field 3 32 32
def Copy.cobj (c : Copy) : Nat := c.field 4 0 48
def Copy.join (c : Copy) : Nat := c.field 5 0 48
def Copy.total (c : Copy) : Nat := c.rows * c.rowb
/-- Chunks of 4 KiB (R346). -/
def Copy.chunkCount (c : Copy) : Nat := (c.total + 4095) / 4096

/-- An address below 0x10_0000 is a member's scratchpad (R343). -/
def inPad (a : Nat) : Bool := decide (a < 0x100000)

/-- The bytes of the source and of the destination, from their first to their last. -/
def Copy.srcSpan (c : Copy) : Nat := (c.rows - 1) * c.sstr + c.rowb
def Copy.dstSpan (c : Copy) : Nat := if c.transposed then (c.rowb / c.es - 1) * c.dstr + c.rows * c.es else (c.rows - 1) * c.dstr + c.rowb

/-- The sequencer of a member of the entry's task. -/
def Copy.tidOf (c : Copy) (m : Nat) : Option Nat := (c.members.find? (fun p => p.1 == m)).map Prod.snd

/-- The sequencer of a scratchpad source or destination, by its member index (R343). -/
def Copy.srcTid (c : Copy) : Option Nat := if inPad c.src then c.tidOf (c.field 2 35 6) else none
def Copy.dstTid (c : Copy) : Option Nat := if inPad c.dst then c.tidOf (c.field 2 41 6) else none

/-- The sub-code of a malformed entry (R348). -/
def Copy.malformed (c : Copy) : Option Nat :=
  let res := c.field 1 48 16 ≠ 0 ∨ c.field 2 48 16 ≠ 0 ∨ c.field 4 48 16 ≠ 0 ∨ c.field 5 48 16 ≠ 0 ∨ nth 0 c.words 6 ≠ 0 ∨ nth 0 c.words 7 ≠ 0
  if res ∨ c.field 2 32 2 = 3 then some 0x30
  else if c.rows = 0 ∨ c.rowb = 0 ∨ (c.transposed ∧ c.rowb % c.es ≠ 0) then some 0x31
  else if (inPad c.src ∧ (0xF6000 < c.src + c.srcSpan ∨ c.srcTid.isNone)) ∨ (inPad c.dst ∧ (0xF6000 < c.dst + c.dstSpan ∨ c.dstTid.isNone)) then some 0x32
  else none

/-- The first byte at or above `lim` of `n` rows of `len` bytes from `a` on, `stride` apart. -/
def firstPast (a n len stride lim : Nat) : Option Nat :=
  let r := if lim < a + len ∨ stride = 0 then 0 else (lim + 1 - (a + len) + stride - 1) / stride
  if r < n ∧ lim < a + r * stride + len then some (max lim (a + r * stride)) else none

/-- The address a malformed entry's stop records: of one whose scratchpad range runs out, its first byte in the firmware stack region, or else past the
scratchpad's end (R165, Table 15-6); of any other, that of the entry (log entry 49). -/
def Copy.badAddr (c : Copy) : Nat :=
  if c.malformed ≠ some 0x32 then c.addr
  else
    let srcAt (lim : Nat) : Option Nat := if inPad c.src then firstPast c.src c.rows c.rowb c.sstr lim else none
    let dstAt (lim : Nat) : Option Nat :=
      if ¬ inPad c.dst then none
      else if c.transposed then firstPast c.dst (c.rowb / c.es) (c.rows * c.es) c.dstr lim
      else firstPast c.dst c.rows c.rowb c.dstr lim
    ([srcAt 0xFC000, dstAt 0xFC000, srcAt 0xF6000, dstAt 0xF6000].findSome? id).getD c.addr

/-- Source and destination address of source byte k in row-major order (R346). -/
def Copy.addrs (c : Copy) (k : Nat) : Nat × Nat :=
  let r := k / c.rowb
  let b := k % c.rowb
  (c.src + r * c.sstr + b, if c.transposed then c.dst + b / c.es * c.dstr + r * c.es + b % c.es else c.dst + r * c.dstr + b)

/-- The bytes of the chunk in flight. -/
def Copy.chunk (c : Copy) : List Nat := (List.range (min 4096 (c.total - 4096 * c.chunks))).map (fun i => 4096 * c.chunks + i)

/-- Cycles a chunk of `n` bytes takes (R346). -/
def Copy.chunkTime (c : Copy) : Nat := if c.transposed then (c.chunk.length + 255) / 256 else (c.chunk.length + 511) / 512

/-- The owner number of a copy's range entries: entries of one die by their number, and those of the two dies by the task's die. -/
def Copy.owner (c : Copy) : Nat := 2 ^ 40 + 2 * c.num + c.task % 2

/-- The range entries a copy takes: core, first offset and end (R168, R346). -/
def Copy.ranges (c : Copy) : List (Nat × Nat × Nat) :=
  (match c.srcTid with | some t => [(coreOf t, c.src, c.src + c.srcSpan)] | none => []) ++
  (match c.dstTid with | some t => [(coreOf t, c.dst, c.dst + c.dstSpan)] | none => [])

/-! ## Moving a chunk -/

/-- Where a byte of a copy lies, or the sub-code and level that refuse it. -/
def State.copyPlace (s : State) (die : Nat) (c : Copy) (tid : Option Nat) (k : AccKind) (a : Nat) : Except (Nat × Nat) Place :=
  match tid with
  | some t => .ok ⟨padPlace (coreOf t) a, .own, true, 0⟩
  | none => if 2 ^ 48 ≤ a then .error (0x13, 0) else s.engPlace die (s.engGot die (.copy c.num)) c.dom false [k] a

/-- The first byte of the chunk that is refused, or whose source holds an uncorrectable error: its address and sub-code (R348). -/
def State.chunkFault (s : State) (die : Nat) (c : Copy) : Option (Nat × Nat) :=
  c.chunk.findSome? (fun k =>
    let (a, b) := c.addrs k
    match s.copyPlace die c c.srcTid .read a, s.copyPlace die c c.dstTid .write b with
    | .error (sub, _), _ => some (a, sub)
    | .ok p, q =>
      if (s.badWord p.key 1).isSome then some (a, 0x20)
      else match q with | .error (sub, _) => some (b, sub) | .ok _ => none)

/-- The pages of the chunk in flight (R302). -/
def Copy.pages (c : Copy) : List Nat :=
  hbmPages (c.chunk.flatMap (fun k => let (a, b) := c.addrs k; (if c.srcTid.isNone then [a] else []) ++ (if c.dstTid.isNone then [b] else [])))

/-- The pages of the chunk in flight whose translation is still to come (R303). -/
def State.chunkMissing (s : State) (die : Nat) (c : Copy) : List Nat := s.engMissing die (s.engGot die (.copy c.num)) c.dom c.pages

/-- The chunk in flight waits for nothing: its pages are translated, and none lies in a region under test (R303, R388). -/
def State.chunkReady (s : State) (die : Nat) (c : Copy) : Bool :=
  s.chunkMissing die c == [] && !s.pagesTested die (s.engGot die (.copy c.num)) c.dom c.pages

/-- Corrected errors in what the chunk reads are counted (R166, R305). -/
def State.chunkCorrected (s : State) (die : Nat) (c : Copy) : State :=
  if s.ecc = [] then s
  else s.corrected noTid c.dom.toNat (c.chunk.filterMap (fun k =>
    match s.copyPlace die c c.srcTid .read (c.addrs k).1 with
    | .ok p => some (p.key, 1)
    | .error _ => none))

/-- The bytes of the chunk move: all are read, then all are written; a word that they cover whole loses its error state (R166). -/
def State.moveChunk (s : State) (die : Nat) (c : Copy) : State :=
  let moves := c.chunk.filterMap (fun k =>
    let (a, b) := c.addrs k
    match s.copyPlace die c c.srcTid .read a, s.copyPlace die c c.dstTid .write b with
    | .ok p, .ok q => some (q, s.placeBytes p 1)
    | _, _ => none)
  let whole (w : Nat) : Bool := (List.range 4).all (fun i => moves.any (fun m => m.1.key == 4 * w + i))
  moves.foldl (fun s m => s.putPlace m.1 m.2) (if s.ecc = [] then s else { s with ecc := s.ecc.filter (fun e => !whole e.1) })

/-! ## The life of an entry -/

/-- The running task of a copy. -/
def State.runOf (s : State) (id : Nat) : Option RunTask := (s.die (id % 2)).running.find? (fun r => r.id == id)
/-- The members of a task with their sequencers. -/
def RunTask.members (r : RunTask) : List (Nat × Nat) := r.mems.zip r.threads
/-- The sequencer of member 0. -/
def RunTask.zero? (r : RunTask) : Option Nat := (r.members.find? (fun p => p.1 == 0)).map Prod.snd

def State.updRun (s : State) (id : Nat) (f : RunTask → RunTask) : State :=
  s.updDie (id % 2) (fun d => { d with running := d.running.map (fun r => if r.id = id then f r else r) })

/-- A thread that has entered RETIRING: it is there, or a fault of a command queued before its END took it from there (R23). -/
def Thread.retired (t : Thread) : Bool := t.st == .retiring || (t.st == .trapped && t.ret.st == .retiring)

/-- The live threads of a task: neither freed nor RETIRING. -/
def State.liveThreads (s : State) (r : RunTask) : List Nat := r.threads.filter (fun t => !r.freed.contains t && !(s.thread t).retired)

/-- A hamper is being written of a thread of the task, whose scratchpad no entry may change then (R358, R364). -/
def State.beingWritten (s : State) (r : RunTask) : Bool :=
  (List.range 2).any (fun d => (s.die d).susp.any (fun x => x.writing.isSome && x.members.any (fun m => r.threads.contains m && !r.freed.contains m)))

/-- Entries start in order, as far as the stage lets them (R344); an entry with V = 0 is skipped, and those not started when every thread has entered
RETIRING are dropped (R349); an entry in HBM waits for its translation (R302, R303), and none starts while the state of a thread of the task is written (R364); `fuel` counts the entries left. -/
def State.startFrom (s : State) (id : Nat) : Nat → State
  | 0 => s
  | fuel + 1 =>
    match s.runOf id with
    | none => s
    | some r =>
      let die := id % 2
      let addr := nbits r.sched.toNat 0 48 + 64 * r.next
      let got := s.engGot die (.entry id)
      if nbits r.sched.toNat 48 12 ≤ r.next ∨ s.liveThreads r = [] then s
      else if s.beingWritten r ∨ s.pagesTested die got r.dom (hbmPages [addr]) then s.updRun id (fun r => { r with fetching := true })
      else if s.engMissing die got r.dom (hbmPages [addr]) ≠ [] then
        (s.engAsk die (.entry id) r.dom (hbmPages [addr])).updRun id (fun r => { r with fetching := true })
      else
        let fault := s.engFault die got r.dom false [.read] addr 64
        let bs := if fault.isSome then [] else s.engRead die got r.dom addr 64
        let s := (s.engTaken die (.entry id)).updRun id (fun r => { r with fetching := false })
        let ws := (List.range 8).map (fun i => BitVec.ofNat 64 (leNat ((bs.drop (8 * i)).take 8)))
        let step (s : State) : State := s.updRun id (fun r => { r with next := r.next + 1 })
        let go (s : State) (u : Option Nat) : State :=
          (step s).updDie die (fun d => { d with copyNum := d.copyNum + 1, copies := d.copies ++
            [{ num := d.copyNum, task := id, index := r.next, addr := addr, words := ws, unread := u, members := r.members, dom := r.dom, chunks := 0, busy := none,
               detached := false }] })
        match fault with
        | some (_, sub, _) => (go s (some sub)).startFrom id fuel
        | none =>
          if nbits (nth 0 ws 2).toNat 47 1 = 0 then (step s).startFrom id fuel
          else if nbits (nth 0 ws 0).toNat 48 16 ≤ r.stage then (go s none).startFrom id fuel
          else s

def State.startEntries (s : State) (id : Nat) : State := s.startFrom id 4096

/-- The tasks of a die that wait for the translation of an entry read it when it has come (R303). -/
def State.fetchEntries (s : State) (die : Nat) : State :=
  ((s.die die).running.filter RunTask.fetching).foldl (fun s r => s.startEntries r.id) s

/-- The place of an object or record that a copy names (R299, R347): in die memory its domain may read and write, and aligned. -/
def State.copyObject (s : State) (die : Nat) (c : Copy) (align va : Nat) : Option Nat :=
  if va = 0 ∨ va % align ≠ 0 then none
  else match regionOf (1024 * die) va with
    | .die d off _ => if s.ownDenies d off c.dom .atomic then none else some (diePlace d off)
    | _ => none

/-- An entry leaves the engine, and its range entries are released. -/
def State.dropCopy (s : State) (die k : Nat) (c : Copy) : State :=
  let s := (s.updDie die (fun d => { d with copies := delNth d.copies k })).engTaken die (.copy c.num)
  c.ranges.foldl (fun s r => s.updCore r.1 (fun x => { x with ranges := x.ranges.filter (fun e => e.owner != c.owner) })) s

/-- An entry stops (R348, R349): the stop goes to its object, to member 0, or to the black-box record. -/
def State.stopCopy (s : State) (die k : Nat) (c : Copy) (addr sub : Nat) : State :=
  let s := if sub = 0x20 then
      (match s.copyPlace die c c.srcTid .read addr with
      | .ok p => s.memError 0x0101 p.key noTid c.dom.toNat
      | .error _ => s) else s
  let s := s.dropCopy die k c
  match s.copyObject die c 32 c.cobj with
  | some obj => s.atObject c.dom obj (fun s => s.objRecord obj false addr sub c.index c.chunks)
  | none =>
    let zero := (s.runOf c.task).bind (fun r => r.zero?.filter (fun t => !r.freed.contains t))
    match (if c.detached then none else zero) with
    | some t => s.postFault ⟨t, (s.thread t).born, (s.thread t).pc, 0⟩ (copyFaultInfo addr sub c.index c.chunks)
    | none => s.event die 0x0142 none noTid c.dom.toNat (some (BitVec.ofNat 64 c.addr)) none

/-- The oldest entry that waits for a channel. -/
def Die.waitingCopy (d : Die) : Option Nat := d.copies.findIdx? (fun c => c.busy.isNone)

/-- COPY_CHUNK: a free channel of the sixteen takes the oldest entry, with its range entries; or the chunk in flight, its pages translated, lands (R303,
R346). -/
def execCopyChunk (die k : Nat) (s : State) : Host.Outcome State Fault Refusal :=
  let d := s.die die
  match d.copies[k]? with
  | none => .next s
  | some c =>
    let put (s : State) (c : Copy) : State := s.updDie die (fun d => { d with copies := setNth d.copies k c })
    match c.busy with
    | none =>
      let channels := (d.copies.filter (fun x => x.busy.isSome)).length
      let room := c.ranges.all (fun r => decide ((s.core r.1).ranges.length + (c.ranges.filter (fun x => x.1 == r.1)).length ≤ 32))
      if d.waitingCopy ≠ some k ∨ 16 ≤ channels ∨ c.unread.isSome ∨ c.malformed.isSome ∨ ¬ room then .next s
      else
        let s := c.ranges.foldl (fun s r => s.updCore r.1 (fun x => { x with ranges := x.ranges ++ [rangeEnt r.2.1 r.2.2 c.owner] })) s
        .next (put s { c with busy := some (s.cycle + c.chunkTime) })
    | some u =>
      if s.cycle < u ∨ c.chunks = c.chunkCount then .next s
      else if s.chunkMissing die c ≠ [] then .next (s.engAsk die (.copy c.num) c.dom (s.chunkMissing die c))
      else if ¬ s.chunkReady die c ∨ (s.chunkFault die c).isSome then .next s
      else
        let c' := { c with chunks := c.chunks + 1 }
        .next (put (((s.chunkCorrected die c).moveChunk die c).engTaken die (.copy c.num)) { c' with busy := some (s.cycle + c'.chunkTime) })

/-- COPY_ENTRY_COMPLETE: the last byte has landed (R347): the object's bytes and the record's join counter fall. -/
def execCopyEntryComplete (die k : Nat) (s : State) : Host.Outcome State Fault Refusal :=
  match (s.die die).copies[k]? with
  | none => .next s
  | some c =>
    if c.busy.isNone ∨ c.chunks ≠ c.chunkCount ∨ c.unread.isSome then .next s
    else
      let s := s.dropCopy die k c
      let obj := s.copyObject die c 32 c.cobj
      let s := match obj with | some o => s.atObject c.dom o (fun s => s.objDecrement o c.total) | none => s
      .next (match s.copyObject die c 128 c.join with | some r => s.decJoin r c.join (.quiet obj) | none => s)

/-- COPY_ENTRY_STOP: an entry that cannot be read or is malformed, or whose chunk in flight meets a fault, stops (R348). -/
def execCopyEntryStop (die k : Nat) (s : State) : Host.Outcome State Fault Refusal :=
  match (s.die die).copies[k]? with
  | none => .next s
  | some c =>
    match c.unread, c.busy with
    | some sub, _ => .next (s.stopCopy die k c c.addr sub)
    | none, none => match c.malformed with | some sub => .next (s.stopCopy die k c c.badAddr sub) | none => .next s
    | none, some u =>
      if s.cycle < u ∨ c.chunks = c.chunkCount ∨ ¬ s.chunkReady die c then .next s
      else match s.chunkFault die c with | some (a, sub) => .next (s.stopCopy die k c a sub) | none => .next s

/-- A started entry holds a thread of its task (R349): a member whose scratchpad it uses, and member 0; a detached one holds none. -/
def State.copyHolds (s : State) (tid : Nat) : Bool :=
  match (s.thread tid).task with
  | none => false
  | some id => (s.die (id % 2)).copies.any (fun c =>
      decide (c.task = id) && !c.detached && (c.srcTid == some tid || c.dstTid == some tid || c.tidOf 0 == some tid))

end Sys2Proof.Machine
end

