-- ==== Sys2Proof/Machine/Sha.lean ====
section
/-! DEFINITION. SHA-256, by which the security processor measures an image (R378). The spec names the function; its definition is that of
FIPS 180-4 (log entry 10). -/

namespace Sys2Proof.Machine

open Sys2Proof

/-- The integer part of the e-th root of n, by its bits from `bit - 1` down. -/
def intRoot (e n : Nat) : Nat → Nat → Nat
  | 0, r => r
  | bit + 1, r => intRoot e n bit (if (r + 2 ^ bit) ^ e ≤ n then r + 2 ^ bit else r)

/-- The first 64 primes. -/
def shaPrimes : List Nat := (List.range 312).filter (fun p => 2 ≤ p && (List.range p).all (fun d => d < 2 || p % d != 0))

/-- The first 32 bits of the fraction of the e-th root of a prime: the function's constants. -/
def rootFraction (e p : Nat) : Word := BitVec.ofNat 32 (intRoot e (p * 2 ^ (32 * e)) 40 0)

/-- The exclusive or of two rotations and a third rotation or shift. -/
def shaMix (x : Word) (a b : Nat) (y : Word) : Word := x.rotateRight a ^^^ x.rotateRight b ^^^ y

/-- The message schedule, newest word first, extended `n` times. -/
def shaExtend : Nat → List Word → List Word
  | 0, ws => ws
  | n + 1, ws =>
    let w1 := nth 0 ws 1
    let w14 := nth 0 ws 14
    shaExtend n ((shaMix w1 17 19 (w1 >>> 10) + nth 0 ws 6 + shaMix w14 7 18 (w14 >>> 3) + nth 0 ws 15) :: ws)

/-- One round on the eight working words, with the sum of its constant and its schedule word. -/
def shaRound (v : List Word) (kw : Word) : List Word :=
  match v with
  | [a, b, c, d, e, f, g, h] =>
    let u := h + shaMix e 6 11 (e.rotateRight 25) + ((e &&& f) ^^^ (~~~e &&& g)) + kw
    [u + shaMix a 2 13 (a.rotateRight 22) + ((a &&& b) ^^^ (a &&& c) ^^^ (b &&& c)), a, b, c, d + u, e, f, g]
  | _ => v

/-- A block of 64 bytes is taken into the eight words. -/
def shaBlock (h : List Word) (block : List Byte) : List Word :=
  let ws := (List.range 16).map (fun i => BitVec.ofNat 32 ((List.range 4).foldl (fun n j => n * 256 + (nth 0 block (4 * i + j)).toNat) 0))
  let sched := (shaExtend 48 ws.reverse).reverse
  List.zipWith (fun a b => a + b) h ((List.zipWith (fun p w => rootFraction 3 p + w) shaPrimes sched).foldl shaRound h)

/-- The blocks of a padded message, one after another. -/
def shaBlocks : Nat → List Byte → List Word → List Word
  | 0, _, h => h
  | n + 1, bs, h => shaBlocks n (bs.drop 64) (shaBlock h (bs.take 64))

/-- SHA-256 of a message of bytes. -/
def sha256 (msg : List Byte) : BitVec 256 :=
  let pad := (119 - msg.length % 64) % 64
  let len := (natBytes 8 (8 * msg.length)).reverse
  let bs := msg ++ 128 :: List.replicate pad 0 ++ len
  let h := shaBlocks (bs.length / 64) bs ((shaPrimes.take 8).map (rootFraction 2))
  BitVec.ofNat 256 (h.foldl (fun n w => n * 2 ^ 32 + w.toNat) 0)

end Sys2Proof.Machine
end

