-- ==== Sys2Proof/Machine/Tasks.lean ====
section
/-! DEFINITION. Tasks: submission, launches, the die's scheduler, pre-emption, and the end of threads and tasks (R19, R20, R261 to R263,
R324 to R342, R349). -/

namespace Sys2Proof.Machine

open Sys2Proof

/-! ## Placement (R337) -/

/-- The free sequencers of a core, those in `gone` counted as free (R389). -/
def State.freeSeqs (s : State) (core : Nat) (gone : List Nat) : List Nat :=
  let c := s.core core
  if c.inService ∧ ¬ c.halted then
    ((List.range 4).map (fun k => 4 * core + k)).filter (fun t => (s.thread t).st == .free || gone.contains t)
  else []

/-- A core a task may be placed on: no exclusive task runs there, and for an exclusive one no thread at all. -/
def State.coreOpen (s : State) (excl : Bool) (core : Nat) (gone : List Nat) : Bool :=
  let taken := (List.range 2).any (fun d => (s.die d).running.any (fun r => r.excl && r.threads.any (fun t =>
    coreOf t == core && !r.freed.contains t && !gone.contains t)))
  !taken && (!excl || (s.freeSeqs core gone).length == 4)

/-- The cores a task may use on a die; with ONECLU, cluster by cluster. -/
def State.scopes (s : State) (a : Affinity) (die : Nat) (gone : List Nat) : List (List Nat) :=
  let cs := (s.allowedCores a die).filter (fun c => s.coreOpen a.excl c gone)
  if a.oneclu then (List.range 32).map (fun k => cs.filter (fun c => c / 8 == 32 * die + k)) else [cs]

/-- A die's group table has a free entry, where the task needs one (R26); a group of threads that are all in `gone` counts as gone (R339). -/
def State.groupRoom (s : State) (die nthr : Nat) (gone : List Nat) : Bool :=
  nthr ≤ 1 || (lowestFree (s.die die).groups 512).isSome || (gone != [] && (s.die die).groups.any (fun g => g.2.members.all (fun m => gone.contains m.2)))

/-- The placement of a fresh task: the smallest list of sequencers its affinity allows. -/
def State.placeFresh (s : State) (a : Affinity) (gone : List Nat) : Option (List Nat) :=
  (List.range 2).findSome? (fun die =>
    if ¬ s.groupRoom die a.nthr gone then none
    else (s.scopes a die gone).findSome? (fun cs =>
      let free := cs.flatMap (fun c => let f := s.freeSeqs c gone; if a.spread then f.take 1 else f)
      if a.nthr ≤ free.length then some (free.take a.nthr) else none))

/-- What placement needs of a member record: its member index, CORESET, and the slots and tiles held. -/
structure MemRec where
  mem : Nat
  set : Nat
  slots : Nat
  tiles : Nat
  deriving DecidableEq, Repr

def State.hamMembers (s : State) (h : Ham) : List MemRec :=
  let n := nbits (s.hamDw h 3) 16 7
  (List.range (min n 64)).map (fun i =>
    let w := leNat (s.hamRead h (512 + 8192 * i + 0x198) 8)
    ⟨nbits w 11 6, nbits w 17 6, leNat (s.hamRead h (512 + 8192 * i + 0x270) 8), leNat (s.hamRead h (512 + 8192 * i + 0x278) 8) % 65536⟩)

/-- The slots and tiles of a core that are held, by other threads than those counted as gone. -/
def Array.heldMasks (a : Array) (gone : List Nat) : Nat × Nat :=
  let held (t : Table Nat) : Nat := maskOf ((t.filter (fun p => !gone.contains p.2)).map Prod.fst)
  (held a.slotOwn, held a.tileOwn)

/-- The members of a hamper that shared a core, by position, with the slots and tiles they held. -/
structure CoreSet where
  mems : List Nat
  slots : Nat
  tiles : Nat
  deriving DecidableEq, Repr

def coreSets (ms : List MemRec) : List CoreSet :=
  let names := ms.foldl (fun l m => if l.contains m.set then l else l ++ [m.set]) []
  names.map (fun g =>
    let mine := (List.range ms.length).filter (fun i => ((ms[i]?).map MemRec.set) == some g)
    let union (f : MemRec → Nat) : Nat := mine.foldl (fun m i => m ||| ((ms[i]?).map f).getD 0) 0
    ⟨mine, union MemRec.slots, union MemRec.tiles⟩)

/-- The ways in which some of the sets can share a core with `room` sequencers free and these slots and tiles held. -/
def packings (spread : Bool) : Nat → Nat → Nat → List CoreSet → List (List CoreSet)
  | _, _, _, [] => [[]]
  | room, so, sa, g :: gs =>
    let without := packings spread room so sa gs
    if g.mems.length ≤ room ∧ so &&& g.slots = 0 ∧ sa &&& g.tiles = 0 then
      (packings spread (if spread then 0 else room - g.mems.length) (so ||| g.slots) (sa ||| g.tiles) gs).map (g :: ·) ++ without
    else without

/-- The members of a packing. -/
def members (p : List CoreSet) : List Nat := p.flatMap CoreSet.mems

/-- One list of numbers comes before another in ascending comparison. -/
def listLt : List Nat → List Nat → Bool
  | [], ys => ys != []
  | _ :: _, [] => false
  | x :: xs, y :: ys => decide (x < y) || (x == y && listLt xs ys)

/-- Of some placements of the same members, the one whose list of sequencers is smallest, and of those with one list the one that gives the lower members the
lower sequencers (R337). -/
def smallest (ps : List (List (Nat × Nat))) : Option (List (Nat × Nat)) :=
  let rising (l : List Nat) : List Nat := stableSort (fun a b => decide (a < b)) l
  let key (p : List (Nat × Nat)) : List Nat :=
    rising (p.map Prod.snd) ++ (rising (p.map Prod.fst)).map (fun m => ((p.find? (fun x => x.1 == m)).map Prod.snd).getD 0)
  ps.foldl (fun best p => match best with
    | none => some p
    | some b => if listLt (key p) (key b) then some p else some b) none

/-- Members that shared a core share one again, where their slot and tile indices are free (R360): of the placements on the cores, which are rising, the
one whose list of sequencers is smallest (R337): the lower a core, the more members it takes, and of the ways to take as many the one that leaves the
smallest list. Members by position, with their sequencers. -/
def State.placeSets (s : State) (spread : Bool) (gone : List Nat) : List Nat → List CoreSet → Option (List (Nat × Nat))
  | _, [] => some []
  | [], _ => none
  | c :: cs, gs =>
    let free (c : Nat) : List Nat := let f := s.freeSeqs c gone; if spread then f.take 1 else f
    let alone (g : CoreSet) (c : Nat) : Bool :=
      let (ho, ha) := (s.core c).arr.heldMasks gone
      decide (g.mems.length ≤ (free c).length) && ho &&& g.slots == 0 && ha &&& g.tiles == 0
    if gs.any (fun g => !(c :: cs).any (alone g)) then none
    else
      let (ho, ha) := (s.core c).arr.heldMasks gone
      let ways := packings spread (free c).length ho ha gs
      let sizes := stableSort (fun a b => decide (b < a)) ((ways.map (fun w => (members w).length)).eraseDups)
      sizes.findSome? (fun n =>
        smallest ((ways.filter (fun w => (members w).length == n)).filterMap (fun way =>
          (s.placeSets spread gone cs (gs.filter (fun g => !way.contains g))).map
            (fun ps => (stableSort (fun a b => decide (a < b)) (members way)).zip (free c) ++ ps))))

/-- The placement of a hamper's members on a die that its task may use (R337, R360). -/
def State.placeHamper (s : State) (a : Affinity) (h : Ham) (gone : List Nat) : Option (List Nat) :=
  let ms := s.hamMembers h
  (List.range 2).findSome? (fun die =>
    if ¬ s.groupRoom die 2 gone then none
    else (s.scopes a die gone).findSome? (fun cs =>
      (s.placeSets a.spread gone cs (coreSets ms)).map (fun ps => (List.range ms.length).map (fun i => ((ps.find? (fun p => p.1 == i)).map Prod.snd).getD 0))))

/-- The hamper of a task's checkpoint, as the scheduler reaches it, or of its RESUME, as the resuming thread does (R342, R360). -/
def State.taskHam (s : State) (die : Nat) (t : ReadyTask) : Option Ham :=
  match t.start with
  | .fresh => none
  | .checkpointed pool => some ⟨die, t.dom, s.dwField t.record 14 0 48, pool, s.engGot die (.ready t.seq)⟩
  | .resume from_ va via _ _ => some ⟨from_, via, va, false, s.engGot from_ (.ready t.seq)⟩

/-- The affinity of a ready task; a RESUME may use every core of its die. -/
def State.taskAffinity (s : State) (die : Nat) (t : ReadyTask) : Affinity :=
  match t.start with
  | .resume _ _ _ _ _ => ⟨2 ^ die, 2 ^ 32 - 1, 255, t.dom, false, false, false, 0⟩
  | _ => s.recAffinity t.record die t.dom

/-- placement(t) of R337, with the threads in `gone` counted as gone. -/
def State.placement (s : State) (die : Nat) (t : ReadyTask) (gone : List Nat) : Option (List Nat) :=
  match s.taskHam die t with
  | none => s.placeFresh (s.taskAffinity die t) gone
  | some h => s.placeHamper (s.taskAffinity die t) h gone

/-- ENERGY of a ready task; 0 for a RESUME. -/
def State.taskEnergy (s : State) (t : ReadyTask) : Nat :=
  match t.start with
  | .resume _ _ _ _ _ => 0
  | _ => s.dwField t.record 3 32 32

/-! ## The order of ready tasks (R336) -/

/-- The effective priority in a cycle: the priority, raised for every 65,536 cycles of waiting, up to three times. -/
def ReadyTask.effective (t : ReadyTask) (cycle : Nat) : Nat := min 15 (t.prio + min 3 (max t.aged ((cycle - t.since) / 65536)))
def ReadyTask.before (cycle : Nat) (a b : ReadyTask) : Bool :=
  if a.effective cycle ≠ b.effective cycle then b.effective cycle < a.effective cycle else a.seq < b.seq
def Die.order (d : Die) (cycle : Nat) : List ReadyTask := stableSort (ReadyTask.before cycle) d.ready

/-- A change of a ready task. -/
def State.updReady (s : State) (die seq : Nat) (f : ReadyTask → ReadyTask) : State :=
  s.updDie die (fun d => { d with ready := d.ready.map (fun t => if t.seq = seq then f t else t) })

/-! ## Starting threads -/

/-- The registers of a thread created by a task pop (R12, R15). -/
def freshRegs (tid recVa member : Nat) (frame : DWord) : Regs :=
  let z : DWord := BitVec.ofNat 64 tid
  { Regs.zero with s := (tset (tset (tset [] 1 frame) 2 (BitVec.ofNat 64 recVa)) 3 (BitVec.ofNat 64 member)),
                   seed := (List.range 4).map (fun i => (i, splitMix z (i + 1))) }

/-- A new group of placed threads, with their member indices (R26, R28). Of two resumed records with one member index, as of a checkpointed task whose threads
sat in different groups, the later takes the entry of the table: the model's choice (log entry 76). -/
def State.formGroup (s : State) (die : Nat) (dom : BitVec 6) (ms : List (Nat × Nat)) : State × Option Nat :=
  match lowestFree (s.die die).groups 512 with
  | none => (s, none)
  | some g => (s.updDie die (fun d => { d with groups := tset d.groups g ⟨dom, ms.foldl (fun t m => tset t m.1 m.2) [], []⟩ }), some g)

/-- The threads of a fresh task start at CODE, whose bit 0 reads 0 in the pc (R12, R34; log entry 32); more than one form a group (R26). -/
def State.startFresh (s : State) (t : ReadyTask) (id : Nat) (tids : List Nat) : State :=
  let ms := (List.range tids.length).zip tids
  let (s, g) := if tids.length ≤ 1 then (s, none) else s.formGroup (((tids.head?).map dieOf).getD 0) t.dom ms
  ms.foldl (fun s m =>
    s.updThread m.2 (fun old => { old.placed s.cycle with
      pc := BitVec.ofNat 48 (s.dwField t.record 0 0 48) &&& ~~~1, regs := freshRegs m.2 (placeVa (dieOf m.2) t.record) m.1 (BitVec.ofNat 64 (s.dw t.record 1)),
      dom := t.dom, grp := g.map (fun g => (g, m.1)), task := some id, member := m.1 })) s

/-- The tiles, slots and carry data of a hamper are loaded (R355, R360); `ps` pairs each member record with its sequencer. -/
def State.loadHoldings (s : State) (h : Ham) (ms : List MemRec) (tids : List Nat) : State :=
  let ps := ms.zip tids
  let oacc := nbits (s.hamDw h 5) 0 32
  let oslot := nbits (s.hamDw h 5) 32 32
  let ocarry := nbits (s.hamDw h 6) 0 32
  let tiles := ps.flatMap (fun p => (onesBelow 16 p.1.tiles).map (fun i => (p.2, i)))
  let slots := ps.flatMap (fun p => (onesBelow 64 p.1.slots).map (fun i => (p.2, i)))
  let s := ((List.range tiles.length).zip tiles).foldl (fun s x =>
    let bs := s.hamRead h (oacc + 8192 * x.1) 8192
    let (t, _) := tileLoad 4 ((List.range 1024).map (fun i => recNat bs (8 * i) 8))
    s.updArr (coreOf x.2.1) (fun a => { a.setTile x.2.2 t with tileOwn := tset a.tileOwn x.2.2 x.2.1 })) s
  let s := ((List.range slots.length).zip slots).foldl (fun s x =>
    let bs := s.hamRead h (oslot + 2304 * x.1) 2304
    s.updArr (coreOf x.2.1) (fun a =>
      { a with slots := (List.range 32).foldl (fun m r => tput 0 m (32 * x.2.2 + r) (recNat bs (64 * r) 64 + recNat bs (2048 + 8 * r) 8 * 2 ^ 512)) a.slots,
               slotOwn := tset a.slotOwn x.2.2 x.2.1 })) s
  let carry := carryOf ([8, 9, 10, 11].map (fun i => BitVec.ofNat 64 (s.hamDw h i)))
  let parts := carry.flatMap (fun c => (ps.filter (fun p => c.2.2 == 127 || p.1.mem == c.2.2)).map (fun p => (p.2, c.1, c.2.1)))
  (parts.foldl (fun (x : State × Nat) p =>
    let key := padPlace (coreOf p.1) p.2.1
    let bs := x.1.hamRead h x.2 p.2.2
    ((x.1.clearEcc key bs.length).putBytes key bs, x.2 + pad64 p.2.2)) (s, ocarry)).1

/-- The members of a hamper start from their records, as a new group (R28, R360; log entry 47). -/
def State.startHamper (s : State) (h : Ham) (dom : BitVec 6) (id : Nat) (tids : List Nat) : State :=
  let ms := s.hamMembers h
  let (s, g) := s.formGroup (((tids.head?).map dieOf).getD 0) dom ((ms.map MemRec.mem).zip tids)
  let s := ((List.range tids.length).zip tids).foldl (fun s m =>
    let bs := s.hamRead h (512 + 8192 * m.1) 8192
    s.updThread m.2 (fun old => loadThread old s.cycle bs dom g id)) s
  s.loadHoldings h ms tids

/-- A task is placed (R337): its threads start, and it is running. -/
def State.placeTask (s : State) (die : Nat) (t : ReadyTask) (tids : List Nat) (use : Nat) : State :=
  let id := 2 * t.seq + die
  let isRes := match t.start with | .resume _ _ _ _ _ => true | _ => false
  let r := t.record
  let e := s.taskEnergy t
  let ham := s.taskHam die t
  let code := s.dwField r 0 0 48
  let (sched, stage, nxt) := match ham with
    | none => (BitVec.ofNat 64 (s.dw r 6), 0, 0)
    | some h => (BitVec.ofNat 64 (s.hamDw h 12), nbits (s.hamDw h 13) 0 16, nbits (s.hamDw h 13) 16 12)
  let run : RunTask :=
    { id := id, record := if isRes then none else some r, dom := t.dom, prio := if isRes then t.prio else s.dwField r 2 32 4, seq := t.seq, aged := t.aged,
      threads := tids, mems := (match ham with | none => List.range tids.length | some h => (s.hamMembers h).map MemRec.mem), freed := [], placed := s.cycle, energy := e, est := if isRes then 0 else s.dwField r 3 0 32, hold := e,
      excl := !isRes && s.dwField r 12 8 1 == 1, sched := sched, stage := stage, next := nxt, fetching := false, waited := s.cycle - t.since, stopping := none,
      onBehalf := none, killed := false, draining := false, form := !isRes && s.dwField r 5 32 1 == 1, trip := s.dwField r 5 0 32, edges := 0,
      kernLo := code + s.dwField r 4 0 24, kernHi := code + s.dwField r 4 24 24, ranges := t.ranges }
  let s := s.updDie die (fun d =>
    { d with ready := d.ready.filter (fun x => x.seq != t.seq), running := d.running ++ [run],
             resv := if d.resv.map Resv.seq = some t.seq then none else d.resv })
  let s := if use = 0 then s else s.updHub (fun u =>
    { u with energy := { u.energy with resv := tset u.energy.resv t.dom.toNat (u.energy.resvOf t.dom.toNat - use) } })
  let s := if isRes then s else s.onRecord t.dom r (fun s => s.setRecState r 3)
  let s := match ham with
    | none => s.startFresh t id tids
    | some h =>
      let gen := match t.start with | .resume _ _ _ _ g => g | _ => s.hamDw h 1
      let s := ((s.noteHam h noTid 0 (nbits (s.hamDw h 4) 32 32)).startHamper h t.dom id tids).swapHamState h 1 gen 2
      s.updDie die (fun d => { d with hloads := d.hloads ++
        [({ die := h.die, dom := h.dom, va := h.va, pool := h.pool, pins := if h.pool then [] else s.pinsOf h 512, gen := gen, record := if isRes then 0 else r, until_ := s.cycle + 1 } : HLoad)] })
  s.startEntries id

/-- Why nothing can be placed from a task's hamper (R302, R342, R363): the cause that a RESUME would record, or an uncorrectable error met while it is
loaded. -/
def State.hamFails (s : State) (die : Nat) (t : ReadyTask) : Option Nat :=
  match s.taskHam die t, t.start with
  | none, _ => none
  | some h, start =>
    let n := nbits (s.hamDw h 4) 32 32
    let header := match start with
      | .resume _ _ _ atF _ => s.hamCheck h atF false true
      | _ => s.resumeCheck h true
    let atF := match start with
      | .resume _ _ _ atF _ => atF
      | _ => true
    match header, (if h.pool then none else s.engFault h.die h.got h.dom atF [.read, .write] h.va n) with
    | some i, _ => some (causeCode i.cause)
    | none, some (va, sub, level) => some (causeCode (engInfo sub level true va).cause)
    | none, none =>
      if (s.hamWord h 0 n).isSome then some (causeCode .uncorrectableMemory) else none

/-- A task leaves the ready queue without a placement, and a reservation with it. -/
def State.dropReady (s : State) (die seq : Nat) : State :=
  s.updDie die (fun d => { d with ready := d.ready.filter (fun x => x.seq != seq), resv := if d.resv.map Resv.seq = some seq then none else d.resv })

/-- The bytes of a task's hamper that the scheduler reads as it loads it: the errors met are reported, where it can be read (R305). -/
def State.noteLoad (s : State) (die : Nat) (t : ReadyTask) : State :=
  match s.taskHam die t with
  | none => s
  | some h => s.noteHam h noTid 0 (max 512 (nbits (s.hamDw h 4) 32 32))

/-- A checkpointed task whose hamper fails its checks when it is placed runs afresh from its record (R342); a RESUME whose hamper has become unreadable is
dropped, and the black-box record names the cause (log entry 50). -/
def State.failHamper (s : State) (die : Nat) (t : ReadyTask) (cause : Nat) : State :=
  match t.start with
  | .resume _ va _ _ _ => ((s.noteLoad die t).event die cause none noTid t.dom.toNat (some (BitVec.ofNat 64 va)) none).dropReady die t.seq
  | _ =>
    let hamp := s.dwField t.record 14 0 48
    let s := (s.onRecord t.dom t.record (fun s => (s.setRecJoin t.record 0).setRecState t.record 2)).noteLoad die t |>.updReady die t.seq (fun x => { x with start := .fresh })
    (s.event die 0x0143 none noTid t.dom.toNat (some (BitVec.ofNat 64 (placeVa die t.record))) (some (BitVec.ofNat 64 hamp))).irq

/-- Another task's reservation covers a sequencer of a placement (R338). -/
def State.reserved (s : State) (die : Nat) (t : ReadyTask) (tids : List Nat) : Bool :=
  (List.range 2).any (fun d =>
    match (s.die d).resv with
    | none => false
    | some v =>
      if d = die ∧ v.seq = t.seq then false
      else
        match (s.die d).ready.find? (fun x => x.seq == v.seq) with
        | none => false
        | some h =>
          let a := s.taskAffinity d h
          let cs := s.allowedCores a 0 ++ s.allowedCores a 1
          tids.any (fun x => cs.contains (coreOf x)))

/-- What the scheduler comes to in a cycle (R337): nothing can be placed; a task is placed, with the reservation it uses; or a task's turn finds its hamper
unusable, with the cause. -/
inductive Pick where
  | none
  | place (t : ReadyTask) (tids : List Nat) (use : Nat)
  | unusable (t : ReadyTask) (cause : Nat)
  deriving DecidableEq, Repr

/-- The pages of a ready task's hamper that the scheduler has to read, as far as its header is translated (R302, R303). -/
def State.taskPages (s : State) (die : Nat) (t : ReadyTask) : List Nat :=
  match s.taskHam die t with
  | none => []
  | some h =>
    if s.hamMissing h 512 ≠ [] ∨ (s.hamCheck h true false true).isSome then h.pages 512 else h.pages (nbits (s.hamDw h 4) 32 32)

/-- The pages whose translation keeps a ready task from its turn. -/
def State.taskMissing (s : State) (die : Nat) (t : ReadyTask) : List Nat :=
  match s.taskHam die t with
  | none => []
  | some h => s.engMissing h.die h.got h.dom (s.taskPages die t)

/-- A task in its turn: admitted by the account (R385), its record within its domain's reach, its hamper translated, and with a placement that no other
reservation covers. A checkpointed task whose hamper fails comes to its turn when its threads could be placed afresh (R342). -/
def State.tryTask (s : State) (die : Nat) (t : ReadyTask) : Pick :=
  let isRes : Bool := match t.start with | .resume _ _ _ _ _ => true | _ => false
  let refuses (tids : List Nat) : Bool := (!isRes && !s.recOwned t.dom t.record) || s.reserved die t tids
  if s.taskMissing die t ≠ [] ∨ (s.taskHam die t).any (fun h => s.hamTested h (max 512 (nbits (s.hamDw h 4) 32 32))) then .none
  else
    match s.admission t.dom (s.taskEnergy t), s.hamFails die t with
    | none, _ => .none
    | some _, some cause =>
      if isRes then .unusable t cause
      else
        match s.placeFresh (s.taskAffinity die t) [] with
        | none => .none
        | some tids => if refuses tids then .none else .unusable t cause
    | some use, none =>
      match s.placement die t [] with
      | none => .none
      | some tids => if refuses tids then .none else .place t tids use

/-- The tasks of an order that are refused in their turn, and what the first of the others comes to. -/
def State.pick (s : State) (die : Nat) : List ReadyTask → List Nat × Pick
  | [] => ([], .none)
  | t :: ts =>
    match s.tryTask die t with
    | .none => let (rs, p) := s.pick die ts; (t.seq :: rs, p)
    | p => ([], p)

/-! ## Pre-emption (R339 to R341) -/

/-- The scheduler has read bytes of a running task's record that its domain may reach: the errors met are reported (R305, R324). -/
def State.noteRecord (s : State) (r : RunTask) (off n : Nat) : State :=
  match r.record with
  | some k => if s.recOwned r.dom k then s.noteRead noTid r.dom (k + off) n else s
  | none => s

def RunTask.held (r : RunTask) : List Nat := r.threads.filter (fun t => !r.freed.contains t)

/-- A victim whose decision is pending (R339). -/
def RunTask.pending (r : RunTask) : Bool := r.draining || r.stopping.isSome

/-- rem of R340. -/
def State.remaining (s : State) (r : RunTask) : Nat :=
  let est := match r.record with | some k => s.recField r.dom k 3 0 32 | none => 0
  if r.form then est * (r.trip - r.edges) / max r.trip 1 else est - (s.cycle - r.placed)

/-- A thread of the task shares a group with a thread of another task (R341). -/
def State.sharesGroup (s : State) (r : RunTask) : Bool :=
  r.held.any (fun t =>
    match (s.thread t).grp with
    | none => false
    | some (g, _) => ((tget ⟨0, [], []⟩ (s.die (dieOf t)).groups g).members).any (fun m => !r.threads.contains m.2))

/-- A stop is requested of every thread of a task (R341), on behalf of a task by die and SEQ. -/
def State.requestStop (s : State) (r : RunTask) (k : StopKind) (h : Nat × Nat) : State :=
  let s := s.updRun r.id (fun x => { x with stopping := some k, onBehalf := some h })
  (s.liveThreads r).foldl (fun s t => s.updThread t (·.askStop ⟨k, s.cycle, false⟩)) s

/-- A task is drained: the task on whose behalf, if it still waits, takes its die's reservation if no other holds it (R340). -/
def State.drain (s : State) (r : RunTask) (h : Option (Nat × Nat)) : State :=
  let s := s.updRun r.id (fun x => { x with draining := true, stopping := none })
  match h.filter (fun h => (s.die h.1).ready.any (fun t => t.seq == h.2)) with
  | none => s
  | some (die, seq) => s.updDie die (fun d => { d with resv := match d.resv with | none => some ⟨seq⟩ | some v => some v })

/-- The decision for one victim (R340). -/
def State.decideVictim (s : State) (die : Nat) (h : ReadyTask) (r : RunTask) : State :=
  let fresh := match h.start with | .resume _ _ _ _ _ => false | _ => true
  let tok := if fresh then s.recField h.dom h.record 12 0 8 else 0
  let spend (s : State) (n : Nat) : State := if fresh then s.onRecord h.dom h.record (fun s => s.setDw h.record 12 0 8 (tok - n)) else s
  let bit (i : Nat) : Bool := match r.record with | some k => s.recField r.dom k 2 i 1 == 1 | none => false
  let s := s.noteRecord r 16 16
  if s.remaining r < (s.die die).draint then s.drain r (some (die, h.seq))
  else if bit 37 ∧ 2 ≤ tok then
    let s := spend s 2
    if ¬ s.sharesGroup r then s.requestStop r .checkpoint (die, h.seq)
    else if bit 36 then s.requestStop r .kill (die, h.seq)
    else s.drain r (some (die, h.seq))
  else if bit 36 ∧ 1 ≤ tok then (spend s 1).requestStop r .kill (die, h.seq)
  else s

/-- Victims are taken in order until the placement becomes possible (R339). -/
def State.takeVictims (s : State) (die : Nat) (h : ReadyTask) : List RunTask → List RunTask → List Nat → Option (List RunTask)
  | [], _, _ => none
  | v :: vs, acc, gone =>
    let gone := gone ++ v.held
    if (s.placement die h gone).isSome then some (acc ++ [v]) else s.takeVictims die h vs (acc ++ [v]) gone

/-- Victims are examined in reverse, and each without which the placement remains possible is dropped (R339). -/
def State.dropVictims (s : State) (die : Nat) (h : ReadyTask) (pend : List Nat) : List RunTask → List RunTask → List RunTask
  | [], keep => keep
  | v :: vs, keep =>
    let gone := pend ++ (vs ++ keep).flatMap RunTask.held
    if (s.placement die h gone).isSome then s.dropVictims die h pend vs keep else s.dropVictims die h pend vs (v :: keep)

/-- The scheduler considers pre-emption for the first task of the order (R339): of the running tasks that either die's scheduler has placed. -/
def State.preempt (s : State) (die : Nat) (h : ReadyTask) : State :=
  let runs := (s.die 0).running ++ (s.die 1).running
  let pend := (runs.filter RunTask.pending).flatMap RunTask.held
  if (s.placement die h pend).isSome then s
  else
    let better (a b : RunTask) : Bool := if a.prio ≠ b.prio then a.prio < b.prio else b.placed < a.placed
    let cands := stableSort better (runs.filter (fun r => !r.pending && decide (r.prio < h.prio)))
    match s.takeVictims die h cands [] pend with
    | none => s
    | some vs => (s.dropVictims die h pend vs.reverse []).foldl (fun s v => s.decideVictim die h v) s

/-- TASK_PLACEMENT: the scheduler of a die places at most one task; the tasks before it are refused, and pre-emption is considered for the first of the
order if it cannot be placed (R337 to R339). Nothing is placed before the boot has finished (R377). -/
def execTaskPlacement (die : Nat) (s : State) : Host.Outcome State Fault Refusal :=
  if ¬ s.hub.booted then .next s
  else
    let order := (s.die die).order s.cycle
    let (refused, p) := s.pick die order
    let s := refused.foldl (fun s seq => s.updReady die seq (fun t => { t with refused := some (t.refused.getD s.cycle) })) s
    let s := (order.filter (fun t => refused.contains t.seq)).foldl (fun s t =>
      match s.taskHam die t with
      | none => s
      | some h => if s.taskMissing die t = [] then s else s.engAsk h.die (.ready t.seq) h.dom (s.taskMissing die t)) s
    let taken (s : State) (t : ReadyTask) : State :=
      match s.taskHam die t with
      | none => s
      | some h => s.engTaken h.die (.ready t.seq)
    let s := match p with
      | .none => s
      | .place t tids use => taken (s.placeTask die t tids use) t
      | .unusable t cause => taken (s.failHamper die t cause) t
    match order.head? with
    | none => .next s
    | some h => .next (if refused.contains h.seq ∧ (s.placement die h []).isNone then s.preempt die h else s)

/-- PRIORITY_AGEING: every 65,536 cycles of waiting raise the priority of ready task k by one, up to three (R336). -/
def execPriorityAgeing (die k : Nat) (s : State) : Host.Outcome State Fault Refusal :=
  match (s.die die).ready[k]? with
  | none => .next s
  | some t => if t.aged < min 3 ((s.cycle - t.since) / 65536) then .next (s.updReady die t.seq (fun t => { t with aged := t.aged + 1 })) else .next s

/-- RESERVATION_TAKEN: with no reservation held, the oldest task whose ageing is spent takes it, or else the first of the order 65,536 cycles after
its first refusal (R338). -/
def execReservationTaken (die : Nat) (s : State) : Host.Outcome State Fault Refusal :=
  let d := s.die die
  if d.resv.isSome then .next s
  else
    let old := d.ready.filter (fun t => decide (262144 ≤ s.cycle - t.since))
    let oldest := old.foldl (fun (m : Option ReadyTask) t => match m with | none => some t | some x => if t.seq < x.seq then some t else m) none
    let first := ((d.order s.cycle).head?).filter (fun t => match t.refused with
      | some c => decide (65536 ≤ s.cycle - c) && s.tryTask die t == .none
      | none => false)
    match oldest, first with
    | some t, _ => .next (s.updDie die (fun d => { d with resv := some ⟨t.seq⟩ }))
    | none, some t => .next (s.updDie die (fun d => { d with resv := some ⟨t.seq⟩ }))
    | none, none => .next s

/-- READY_QUEUE_ENTRY: the first waiting task whose queue has room enters it (R327). -/
def execReadyQueueEntry (die : Nat) (s : State) : Host.Outcome State Fault Refusal :=
  let d := s.die die
  let room (t : ReadyTask) : Bool := decide ((d.ready.filter (fun x => x.prio == t.prio)).length < 65536)
  match d.overflow.findIdx? room with
  | none => .next s
  | some i =>
    match d.overflow[i]? with
    | none => .next s
    | some t => .next (s.updDie die (fun d => { d with ready := d.ready ++ [t], overflow := delNth d.overflow i }))

/-- HAMPER_LOAD_COMPLETE: every member is placed and loaded, and the hamper is RESUMED; one of the checkpoint pool is discarded, and its space
returns to the pool (R342, R360). -/
def execHamperLoadComplete (die k : Nat) (s : State) : Host.Outcome State Fault Refusal :=
  match (s.die die).hloads[k]? with
  | none => .next s
  | some l =>
    let h : Ham := ⟨l.die, l.dom, l.va, l.pool, l.pins⟩
    if s.cycle < l.until_ ∨ s.hamTested h 512 then .next s
    else
      let s := (s.swapHamState h 2 l.gen (if l.pool then 4 else 3)).updDie die (fun d =>
        { d with hloads := delNth d.hloads k, pool := { d.pool with used := d.pool.used.filter (fun u => !(l.pool && u.1 == l.va)) } })
      .next (if l.pool then s.onRecord l.dom l.record (fun s => s.setDw l.record 14 0 48 0) else s)

/-! ## Stops (R261 to R263, R341, R342) -/

/-- The loop form of a thread's task covers an address (R262). -/
def State.inKernel (s : State) (t : Thread) (pc : VAddr) : Option Nat :=
  match t.task.bind s.runOf with
  | none => none
  | some r => if r.form ∧ r.kernLo ≤ pc.toNat ∧ pc.toNat < r.kernHi then some r.kernLo else none

/-- The thread stands at a permitted point (R261, R262): a wait other than STEP's, or the edge of a loop; in a kernel body only its own back edge. -/
def State.atPermitted (s : State) (t : Thread) : Bool :=
  if t.st = .waiting then
    (match t.wait with | some (.step _ _ _ _) => false | _ => true) && (s.inKernel t ((t.back.map Prod.fst).getD t.pc)).isNone
  else
    match t.edge with
    | none => false
    | some (backEdge, start) =>
      match s.inKernel t t.pc with
      | none => true
      | some k => backEdge && decide (start.toNat = k)

/-- A requested stop keeps the thread from issuing: it has stopped, or stands at a permitted point and waits for its writes to land (R261, R263). -/
def State.stopHolds (s : State) (tid : Nat) : Bool :=
  let t := s.thread tid
  match t.stop with
  | none => false
  | some r => r.landed || (!t.atF && (t.st == .running || t.st == .waiting) && s.atPermitted t)

/-- The stop can land now. -/
def State.canStop (s : State) (tid : Nat) : Bool :=
  let t := s.thread tid
  match t.stop with
  | none => false
  | some r => !r.landed && !t.atF && (t.st == .running || t.st == .waiting) && s.atPermitted t && t.settled s.cycle &&
      (match (s.core (coreOf tid)).snap with | some sn => sn.tid != tid | none => true)

/-- Some threads have stopped for a checkpoint or a kill; for a SUSPEND. -/
def State.stoppedAll (s : State) (susp : Bool) (ts : List Nat) : Bool :=
  ts.all (fun t => (s.thread t).stop.any (fun q => q.landed && q.kind.isSuspend == susp))

/-- Every live thread of a task has stopped. -/
def State.allStopped (s : State) (r : RunTask) : Bool := s.stoppedAll false (s.liveThreads r)

/-- The threads of a killed task retire together, their unstarted commands discarded (R20). -/
def State.killTask (s : State) (r : RunTask) : State :=
  let s := s.updRun r.id (fun x => { x with stopping := some .kill, killed := true })
  (s.liveThreads r).foldl (fun s t => (s.discardCommands t).retire t) s

/-- A thread has stopped for a kill; once every other thread of its task has stopped or ended, the task is killed. -/
def State.killIfStopped (s : State) (tid : Nat) : State :=
  match (s.thread tid).task.bind s.runOf with
  | none => (s.discardCommands tid).retire tid
  | some r => if s.allStopped r then s.killTask r else s

/-- STOP_LANDS: a requested stop lands (R261): a SUSPEND's or checkpoint's thread is SUSPENDED, and leaves its rings and its fused set; a thread stopped for
a kill waits for the others of its task (R20, R341). -/
def execStopLands (tid : Nat) (s : State) : Host.Outcome State Fault Refusal :=
  let t := s.thread tid
  let s := if s.canStop tid then
      ((s.updThread tid (fun t => { t with stop := t.stop.map (fun r => { r with landed := true }) })).orphanRings tid).fuseLeave tid else s
  match t.stop with
  | some ⟨.kill, _, landed⟩ => .next (if landed ∨ (s.thread tid).stop ≠ t.stop then s.killIfStopped tid else s)
  | some ⟨_, _, false⟩ => .next (if (s.thread tid).stop ≠ t.stop then s.updThread tid (fun t => { t with st := .suspended, held := t.st }) else s)
  | _ => .next s

/-- A thread of which a SUSPEND, or a checkpoint or kill, had asked a stop runs on (R341, R358): a wait that is over ends, and any other goes on; a stop
asked by the other is asked again. -/
def State.runOn (susp : Bool) (s : State) (tid : Nat) : State :=
  s.updThread tid (fun t =>
    if ¬ t.stop.any (fun q => q.kind.isSuspend == susp) then { t with stop2 := t.stop2.filter (fun q => q.kind.isSuspend != susp) }
    else if t.st = .suspended then
      let waits := t.wait.isSome || t.xwait.isSome
      if waits then { t with st := .waiting, stop := t.stop2, stop2 := none, wdone := false }
      else { t.resumeRun (s.cycle + 1) with stop := t.stop2, stop2 := none, wdone := false }
    else { t with stop := t.stop2, stop2 := none })

/-- A SUSPEND fails after its members have stopped (R358): they run on, and the issuer's status register takes the code. -/
def State.failSuspend (s : State) (die : Nat) (x : Susp) (code : Nat) : State :=
  let s := s.updDie die (fun d => { d with susp := d.susp.filter (fun y => y.issuer != x.issuer || y.task != x.task) })
  let s := x.members.foldl (State.runOn true) s
  match x.issuer with
  | none => s
  | some t => s.updThread t (fun th => th.landLocked s.cycle x.lock (.s x.d) code)

/-- A checkpoint fails: the task is killed where it may be, and drained otherwise (R341). -/
def State.failCheckpoint (s : State) (r : RunTask) : State :=
  let kill := match r.record with | some k => s.recField r.dom k 2 36 1 == 1 | none => false
  let s := s.noteRecord r 16 8
  if kill then s.killTask r else ((s.liveThreads r).foldl (State.runOn false) s).drain r r.onBehalf

/-- STOP_REQUEST_TIMEOUT: a stop that has not landed in every thread within 1,048,576 cycles is withdrawn (R341), or fails its SUSPEND (R358). -/
def execStopRequestTimeout (tid : Nat) (s : State) : Host.Outcome State Fault Refusal :=
  let t := s.thread tid
  match (t.stop.toList ++ t.stop2.toList).find? (fun q => !q.landed && decide (q.at_ + 1048576 ≤ s.cycle)) with
  | none => .next s
  | some q =>
    match q.kind with
    | .suspend i =>
      match (s.die (dieOf tid)).susp.find? (fun x => x.issuer == some i) with
      | none => .next (s.runOn true tid)
      | some x => .next (s.failSuspend (dieOf tid) x 2)
    | _ =>
      match t.task.bind s.runOf with
      | none => .next (s.runOn false tid)
      | some r => .next (((s.liveThreads r).foldl (State.runOn false) s).drain r r.onBehalf)

/-! ## The end of threads and tasks -/

/-- A task completes (R335): its ranges leave the table, its waiters and the successors that its domain reaches are decremented, and its record is DONE
(R324; log entry 69). -/
def State.completeTask (s : State) (die : Nat) (r : RunTask) : State :=
  let s := s.updDie die (fun d => { d with running := d.running.filter (fun x => x.id != r.id) })
  match r.record with
  | none => s
  | some k =>
    let waiters := (List.range 2).flatMap (fun d => ((s.die d).deps.filter (fun x => x.record == k)).flatMap Dep.waiters)
    let s := (List.range 2).foldl (fun s d => s.updDie d (fun x => { x with deps := x.deps.filter (fun y => y.record != k) })) s
    let succs := (List.range 4).filterMap (fun j =>
      let o := sval 16 (s.recField r.dom k 7 (16 * j) 16)
      if o = 0 then none else s.recordAt die r.dom ((placeVa die k : Int) + 128 * o))
    let s := (s.noteRecord r 56 8).onRecord r.dom k (fun s => s.setRecState k 5)
    ((waiters ++ succs).filter (s.recOwned r.dom)).foldl (fun s w => s.decJoin w (placeVa die w) (.quiet none)) s

/-- Everything a RETIRING thread had queued is done (R19, R349). -/
def State.canFree (s : State) (tid : Nat) : Bool :=
  let t := s.thread tid
  let mine (a b : Nat) : Bool := a == tid && b == t.born
  t.st == .retiring && t.memQ == [] && t.mat.queue == [] && t.settled s.cycle && t.faults == [] &&
    !(List.range 2).any (fun d => (s.die d).swaps.any (fun x => mine x.org.tid x.org.born) || (s.die d).cmds.any (fun c => mine c.org.tid c.org.born) || (s.die d).hcopies.any (fun c => mine c.org.tid c.org.born)) &&
    !s.hub.acct.any (fun c => mine c.tid c.born) && !s.hub.tlbis.any (fun c => mine c.tid c.born) && !s.hub.outq.any (fun p => match p.org with | some o => mine o.tid o.born | none => false) &&
    !s.hub.units.any (fun u => u.2.waiters.any (fun w => mine w.1 w.2.1)) && !s.copyHolds tid && !s.writesAway tid &&
    (match t.task.bind s.runOf with
      | none => true
      | some r => r.zero? != some tid || (s.liveThreads r).all (fun x => (s.thread x).st == .retiring || r.freed.contains x))

/-- The sequencer is free (R19, R20): what the thread holds is released, its snapshot with it unless the core has halted; every release counter
advances, so that the next thread starts with every earlier record closed (R310). -/
def State.freeSequencer (s : State) (tid : Nat) : State :=
  let s := (s.clearSlotErrs (coreOf tid) ((s.core (coreOf tid)).arr.heldSlots tid)).engTaken (dieOf tid) (.stream tid)
  let s := s.updCore (coreOf tid) (fun c =>
    let a := (List.range 16).foldl (fun a i => a.releaseOne tid true i) c.arr
    let a := (List.range 64).foldl (fun a i => a.releaseOne tid false i) a
    { c with arr := a, snap := if c.halted then c.snap else c.snap.filter (fun sn => sn.tid != tid) })
  s.updThread tid (fun t => { Thread.free with rel := (t.release 5).rel, ord := t.ord, nextId := t.nextId, born := t.born })

/-- A thread of a task has left its sequencer; with the last one the task completes, unless it was killed (R20, R335). -/
def State.leaveTask (s : State) (tid id : Nat) : State :=
  let s := s.updRun id (fun r => { r with freed := r.freed ++ [tid] })
  match s.runOf id with
  | none => s
  | some r => if r.threads.all (fun t => r.freed.contains t) ∧ ¬ r.killed then s.completeTask (id % 2) r else s

/-- THREAD_FREE (R19, R20, R335). -/
def execThreadFree (tid : Nat) (s : State) : Host.Outcome State Fault Refusal :=
  if ¬ s.canFree tid then .next s
  else
    let task := (s.thread tid).task
    let s := s.freeSequencer tid
    match task with
    | none => .next s
    | some id => .next (s.leaveTask tid id)

/-- A task whose threads have gone is ready again, with its SEQ and the cycles it had waited (R336, R342). -/
def State.requeue (s : State) (die : Nat) (r : RunTask) (k : Nat) (start : Start) : State :=
  let s := s.updDie die (fun d => { d with running := d.running.filter (fun x => x.id != r.id) })
  let prio := if s.recOwned r.dom k then s.dwField k 2 32 4 else r.prio
  (s.noteRecord r 16 8).enqueueReady die ⟨k, r.dom, prio, r.seq, s.cycle - r.waited, r.aged, none, start, r.ranges⟩

/-- KILL_REQUEUE: a killed task k, all its threads free, is re-queued with JOIN 0 (R20, R342). -/
def execKillRequeue (die k : Nat) (s : State) : Host.Outcome State Fault Refusal :=
  match (s.die die).running[k]? with
  | none => .next s
  | some r =>
    if ¬ r.killed ∨ ¬ r.threads.all (fun t => r.freed.contains t) then .next s
    else
      match r.record with
      | none => .next (s.updDie die (fun d => { d with running := d.running.filter (fun x => x.id != r.id) }))
      | some p => .next ((s.onRecord r.dom p (fun s => (s.setRecJoin p 0).setRecState p 2)).requeue die r p .fresh)

/-! ## Commands of the die engine -/

/-- A command to the die engine, with the cycles until it reaches it; its destinations are interlocked (R52, R331). -/
def State.dieCmd (s : State) (op : DieOp) (delay : Nat) (dests : List Dest) : State :=
  let id := s.me.nextId
  let o := s.origin
  let s := s.updMe (fun t => { dests.foldl (fun t d => t.lock s.cur.slot d id) t with nextId := id + 1 })
  s.updDie (dieOf s.cur.tid) (fun d => { d with cmds := d.cmds ++ [⟨o, id, s.cycle + delay, op⟩] })

/-- The record an instruction names, or its precise trap (R329, R332). -/
def State.withRecord (s : State) (a : BitVec 5) (f : State → Nat → State) : State :=
  match s.dieObject .atomic 128 ((s.s a).toNat % 2 ^ 48) with
  | .error i => s.raise i
  | .ok r => f s r

/-- TSUBMIT (R330): the thread always waits. -/
def execTsubmit (gd : Guard) (d a : BitVec 5) (s : State) : Host.Outcome State Fault Refusal :=
  guarded gd s (fun s => s.withRecord a (fun s r => (s.dieCmd (.submit r d.toNat none) 40 [.s d.toNat]).waitX s.me.nextId))

/-- TSIGNAL (R332): the decrement is carried out at the record's bank. -/
def execTsignal (gd : Guard) (a : BitVec 5) (s : State) : Host.Outcome State Fault Refusal :=
  guarded gd s (fun s => s.withRecord a (fun s r => s.dieCmd (.signal r s.me.dom) (bankDelay (dieOf s.cur.tid) r) []))

/-- LAUNCH, blocking (R334). -/
def execLaunch (gd : Guard) (a : BitVec 5) (o : BitVec 1) (s : State) : Host.Outcome State Fault Refusal :=
  guarded gd s (fun s => s.withRecord a (fun s r => (s.dieCmd (.launch r (o == 1) none) 1 []).waitX s.me.nextId))

/-- LAUNCH, non-blocking (R334). -/
def execLaunchNb (gd : Guard) (d a : BitVec 5) (o : BitVec 1) (s : State) : Host.Outcome State Fault Refusal :=
  guarded gd s (fun s => s.withRecord a (fun s r => s.dieCmd (.launch r (o == 1) (some d.toNat)) 1 [.g d.toNat]))

/-- CSTAGE (R345): the target is read as uint64. -/
def execCstage (gd : Guard) (a : BitVec 5) (i : BitVec 12) (kw : Option (BitVec 32)) (s : State) : Host.Outcome State Fault Refusal :=
  guarded gd s (fun s => s.dieCmd (.cstage (s.s a + immS12 i kw).toNat) 1 [.sys 0x014])

/-- CSCHED (R345). -/
def execCsched (gd : Guard) (a : BitVec 5) (s : State) : Host.Outcome State Fault Refusal :=
  guarded gd s (fun s => s.dieCmd (.csched (s.s a)) 1 [.sys 0x014])

/-- CARRIVE (R352): its value and address are checked at issue, as an atomic of its bank (R354); it arrives in the order of the thread's accesses. -/
def execCarrive (gd : Guard) (a b : BitVec 5) (s : State) : Host.Outcome State Fault Refusal :=
  guarded gd s (fun s =>
    let n := (s.s b).toInt
    let va := (s.s a).toNat % 2 ^ 48
    if (2 ^ 47 : Nat) - 1 < n.natAbs then s.illegal 0x01 6
    else
      match s.dieObject .atomic 32 va with
      | .error i => s.raise i
      | .ok key => s.access ⟨.atomic, true, none, 6⟩ 32 [(va, 16)] (fun s _ => s.enqueue (.carrive key n) (bankDelay (dieOf s.cur.tid) key) []))

/-- AWAIT (R107): the thread waits for the object's phase, which its bank tests in every cycle; a corrected error in it is counted once, and an
uncorrectable one traps (R305). -/
def execAwait (gd : Guard) (d a : BitVec 5) (i : BitVec 12) (kw : Option (BitVec 32)) (s : State) : Host.Outcome State Fault Refusal :=
  guarded gd s (fun s =>
    match s.dieObject .read 32 (s.ea a i kw).toNat with
    | .error i => s.raise i
    | .ok key =>
      match s.badWord key 16 with
      | some w => s.raise (trapInfo .uncorrectableMemory 6 0 (BitVec.ofNat 48 (placeVa (dieOf s.cur.tid) w)))
      | none => (s.corrected s.cur.tid s.me.dom.toNat [(key, 16)]).waitFor (.await key ((s.s d).setWidth 16)))

/-- The test of a registered wait, if it is an AWAIT (R24, R108, R109, R353): a pass ends the wait; a flagged object faults the thread that stands at it, once at
a time. -/
def State.awaitOne (tid : Nat) (s : State) (w : Wait) : State :=
  let t := s.thread tid
  match w with
  | .await key v =>
    match s.objPoll (dieOf tid) key v with
    | .ok ok => if ok then s.wakeIf tid (· == w) else s
    | .error i =>
      if (t.st = .waiting ∨ t.paused) ∧ t.nowWait = some w ∧ ¬ t.faults.any (fun f => f.info.cause == i.cause) then
        let s := if i.cause = .uncorrectableMemory then s.memError 0x0101 ((s.badWord key 16).getD key) tid t.dom.toNat else s
        s.postFault ⟨tid, t.born, t.pc, t.ord⟩ i
      else s
  | _ => s

/-- The AWAITs of a thread are tested. -/
def State.awaitTest (s : State) (tid : Nat) : State := (s.thread tid).waits.foldl (State.awaitOne tid) s

/-! ## Applying submissions and launches -/

/-- Two sets of ranges conflict: true, anti or output dependence (R330). -/
def depends (p new : List DepRange) : Bool :=
  p.any (fun a => new.any (fun b => decide (a.lo < b.lo + b.len) && decide (b.lo < a.lo + a.len) && ((a.w && b.r) || (a.r && b.w) || (a.w && b.w))))

/-- A submission at the die engine (R330), whose record its domain must reach (R324). -/
def State.applySubmit (s : State) (die : Nat) (c : DieCmd) (r d : Nat) : State :=
  let th := s.thread c.org.tid
  match s.recTrap die th.dom r r 128, s.recCheck r die th.dom false false with
  | some (i, w), _ => (s.noteWord c.org.tid th.dom w).failDie die c i
  | none, check =>
  let s := s.corrected c.org.tid th.dom.toNat [(r, 128)]
  match check with
  | some sub => s.failDie die c (launchInfo (placeVa die r) sub)
  | none =>
    let new := s.recRanges r
    let deps := (s.die die).deps
    let ps := deps.filter (fun p => p.dom == th.dom && depends p.ranges new)
    let used := (deps.map (fun p => p.ranges.length)).foldl (· + ·) 0
    if 1024 < used + new.length ∨ ps.any (fun p => decide (8 ≤ p.waiters.length)) then
      s.updDie die (fun x => { x with cmds := x.cmds.map (fun y =>
        if y.org.tid = c.org.tid ∧ y.id = c.id then { y with op := .submit r d (some (s.cycle + 256)) } else y) })
    else
      let hit (p : Dep) : Bool := ps.any (fun q => q.record == p.record)
      let s := s.updDie die (fun x =>
        { x with deps := x.deps.map (fun p => if hit p then { p with waiters := p.waiters ++ [r] } else p) ++
                         (if new = [] then [] else [⟨r, th.dom, new, []⟩]) })
      let s := (s.setDw r 12 16 6 th.dom.toNat).setRecJoin r (s.recJoin r + ps.length)
      let s := if s.recJoin r = 0 then s.becomeReady die r th.dom new
               else (s.setRecState r 1).updDie die (fun x => { x with blocked := x.blocked ++ [⟨r, th.dom, new⟩] })
      let s := s.updThread c.org.tid (fun t => t.landLocked s.cycle c.id (.s d) ps.length)
      (s.dropCmd die c).endX c

/-- A launch at the die engine (R334), whose record its domain must reach (R324); a blocking one stays until an entry of the store is free. -/
def State.applyLaunch (s : State) (die : Nat) (c : DieCmd) (r : Nat) (od : Bool) (nb : Option Nat) : State :=
  let target := if od then 1 - die else die
  let answer (s : State) (ok : Bool) : State :=
    match nb with
    | some g => s.updThread c.org.tid (fun t => t.landLocked s.cycle c.id (.g g) (b2n ok))
    | none => s
  if 4096 ≤ ((s.die target).pending).length then
    match nb with
    | some _ => ((answer s false).dropCmd die c).endX c
    | none => s
  else if (s.recTrap die (s.thread c.org.tid).dom r (r + 16) 8).isSome then
    match s.recTrap die (s.thread c.org.tid).dom r (r + 16) 8 with
    | some (i, w) => (s.noteWord c.org.tid (s.thread c.org.tid).dom w).failDie die c i
    | none => s
  else if s.recState r ≠ 0 ∧ s.recState r ≠ 5 then s.failDie die c (launchInfo (placeVa die r) 0x03)
  else if od ∧ (List.range 256).all (fun k => !(s.core (256 * target + k)).inService) then
    s.failDie die c (launchInfo (placeVa die r) 0x09)
  else
    let s := ((s.corrected c.org.tid (s.thread c.org.tid).dom.toNat [(r + 16, 8)]).setRecState r 6).updDie target (fun x => { x with pending := x.pending ++ [⟨r, some c.org, (s.thread c.org.tid).dom⟩] })
    ((answer s true).dropCmd die c).endX c

/-- PENDING_LAUNCH_DRAIN: every 4 cycles the oldest entry of a store is checked and becomes READY or BLOCKED (R324, R334). -/
def execPendingLaunchDrain (die : Nat) (s : State) : Host.Outcome State Fault Refusal :=
  match (s.die die).pending with
  | [] => .next s
  | p :: ps =>
    if s.cycle < (s.die die).drained + 4 then .next s
    else
      let s := s.updDie die (fun d => { d with pending := ps, drained := s.cycle })
      let va := placeVa (match p.org with | some o => dieOf o.tid | none => die) p.record
      let trap := match s.recTrap die p.dom p.record p.record 128 with
        | some (i, w) => some ({ i with badaddr := BitVec.ofNat 48 (match w with | some w => va + (w - p.record) | none => va) }, w)
        | none => (s.recCheck p.record die p.dom true false).map (fun sub => (launchInfo va sub, none))
      match trap with
      | some (i, w) =>
        let s := s.noteWord noTid p.dom w
        match p.org.filter s.hears with
        | some o => .next (s.postFault o i)
        | none => .next (s.event die 0x0141 none noTid p.dom.toNat (some (BitVec.ofNat 64 (placeVa die p.record))) none)
      | none =>
        let s := (s.corrected noTid p.dom.toNat [(p.record, 128)]).setDw p.record 12 16 6 p.dom.toNat
        let new := s.recRanges p.record
        if s.recJoin p.record = 0 then .next (s.becomeReady die p.record p.dom new)
        else .next ((s.setRecState p.record 1).updDie die (fun x => { x with blocked := x.blocked ++ [⟨p.record, p.dom, new⟩] }))

/-- TSUBMIT_RETRY: 256 cycles after its refusal the submission's bundle issues again (R330); that of a thread which has trapped meanwhile, or which its
handler has ended, goes on being applied (R20, R24), and that of a stopped one issues again after its RESUME (R261). -/
def execTsubmitRetry (tid : Nat) (s : State) : Host.Outcome State Fault Refusal :=
  let t := s.thread tid
  let due (c : DieCmd) : Bool :=
    c.org.tid == tid && c.org.born == t.born && (match c.op with | .submit _ _ (some u) => decide (u ≤ s.cycle) | _ => false)
  match (s.die (dieOf tid)).cmds.find? due with
  | none => .next s
  | some c =>
    let mine := if t.paused then t.inner.head?.bind Pause.xwait else t.xwait
    if mine = some c.id ∧ (t.st = .waiting ∨ t.paused) then
      let back := ((if t.paused then t.inner.head?.map Pause.back else t.back)).getD (t.pc, t.loops)
      let s := (s.dropCmd (dieOf tid) c).updThread tid (fun t => { t.unlock c.id with pc := back.1, loops := back.2 })
      .next (s.wakeX tid c.id)
    else if t.st ≠ .suspended then
      let again (x : DieCmd) : DieCmd :=
        match x.op with
        | .submit r d _ => if x.org.tid = tid ∧ x.id = c.id then { x with op := .submit r d none } else x
        | _ => x
      .next (s.updDie (dieOf tid) (fun d => { d with cmds := d.cmds.map again }))
    else .next s

/-- CSTAGE and CSCHED at the engine (R345). -/
def State.applyStage (s : State) (die : Nat) (c : DieCmd) (t : Nat) : State :=
  let s := (s.dropCmd die c).endX c
  match (s.thread c.org.tid).task with
  | none => s
  | some id => (s.updRun id (fun r => { r with stage := min 65535 (max r.stage t) })).startEntries id

def State.applySched (s : State) (die : Nat) (c : DieCmd) (w : DWord) : State :=
  let bad : Option Nat := if nbits w.toNat 60 4 ≠ 0 then some 0x01 else if nbits w.toNat 48 12 ≠ 0 ∧ nbits w.toNat 0 48 % 64 ≠ 0 then some 0x07 else none
  match bad, (s.thread c.org.tid).task with
  | some sub, task =>
    let r := (task.bind s.runOf).bind RunTask.record
    s.failDie die c (launchInfo ((r.map (placeVa (dieOf c.org.tid))).getD 0) sub)
  | none, none => (s.dropCmd die c).endX c
  | none, some id => (((s.dropCmd die c).endX c).updRun id (fun r => { r with sched := w, stage := 0, next := 0 })).startEntries id

end Sys2Proof.Machine
end

