-- ==== Sys2Proof/Machine/Suspend.lean ====
section
/-! DEFINITION. SUSPEND, RESUME, HCOPY and HDISCARD, and the writing of a scheduler's checkpoint (R342, R356 to R364). -/

namespace Sys2Proof.Machine

open Sys2Proof

/-- The threads a SUSPEND stops: the issuer's group in member-index order, or the issuer alone (R358). -/
def State.suspendMembers (s : State) (tid : Nat) : List Nat :=
  match (s.thread tid).grp with
  | none => [tid]
  | some (g, _) => (tget ⟨0, [], []⟩ (s.die (dieOf tid)).groups g).members.map Prod.snd

/-- The carry ranges of a header. -/
def State.hamCarry (s : State) (h : Ham) : List DWord := [8, 9, 10, 11].map (fun i => BitVec.ofNat 64 (s.hamDw h i))

/-- SIZE of a hamper's header, where the header can be read. -/
def State.hamLimit (s : State) (h : Ham) (atF : Bool) : Nat :=
  if h.va % 4096 ≠ 0 ∨ (s.engFault h.die h.got h.dom atF [.read, .write] h.va 512).isSome then 0 else nbits (s.hamDw h 4) 0 32

/-- Step 1 of R358: the base, the header's SIZE, the pages, the required size, and the carry ranges; the size if it passes. -/
def State.vetSuspend (s : State) (h : Ham) (atF : Bool) (members : List Nat) : Option Nat :=
  if h.va % 4096 ≠ 0 ∨ (s.engFault h.die h.got h.dom atF [.read, .write] h.va 512).isSome then none
  else
    let size := s.hamLimit h atF
    let carry := s.hamCarry h
    if (s.engFault h.die h.got h.dom atF [.read, .write] h.va size).isSome ∨ size < s.hamSize members carry ∨ ¬ (carryOf carry).all carryOk then none
    else some size

/-- SUSPEND (R358): step 1, then the stop of the issuer and of every other member. -/
def execSuspend (gd : Guard) (d a : BitVec 5) (s : State) : Host.Outcome State Fault Refusal :=
  guarded gd s (fun s =>
    let tid := s.cur.tid
    let die := dieOf tid
    let h : Ham := ⟨die, s.me.dom, (s.s a).toNat % 2 ^ 48, false, s.me.walked⟩
    let members := s.suspendMembers tid
    let busy := (s.die die).susp.any (fun x => x.members.any (fun m => members.contains m))
    s.withPages h 512 (fun s => s.withPages h (s.hamLimit h s.me.atF) (fun s =>
    match (if busy then none else s.vetSuspend h s.me.atF members) with
    | none => s.postVar (.s d.toNat) 1
    | some size =>
      let id := s.me.nextId
      let x : Susp := { issuer := some tid, d := d.toNat, lock := id, task := 0, dom := s.me.dom, va := h.va, pool := false, size := size,
                        carry := s.hamCarry h, pins := s.pinsOf h size, members := members, start := s.cycle, writing := none }
      let s := s.updDie die (fun y => { y with susp := y.susp ++ [x] })
      let s := (members.filter (· != tid)).foldl (fun s m =>
        s.updThread m (·.askStop ⟨.suspend tid, s.cycle, false⟩)) s
      let s := s.updMe (fun t =>
        { t.lock s.cur.slot (.s d.toNat) id with
          nextId := id + 1, st := .suspended, held := .running, stop := some ⟨.suspend tid, s.cycle, true⟩, stop2 := t.stop })
      (s.orphanRings tid).fuseLeave tid)))

/-- A copy uses the scratchpad of a member's core (R358). -/
def Copy.usesCores (c : Copy) (cores : List Nat) : Bool := c.ranges.any (fun r => cores.contains r.1)

/-- The started copies that are recorded as detached: those of tasks whose member 0 is among the members (R349, R358). -/
def State.detachable (s : State) (members : List Nat) : List Copy :=
  (List.range 2).flatMap (fun d => (s.die d).copies.filter (fun c => !c.detached && members.any (fun m => c.tidOf 0 == some m)))

/-- A command stands in a queue of an engine that a failed command has halted (R246). -/
def State.stuckBehind (s : State) (die : Nat) (c : DieCmd) : Bool :=
  c.isHalted || (s.die die).cmds.any (fun h => h.isHalted && h.org.tid == c.org.tid && h.org.born == c.org.born && decide (c.org.bundle ≤ h.last))

/-- Step 3 of R358: everything the members have issued has run to its end, but what a fault has halted; and no entry of a member's task that may start is still to be read (R344, R364). -/
def State.membersDrained (s : State) (members : List Nat) : Bool :=
  members.all (fun m =>
    let t := s.thread m
    t.memQ == [] && t.mat.queue.all (fun c => match c.st with | .failed _ => true | _ => t.mat.halted && !c.started) && t.flight == [] && t.due == [] &&
      t.parked == [] && !s.writesAway m &&
      (List.range 2).all (fun d => (s.die d).cmds.all (fun c => c.org.tid != m || t.xwait == some c.id || s.stuckBehind d c) && (s.die d).hcopies.all (fun c => c.org.tid != m))) &&
    members.all (fun m => !(((s.thread m).task.bind s.runOf).map RunTask.fetching).getD false) &&
    (List.range 2).all (fun d => (s.die d).copies.all (fun c => !c.usesCores (members.map coreOf))) &&
    decide ((s.detachable members).length ≤ 16)

/-- A drained command has trapped: its fault is pending. -/
def State.drainFault (s : State) (members : List Nat) : Bool := members.any (fun m => (s.thread m).faults != [] || (s.thread m).mat.halted)

/-- The hamper being written, through its pinned translations (R358). -/
def Susp.ham (x : Susp) (die : Nat) : Ham := ⟨die, x.dom, x.va, x.pool, x.pins⟩

/-- The header of a hamper being written, in a state (R358). -/
def State.suspHeader (s : State) (die : Nat) (x : Susp) (st gen used : Nat) (det : List (Nat × Nat)) : List Byte :=
  let run := (((x.members.head?).bind (fun t => (s.thread t).task)).bind s.runOf)
  let src := match x.issuer, run.bind RunTask.record with | none, some r => placeVa die r | _, _ => 0
  s.hamHeader (x.ham die) x.members x.carry x.size used src gen st ((run.map (fun r => r.sched.toNat)).getD 0)
    ((run.map RunTask.stage).getD 0) ((run.map RunTask.next).getD 0) det

/-- A change of an entry of the die's list. -/
def State.updSusp (s : State) (die : Nat) (x : Susp) (f : Susp → Susp) : State :=
  s.updDie die (fun d => { d with susp := d.susp.map (fun y => if y.issuer = x.issuer ∧ y.task = x.task then f y else y) })

/-- Writing begins: the header goes out in state WRITING; the rest takes 512 bytes a cycle. -/
def State.beginWriting (s : State) (die : Nat) (x : Susp) : State :=
  let used := s.hamSize x.members x.carry
  let s := s.hamWrite (x.ham die) 0 (s.suspHeader die x 0 0 used [])
  s.updSusp die x (fun y => { y with writing := some (used, s.cycle + (used + 511) / 512, s.hamBad x.members x.carry) })

/-- The header still stands as the writer left it, in WRITING: the swap to SEALED finds what it expects (R357). -/
def State.stillWriting (s : State) (h : Ham) : Bool := decide (s.hamState h = 0 ∧ s.hamDw h 1 = 0 ∧ s.hamDw h 2 % 2 ^ 48 = h.va)

/-- The last byte is written: the hamper is SEALED with the next GEN (R358); the copies it records are detached. -/
def State.seal (s : State) (die : Nat) (x : Susp) (used : Nat) : State :=
  let h := x.ham die
  let det := s.detachable x.members
  let gen := (s.hub.gen + 1) % 2 ^ 64
  let s := s.updHub (fun u => { u with gen := gen })
  let s := s.hamWrite h 512 (s.hamBody x.members x.carry (x.issuer.map (fun t => (t, x.d))))
  let s := s.hamWrite h 0 (s.suspHeader die x 1 gen used (det.map (fun c => (c.addr, c.cobj))))
  (List.range 2).foldl (fun s d => s.updDie d (fun y =>
    { y with copies := y.copies.map (fun c => if det.any (fun e => e.owner == c.owner) then { c with detached := true } else c) })) s

/-- The members of a sealed hamper enter FREE, and their groups are dissolved (R19, R20, R358). -/
def State.freeMembers (s : State) (members : List Nat) : State :=
  let s := members.foldl (fun s m =>
    match (s.thread m).grp with
    | none => s
    | some (g, _) => s.updDie (dieOf m) (fun d =>
        let gs := d.groups.map (fun e =>
          if e.1 = g then (e.1, { e.2 with members := e.2.members.filter (fun p => p.2 != m), arrived := e.2.arrived.filter (· != m) }) else e)
        { d with groups := gs.filter (fun e => e.2.members != []) })) s
  members.foldl (fun s m =>
    let t := s.thread m
    let s := s.updDie (dieOf m) (fun d => { d with cmds := d.cmds.filter (fun c => !(c.org.tid == m && t.xwait == some c.id)) })
    s.freeSequencer m) s

/-- SUSPEND_COMPLETE: entry k of the die's list moves on (R358): once its members have stopped and drained, the size check and the header; once
written, SEALED or POISONED, and the members free. A header that something else has changed while it was WRITING fails the SUSPEND as a poisoned one does:
the model's choice (log entry 79). -/
def execSuspendComplete (die k : Nat) (s : State) : Host.Outcome State Fault Refusal :=
  match (s.die die).susp[k]? with
  | none => .next s
  | some x =>
    match x.issuer with
    | none => .next s
    | some issuer =>
      match x.writing with
      | none =>
        if ¬ x.members.contains issuer then .next (s.failSuspend die x 2)
        else if ¬ x.members.all (fun m => (s.thread m).st == .suspended) ∨ ¬ s.stoppedAll true x.members ∨ ¬ s.membersDrained x.members then .next s
        else if s.drainFault x.members then .next (s.failSuspend die x 3)
        else if x.size < s.hamSize x.members x.carry then .next (s.failSuspend die x 6)
        else if s.hamTested (x.ham die) 512 then .next s
        else .next (s.beginWriting die x)
      | some (used, u, bad) =>
        if s.cycle < u ∨ s.hamTested (x.ham die) used then .next s
        else if bad ∨ ¬ s.stillWriting (x.ham die) then .next ((s.swapHamState (x.ham die) 0 0 5).failSuspend die x 5)
        else
          let tasks := x.members.map (fun m => (m, (s.thread m).task))
          let s := (s.seal die x used).freeMembers x.members
          let s := s.updDie die (fun d => { d with susp := d.susp.filter (fun y => y.issuer != x.issuer) })
          .next (tasks.foldl (fun s p => match p.2 with | some id => s.leaveTask p.1 id | none => s) s)

/-! ## Checkpoints (R342) -/

/-- The carry set of a checkpoint: each declared range that lies in the scratchpad, clipped, for every member (R326, R342). -/
def RunTask.carry (r : RunTask) : List DWord :=
  (r.ranges.filter (fun d => decide (64 * d.lo < 0xF6000))).map (fun d =>
    BitVec.ofNat 64 (64 * d.lo + (min (64 * (d.lo + d.len)) 0xF6000 - 64 * d.lo) * 2 ^ 20 + 127 * 2 ^ 40))

/-- The first free range of the pool, in units of 4 KiB. -/
def Pool.room (p : Pool) (n : Nat) : Option Nat :=
  let starts := p.base :: p.used.map (fun u => u.1 + u.2)
  starts.find? (fun a => decide (a + n ≤ p.base + p.bytes) && p.used.all (fun u => decide (a + n ≤ u.1) || decide (u.1 + u.2 ≤ a)))

/-- The hamper's place for a checkpoint: at HAMP, or in the die's pool; `none` fails it (R342). -/
def State.checkpointPlace (s : State) (die : Nat) (r : RunTask) (record : Nat) (members : List Nat) (carry : List DWord) : Option (Susp × List (Nat × Nat)) :=
  let got := s.engGot die (.checkpoint r.id)
  let hamp := s.recField r.dom record 14 0 48
  let need := s.hamSize members carry
  let x (va size : Nat) (pool : Bool) : Susp :=
    { issuer := none, d := 0, lock := 0, task := r.id, dom := r.dom, va := va, pool := pool, size := size, carry := carry,
      pins := if pool then [] else s.pinsOf ⟨die, r.dom, va, false, got⟩ size, members := members, start := s.cycle, writing := none }
  if hamp ≠ 0 then
    let h : Ham := ⟨die, r.dom, hamp, false, got⟩
    if hamp % 4096 ≠ 0 ∨ (s.engFault die got r.dom true [.read, .write] hamp 512).isSome then none
    else
      let size := nbits (s.hamDw h 4) 0 32
      if (s.engFault die got r.dom true [.read, .write] hamp size).isSome ∨ size < need then none else some (x hamp size false, [])
  else
    let n := (need + 4095) / 4096 * 4096
    ((s.die die).pool.room n).map (fun a => (x a n true, [(a, n)]))

/-- A checkpoint is given up: the pool's space returns, and the task is killed or drained (R341). -/
def State.giveUp (s : State) (die : Nat) (r : RunTask) (x : Susp) : State :=
  let s := s.updDie die (fun d => { d with susp := d.susp.filter (fun y => !(y.issuer.isNone && y.task == x.task)),
                                           pool := { d.pool with used := d.pool.used.filter (fun u => !(x.pool && u.1 == x.va)) } })
  s.failCheckpoint r

/-- CHECKPOINT_WRITE: running task k, its threads stopped for a checkpoint, is written and re-queued CHECKPOINTED (R342). -/
def execCheckpointWrite (die k : Nat) (s : State) : Host.Outcome State Fault Refusal :=
  match (s.die die).running[k]? with
  | none => .next s
  | some r =>
    match r.record, r.stopping with
    | some record, some .checkpoint =>
      match (s.die die).susp.find? (fun x => x.issuer.isNone && x.task == r.id) with
      | none =>
        let members := s.liveThreads r
        let h : Ham := ⟨die, r.dom, s.recField r.dom record 14 0 48, false, s.engGot die (.checkpoint r.id)⟩
        let missing := if h.va = 0 then [] else if s.hamMissing h 512 ≠ [] then s.hamMissing h 512 else s.hamMissing h (s.hamLimit h true)
        if members = [] ∨ ¬ members.all (fun m => (s.thread m).st == .suspended) ∨ ¬ s.stoppedAll false members ∨ ¬ s.membersDrained members then .next s
        else if s.drainFault members ∨ s.sharesGroup r then .next (s.failCheckpoint r)
        else if h.va ≠ 0 ∧ missing = [] ∧ s.hamTested h (max 512 (s.hamLimit h true)) then .next s
        else if missing ≠ [] then .next (s.engAsk die (.checkpoint r.id) r.dom missing)
        else
          let s' := (s.engTaken die (.checkpoint r.id)).noteRecord r 112 8
          match s.checkpointPlace die r record members r.carry with
          | none => .next (s'.failCheckpoint r)
          | some (x, use) =>
            let s := s'.updDie die (fun d => { d with susp := d.susp ++ [x], pool := { d.pool with used := d.pool.used ++ use } })
            .next (s.beginWriting die x)
      | some x =>
        match x.writing with
        | none => .next s
        | some (used, u, bad) =>
          if s.cycle < u ∨ s.hamTested (x.ham die) used then .next s
          else if bad ∨ ¬ s.stillWriting (x.ham die) then .next ((s.swapHamState (x.ham die) 0 0 5).giveUp die r x)
          else
            let s := ((s.seal die x used).freeMembers x.members).updDie die (fun d =>
              { d with susp := d.susp.filter (fun y => !(y.issuer.isNone && y.task == x.task)) })
            let s := s.onRecord r.dom record (fun s => (s.setDw record 14 0 48 x.va).setRecState record 4)
            .next (s.requeue die r record (.checkpointed x.pool))
    | _, _ => .next s

/-! ## RESUME, HCOPY and HDISCARD -/

/-- The hamper an instruction names, at its thread's domain. -/
def State.namedHam (s : State) (a : BitVec 5) : Ham := ⟨dieOf s.cur.tid, s.me.dom, (s.s a).toNat % 2 ^ 48, false, s.me.walked⟩

/-- The bytes in use of a hamper whose header passes its checks. -/
def State.hamUsed (s : State) (h : Ham) (atF : Bool) : Nat := if (s.hamCheck h atF true true).isSome then 0 else nbits (s.hamDw h 4) 32 32

/-- A swap of a hamper's STATE joins those of the cycle (R357). -/
def State.addSwap (s : State) (h : Ham) (op : SwapOp) : State :=
  s.updDie h.die (fun d => { d with swaps := d.swaps ++ [⟨s.origin, h.dom, s.me.atF, h.va, s.hamState h, s.hamDw h 1, h.va, s.pinsOf h 512, op⟩] })

/-- A fault of a thread's RESUME, HCOPY or HDISCARD: its queue on the engine halts, and an uncorrectable error met is reported (R246, R305, R356). -/
def State.failHam (s : State) (h : Ham) (o : Origin) (i : TrapInfo) : State :=
  (if i.cause = .uncorrectableMemory then s.noteHam h o.tid (i.badaddr.toNat - h.va) 4 else s).failAt (dieOf o.tid) o i

/-- RESUME (R302, R360, R363): the checks of the header, and the permissions of the bytes in use; the swap to RESUMING follows at the end of the cycle. -/
def execResume (gd : Guard) (a : BitVec 5) (p : BitVec 4) (s : State) : Host.Outcome State Fault Refusal :=
  guarded gd s (fun s =>
    let h := s.namedHam a
    s.withPages h 512 (fun s => s.withPages h (s.hamUsed h s.me.atF) (fun s =>
    match s.resumeCheck h s.me.atF, s.engFault h.die h.got h.dom s.me.atF [.read, .write] h.va (s.hamUsed h s.me.atF) with
    | some i, _ => s.failHam h s.origin i
    | none, some (va, sub, level) => s.failHam h s.origin (engInfo sub level true va)
    | none, none => (s.noteHam h s.cur.tid 0 512).addSwap h (.resume p.toNat))))

/-- The checks of HCOPY (R361): its source's header and STATE, its destination's base and pages, and its source's bytes. -/
def State.hcopyCheck (s : State) (src dst : Ham) (atF : Bool) : Option TrapInfo :=
  let bad : VAddr := BitVec.ofNat 48 src.va
  match s.hamCheck src atF (src.va == dst.va) false with
  | some i => some i
  | none =>
    let used := nbits (s.hamDw src 4) 32 32
    match s.hamState src with
    | 0 => some (trapInfo .doubleResume 6 3 bad)
    | 4 => some (trapInfo .doubleResume 6 2 bad)
    | 5 => some (trapInfo .hamperPoisoned 6 1 bad)
    | _ =>
      if dst.va % 4096 ≠ 0 then some (trapInfo .misaligned 6 0 (BitVec.ofNat 48 dst.va))
      else
        match s.engFault dst.die dst.got dst.dom atF [.read, .write] dst.va used, s.engFault src.die src.got src.dom atF [.read, .write] src.va used with
        | some (va, sub, level), _ => some (engInfo sub level true va)
        | none, some (va, sub, level) => some (engInfo sub level false va)
        | none, none => none

/-- HCOPY (R361). -/
def execHcopy (gd : Guard) (d a b : BitVec 5) (s : State) : Host.Outcome State Fault Refusal :=
  guarded gd s (fun s =>
    let src := s.namedHam a
    let dst := s.namedHam b
    let used := s.hamUsed src s.me.atF
    s.withPages src 512 (fun s => s.withPages src used (fun s => s.withPages dst used (fun s =>
    match s.hcopyCheck src dst s.me.atF with
    | some i => s.failHam src s.origin i
    | none =>
      let s := s.noteHam src s.cur.tid 0 512
      let id := s.me.nextId
      let c : HCopy := { org := s.origin, d := d.toNat, lock := id, dom := s.me.dom, atF := s.me.atF, src := src.va, dst := dst.va, used := used,
                         pins := s.pinsOf dst used, from_ := s.pinsOf src used, header := s.hamRead src 0 512, seen := s.hamStamp dst, until_ := s.cycle + (used + 511) / 512 }
      (s.updMe (fun t => { t.lock s.cur.slot (.s d.toNat) id with nextId := id + 1 })).updDie (dieOf s.cur.tid) (fun x => { x with hcopies := x.hcopies ++ [c] })))))

/-- A command of a thread ends with a fault and without its result (R246). -/
def State.loseSwap (s : State) (die : Nat) (o : Origin) (lock : Nat) (i : TrapInfo) : State :=
  (if s.hears o then s.updThread o.tid (fun t => t.unlock lock) else s).failAt die o i

/-- HCOPY_COMPLETE: the bytes have moved; the swap that makes the destination SEALED follows at the end of the cycle (R357, R361). An uncorrectable error in
the bytes read traps the thread, and the destination's header stays (R305; log entry 79). -/
def execHcopyComplete (die k : Nat) (s : State) : Host.Outcome State Fault Refusal :=
  match (s.die die).hcopies[k]? with
  | none => .next s
  | some c =>
    let src : Ham := ⟨die, c.dom, c.src, false, c.from_⟩
    let dst : Ham := ⟨die, c.dom, c.dst, false, c.pins⟩
    if s.cycle < c.until_ ∨ s.hamTested src c.used ∨ s.hamTested dst c.used then .next s
    else
      let body := s.hamRead src 512 (c.used - 512)
      let bad := s.hamWord src 512 (c.used - 512)
      let s := (s.noteHam src c.org.tid 512 (c.used - 512)).updDie die (fun x => { x with hcopies := delNth x.hcopies k })
      match bad with
      | some w => .next (s.loseSwap die c.org c.lock (trapInfo .uncorrectableMemory 6 0 (BitVec.ofNat 48 w)))
      | none =>
        .next ((s.hamWrite dst 512 body).updDie die (fun x =>
          { x with swaps := x.swaps ++ [⟨c.org, c.dom, c.atF, c.dst, c.seen.1, c.seen.2.1, c.seen.2.2, c.pins, .copy c.d c.lock c.header⟩] }))

/-- HDISCARD (R362): the checks of the header; at the end of the cycle s[d] takes the STATE read, and SEALED or POISONED becomes DISCARDED. -/
def execHdiscard (gd : Guard) (d a : BitVec 5) (s : State) : Host.Outcome State Fault Refusal :=
  guarded gd s (fun s =>
    let h := s.namedHam a
    s.withPages h 512 (fun s =>
    match s.hamCheck h s.me.atF false true with
    | some i => s.failHam h s.origin i
    | none =>
      let id := s.me.nextId
      ((s.noteHam h s.cur.tid 0 512).addSwap h (.discard d.toNat id)).updMe (fun t => { t.lock s.cur.slot (.s d.toNat) id with nextId := id + 1 })))

/-! ## The swaps of a cycle (R357) -/

/-- One swap at its header's home, which compares STATE, GEN and SELF (R357, R360 to R362): a RESUME's takes SEALED to RESUMING, and the hamper joins the ready
queue of its die as a task with no record; an HCOPY's writes the new header with the next GEN, which s[d] takes. One that finds another header has lost, and
traps DOUBLE_RESUME (R363); that of an HDISCARD only answers with the STATE it finds (log entry 79). -/
def State.applySwap (s : State) (die : Nat) (x : HSwap) : State :=
  let h : Ham := ⟨die, x.dom, x.va, false, x.pins⟩
  let st := s.hamState h
  let hit := s.hamStamp h = (x.st, x.gen, x.self)
  let lost : TrapInfo := trapInfo .doubleResume 6 1 (BitVec.ofNat 48 x.va)
  match x.op with
  | .resume prio =>
    if hit then
      let target := nbits (s.hamDw h 0) 12 1
      let seq := (s.die target).seq
      let s := (s.setHamState h 2).updDie target (fun d => { d with seq := seq + 1 })
      s.enqueueReady target ⟨0, BitVec.ofNat 6 (s.hamDw h 3), prio, seq, s.cycle, 0, none, .resume die x.va x.dom x.atF x.gen, []⟩
    else s.failAt die x.org lost
  | .discard d lock =>
    let t := s.thread x.org.tid
    let s := if hit ∧ (st = 1 ∨ st = 5) then s.setHamState h 4 else s
    if t.st ≠ .free ∧ t.born = x.org.born then s.setThread x.org.tid (t.landLocked s.cycle lock (.s d) st) else s
  | .copy d lock header =>
    if hit then
      let gen := (s.hub.gen + 1) % 2 ^ 64
      let head := natBytes 8 (setBits (leNat (header.take 8)) 8 4 1) ++ natBytes 8 gen ++ natBytes 8 x.va ++ header.drop 24
      let s := (s.updHub (fun u => { u with gen := gen })).hamWrite h 0 head
      let t := s.thread x.org.tid
      if t.st ≠ .free ∧ t.born = x.org.born then s.setThread x.org.tid (t.landLocked s.cycle lock (.s d) gen) else s
    else s.loseSwap die x.org lock lost

/-- The swaps of a die's threads, in ascending $tid order, after the scheduler's (R357). -/
def State.applySwaps (s : State) (die : Nat) : State :=
  let xs := (s.die die).swaps
  if xs = [] then s
  else (stableSort (fun a b => decide (a.org.tid < b.org.tid)) xs).foldl (fun s x => s.applySwap die x) (s.updDie die (fun d => { d with swaps := [] }))

end Sys2Proof.Machine
end

