-- ==== Sys2Proof/Machine/Package.lean ====
section
/-! DEFINITION. The package: boot and attestation, keys, network ingress, the energy account, the black-box record and translation invalidation
(R371 to R393). Hub registers and self-tests stand in Health.lean. -/

namespace Sys2Proof.Machine

open Sys2Proof

/-! ## The black-box record (R391, R392) -/

/-- BBMARK: DATA0 and DATA1 are read at issue; the die engine writes the marker at the end of the cycle (R392). -/
def execBbmark (gd : Guard) (d a : BitVec 5) (i : BitVec 12) (kw : Option (BitVec 32)) (s : State) : Host.Outcome State Fault Refusal :=
  guarded gd s (fun s =>
    let tid := s.cur.tid
    let e : BBEntry := ⟨s.cycle, BitVec.ofNat 16 (0x8000 + immU12 i kw % 4096), BitVec.ofNat 24 (coreOf tid), BitVec.ofNat 11 tid, s.me.dom, s.s d, s.s a⟩
    s.updDie (dieOf tid) (fun y => { y with marks := y.marks ++ [(tid, e)] }))

/-- The markers of a cycle follow its hardware events, in ascending $tid order (R391). -/
def State.flushMarks (s : State) (die : Nat) : State :=
  let ms := stableSort (fun a b : Nat × BBEntry => decide (a.1 < b.1)) (s.die die).marks
  ms.foldl (fun s m => s.record die m.2) (if ms = [] then s else s.updDie die (fun y => { y with marks := [] }))

/-- BLACK_BOX_CLEAR: the system cores thaw the record, or clear its entries and its count (R391). -/
def execBlackBoxClear (die : Nat) (thaw clear : Bool) (s : State) : Host.Outcome State Fault Refusal :=
  .next (s.updDie die (fun y =>
    let b := if clear then { y.bb with ents := [], drops := 0 } else y.bb
    { y with bb := if thaw then { b with frozen := false } else b }))

/-- The event code of a fatal event; Table 18-7 gives none for a rail fault and a hub fatal error: a free value. -/
def State.fatalCode (s : State) (ev : FatalEvent) : Nat × State :=
  match ev with
  | .thermalTrip => (0x0121, s)
  | .marked e => (e.toNat, s)
  | .powerRail => s.freeNat
  | .hubFatal => s.freeNat

/-- FATAL_HARDWARE_EVENT: the event is recorded, and the record freezes (R391). -/
def execFatalHardwareEvent (die : Nat) (ev : FatalEvent) (data0 data1 : BitVec 64) (s : State) : Host.Outcome State Fault Refusal :=
  let (code, s) := s.fatalCode ev
  .next ((s.event die code none noTid 0 (some data0) (some data1)).freeze die)

/-- THERMAL_WARNING: event 0x0120 (Table 18-7). -/
def execThermalWarning (die : Nat) (data0 : BitVec 64) (s : State) : Host.Outcome State Fault Refusal :=
  .next (s.event die 0x0120 none noTid 0 (some data0) none)

/-! ## The energy account (R383 to R387) -/

/-- A command to the account; its destination is interlocked (R52, R382). -/
def State.acctCmd (s : State) (op : AcctOp) (d : Dest) (r : Nat) : State :=
  let id := s.me.nextId
  let c : AcctCmd := ⟨s.cur.tid, s.me.born, id, r, op⟩
  (s.updMe (fun t => { t.lock s.cur.slot d id with nextId := id + 1 })).updHub (fun u => { u with acct := u.acct ++ [c] })

/-- PWRQ (R387). -/
def execPwrq (gd : Guard) (d : BitVec 5) (i : BitVec 3) (s : State) : Host.Outcome State Fault Refusal :=
  guarded gd s (fun s => s.acctCmd (.item i.toNat) (.s d.toNat) d.toNat)

/-- The guard register a 5-bit field names. -/
def gField (d : BitVec 5) : Nat := d.toNat % 8

/-- PWRRES: the amount is read as uint64 (R386). -/
def execPwrres (gd : Guard) (d a : BitVec 5) (s : State) : Host.Outcome State Fault Refusal :=
  guarded gd s (fun s => s.acctCmd (.reserve (s.s a).toNat) (.g (gField d)) (gField d))

/-- PWRRES.rel (R386). -/
def execPwrresRel (gd : Guard) (d : BitVec 5) (s : State) : Host.Outcome State Fault Refusal :=
  guarded gd s (fun s => s.acctCmd .release (.g (gField d)) (gField d))

/-- The items of Table 18-4. -/
def State.acctItem (s : State) (dom : BitVec 6) (i : Nat) : DWord :=
  let e := s.hub.energy
  match i with
  | 0 => BitVec.ofInt 64 s.avail
  | 1 => BitVec.ofInt 64 e.bal
  | 2 => BitVec.ofNat 64 s.held
  | 3 => BitVec.ofNat 64 (e.resvOf dom.toNat)
  | 4 => BitVec.ofNat 64 e.g
  | 5 => BitVec.ofNat 64 e.intv
  | _ => BitVec.ofNat 64 e.spent

def State.updEnergy (s : State) (f : Energy → Energy) : State := s.updHub (fun u => { u with energy := f u.energy })

/-- One command at the account (R386, R387). -/
def State.applyAcct (s : State) (c : AcctCmd) : State :=
  let th := s.thread c.tid
  let dom := th.dom.toNat
  let land (s : State) (d : Dest) (v : Nat) : State :=
    if th.st ≠ .free ∧ th.born = c.born then s.updThread c.tid (fun t => t.landLocked s.cycle c.id d v) else s
  match c.op with
  | .item i => land s (.s c.d) (s.acctItem th.dom i).toNat
  | .release => land (s.updEnergy (fun e => { e with resv := tset e.resv dom 0 })) (.g c.d) 1
  | .reserve x =>
    if (x : Int) ≤ s.avail ∨ x = 0 then
      land (s.updEnergy (fun e => { e with resv := tset e.resv dom (e.resvOf dom + x), exp := tset e.exp dom (e.intv + 1) })) (.g c.d) 1
    else land s (.g c.d) 0

/-- A PWRQ, which reads after every PWRRES of its cycle. -/
def AcctCmd.reads (c : AcctCmd) : Bool := match c.op with | .item _ => true | _ => false

/-- The account's commands of a cycle, in the order of R384. -/
def State.settleAcct (s : State) : State :=
  let cs := s.hub.acct
  let s := s.updHub (fun u => { u with acct := [] })
  let res := stableSort (fun a b : AcctCmd => decide (a.tid < b.tid)) (cs.filter (fun c => !c.reads))
  (res ++ cs.filter AcctCmd.reads).foldl State.applyAcct s

/-- GRANT_WRITE: a value above 240,000 is refused; a new one applies from the next interval (R383). -/
def execGrantWrite (g : Nat) (s : State) : Host.Outcome State Fault Refusal :=
  .next (if 240000 < g then s else s.updEnergy (fun e => { e with gNext := g }))

/-- A running task's hold at a sample (R384). -/
def RunTask.holdAt (r : RunTask) (cycle : Nat) : Nat := if r.est = 0 then 0 else r.energy * (r.est - (cycle - r.placed)) / r.est

/-- ENERGY_SAMPLE: the measured energy is debited, and every hold falls with its task's age (R384); once a sample. A balance that falls below 0
for the first time in an interval is recorded on both dies. -/
def execEnergySample (nJ : Nat) (s : State) : Host.Outcome State Fault Refusal :=
  let e := s.hub.energy
  if s.cycle < 1100 * (e.samples + 1) then .next s
  else
    let debit := (nJ + e.rem) / 1000
    let bal := e.bal - (debit : Int)
    let falls := decide (0 ≤ e.bal ∧ bal < 0) && !e.below
    let s := s.updEnergy (fun e =>
      { e with bal := bal, rem := (nJ + e.rem) % 1000, used := e.used + debit, samples := e.samples + 1, below := e.below || falls })
    let s := (List.range 2).foldl (fun s d => s.updDie d (fun y => { y with running := y.running.map (fun r => { r with hold := r.holdAt s.cycle }) })) s
    .next (if falls then ((s.event 0 0x0110 none noTid 0 none none).event 1 0x0110 none noTid 0 none none).irq else s)

/-- ENERGY_INTERVAL: the balance is carried and refilled, and old reservations lapse (R384); once an interval. -/
def execEnergyInterval (s : State) : Host.Outcome State Fault Refusal :=
  let e := s.hub.energy
  if s.cycle < 110000 * (e.intv + 1) then .next s
  else
    let intv := e.intv + 1
    .next (s.updEnergy (fun e =>
      { e with spent := e.used, used := 0, intv := intv, g := e.gNext, bal := min e.bal e.carry + e.gNext, below := false,
               resv := e.resv.filter (fun r => decide (intv ≤ tget 0 e.exp r.1)) }))

/-! ## Keys, boot and attestation (R374 to R378) -/

/-- KEY_SLOT_WRITE: the security processor writes one of the 64 key slots; slot 0 belongs to domain 0 (R375). -/
def execKeySlotWrite (slot : Nat) (dom : BitVec 6) (s : State) : Host.Outcome State Fault Refusal :=
  .next (if 64 ≤ slot then s
    else s.updHub (fun u => { u with keys := tset u.keys slot ⟨true, if slot = 0 then 0 else dom, (s.keySlot slot).version + 1⟩ }))

/-- A verified image extends the measurement register with its SHA-256 (R378). -/
def State.extend (s : State) (image : List Byte) : State := s.updHub (fun u => { u with measurement := Config.measure u.measurement (sha256 image) })

/-- A die's firmware store takes an image, and is locked once the image is verified (R377). -/
def State.fillStore (s : State) (die : Nat) (image : List Byte) : State := s.putBytes (storePlace die 0) (image.take 0x40000)
def State.lockStore (s : State) (die : Nat) : State := s.updDie die (fun y => { y with fwLock := true })

/-- A verification failure stops the boot: event 0x0150, which freezes both records (R377, R391). -/
def State.bootFails (s : State) : State :=
  (List.range 2).foldl (fun s d => s.event d 0x0150 none noTid 0 none none) s

/-- The boot of R377, image by image. -/
def State.boot (s : State) (b : BootImages) : State :=
  if b.failsAt = some 0 then s.bootFails
  else
    let s := s.extend b.security
    if b.failsAt = some 1 then s.bootFails
    else
      let s := match b.partition with | some p => s.updHub (fun u => { u with partLo := p.1.toNat, partHi := p.2.toNat }) | none => s
      let s := ((s.extend b.system).fillStore 0 b.store0).fillStore 1 b.store1
      if b.failsAt = some 2 then s.bootFails
      else
        let s := (s.extend b.store0).lockStore 0
        if b.failsAt = some 3 then s.bootFails
        else ((s.extend b.store1).lockStore 1).updHub (fun u => { u with booted := true })

/-- The place of a byte of a die's dispatch context (Table 19-8). -/
def State.ctxAt (s : State) (die off : Nat) : Nat := diePlace die ((if die = 0 then s.hub.pod.dcb0 else s.hub.pod.dcb1) + off)

/-- `n` bits of the doubleword at an offset of the context. -/
def State.ctxField (s : State) (die off lo n : Nat) : Nat := nbits (s.read (s.ctxAt die off) 8) lo n
def State.setCtx (s : State) (die off lo n v : Nat) : State :=
  let k := s.ctxAt die off
  s.write k 8 (setBits (s.read k 8) lo n v)

/-- The fields of a dispatch context that only the engine writes take their reset values (R5, Table 19-8): SPILLN and LOST, every basket's DEV, V and NROW,
and every local expert's COUNT and NSEC. -/
def State.resetCtx (s : State) (die : Nat) : State :=
  (List.range 64).foldl (fun s j => ((s.setCtx die (0x40 + 16 * j) 0 28 0).setCtx die (0x448 + 16 * j) 32 10 0).setCtx die (0x448 + 16 * j) 48 10 0) (s.setCtx die 8 0 32 0)

/-- PACKAGE_RESET: everything takes its reset value but what is retained (the black-box records, R391; the count of quotes, R378) and, by log
entry 2, the memories and the key slots, of which only what the engines alone write is reset; then the boot of R377. -/
def execPackageReset (boot : BootImages) (s : State) : Host.Outcome State Fault Refusal :=
  let r := State.reset
  let bbs := (List.range 2).map (fun d => (s.die d).bb)
  let s' : State := { r with agenda := s.agenda, free := s.free, mem := s.mem.filter (fun c => !isQueueByte c.1), keyOf := s.keyOf, ecc := s.ecc, cur := s.cur,
                             hub := { r.hub with quotes := s.hub.quotes, keys := s.hub.keys } }
  let s' := (List.range 2).foldl (fun s d => s.updDie d (fun y => { y with bb := nth ⟨[], false, 0⟩ bbs d })) s'
  .next (((s'.resetCtx 0).resetCtx 1).boot boot)

/-- ATTESTATION_QUOTE: each quote takes the next one-time key of two levels of 2^15 (H15), never one twice; after 2^30 quotes the processor refuses, and reports exhaustion (R378). -/
def execAttestationQuote (nonce : BitVec 256) (s : State) : Host.Outcome State Fault Refusal :=
  if 2 ^ 30 ≤ s.hub.quotes then .next s.irq
  else
    let owners := ((List.range 64).filter (fun k => (s.keySlot k).loaded)).map (fun k => (k, (s.keySlot k).owner))
    let n := s.hub.quotes + 1
    let body := owners.foldl (fun a o => a * 2 ^ 12 + o.1 * 2 ^ 6 + o.2.toNat) (nonce.toNat + 2 ^ 256 * s.hub.measurement.toNat)
    .next (s.updHub (fun u =>
      { u with quotes := n, quote := some ⟨1, Config.serial, nonce, u.measurement, owners, n, s.hub.quotes / 2 ^ 15, s.hub.quotes % 2 ^ 15, Config.quoteSignature body n⟩ }))

/-! ## Network ingress (R379 to R381) -/

/-- A flow rule's doubleword. -/
def Hub.flow (h : Hub) (i k : Nat) : Nat := (nth 0 (tget [] h.flows i) k).toNat

/-- A rule matches a packet (R379). -/
def Hub.flowMatches (h : Hub) (i : Nat) (p : EthPacket) : Bool :=
  let w0 := h.flow i 0
  let w1 := h.flow i 1
  w0.testBit 0 && w0.testBit (2 + p.port.toNat) &&
    (match p.kind with
      | .udp dport _ => !w0.testBit 1 && decide (nbits w1 0 16 = dport.toNat)
      | .roce qpn _ ok => ok && w0.testBit 1 && decide (nbits w1 16 24 = qpn.toNat)
      | .other => false) &&
    (!w1.testBit 52 || p.vlan.map BitVec.toNat == some (nbits w1 40 12))

/-- The blocks of a range of a die's memory belong to a domain with read and write (R299, R380). -/
def State.ownsRange (s : State) (die : Nat) (dom off len : Nat) : Bool :=
  decide (off + len ≤ 2 ^ 26) && (List.range ((off + len - 1) / 65536 + 1 - off / 65536)).all (fun i =>
    let e := (s.ownEntry die (off / 65536 + i)).toNat
    decide (e % 64 = dom) && e.testBit 6 && e.testBit 7)

/-- The 64-byte header of a slot (R380). -/
def ethHeader (p : EthPacket) : List Byte :=
  let sport := match p.kind with | .udp _ x => x.toNat | .roce _ x _ => x.toNat | .other => 0
  natBytes 8 (p.payload.length % 65536 + p.port.toNat * 65536) ++ natBytes 16 p.source.toNat ++ natBytes 8 sport ++ List.replicate 32 0

/-- A rule's doubleword of counters changes. -/
def Hub.setFlow (h : Hub) (i k v : Nat) : Hub :=
  let ws := (List.range 8).map (fun j => if j = k then BitVec.ofNat 64 v else nth 0 (tget [] h.flows i) j)
  { h with flows := tset h.flows i ws }

/-- A matched packet takes slot NEXT of its rule's ring, or is dropped (R380); a ring without slots takes none (log entry 55). -/
def State.ingress (s : State) (i : Nat) (p : EthPacket) : State :=
  let w (k : Nat) : Nat := s.hub.flow i k
  let die := nbits (w 0) 14 1
  let dom := nbits (w 0) 4 6
  let size := 2 ^ (nbits (w 2) 26 4 + 8)
  let next := nbits (w 5) 0 12
  let off := nbits (w 2) 0 26 + next * size
  let tmpl := nbits (w 3) 0 26
  let nsl := nbits (w 2) 30 12
  let r := diePlace die off
  let st := s.recState r
  if nsl = 0 ∨ (st ≠ 0 ∧ st ≠ 5) ∨ size < 192 + p.payload.length ∨ ¬ s.ownsRange die dom off size ∨ ¬ s.ownsRange die dom tmpl 128 ∨
      4096 ≤ (s.die die).pending.length then
    s.updHub (fun u => u.setFlow i 4 (setBits (w 4) 32 32 (nbits (w 4) 32 32 + 1)))
  else
    let rec0 := s.bytesAt (diePlace die tmpl) 128
    let s := (s.clearEcc r (192 + p.payload.length)).putBytes (r + 128) (ethHeader p ++ p.payload)
    let s := (s.putBytes r rec0).setDw r 1 0 64 (0x10000000 + off + 128)
    let s := (((s.setDw r 12 16 6 dom).setDw r 2 32 4 (nbits (w 0) 10 4)).setRecJoin r 0).setRecState r 6
    let s := s.updDie die (fun y => { y with pending := y.pending ++ [⟨r, none, BitVec.ofNat 6 dom⟩] })
    s.updHub (fun u => (u.setFlow i 5 (setBits (w 5) 0 12 ((next + 1) % nsl))).setFlow i 4 (setBits (w 4) 0 32 (nbits (w 4) 0 32 + 1)))

/-- PACKET_INGRESS: the lowest rule that matches applies; a packet that matches none goes to the system cores (R379). -/
def execPacketIngress (p : EthPacket) (s : State) : Host.Outcome State Fault Refusal :=
  match (List.range 4096).find? (fun i => s.hub.flowMatches i p) with
  | some i => .next (s.ingress i p)
  | none => .next (s.updHub (fun u => { u with sysq := u.sysq ++ [p] }))

/-- SYSTEM_CORE_LINE_WRITEBACK: a line of a system core's cache reaches HBM, under key slot 0 (R372, R374). -/
def execSystemCoreLineWriteback (line : Nat) (data : BitVec 512) (s : State) : Host.Outcome State Fault Refusal :=
  let pa := 64 * line
  .next (if 2 ^ 39 < pa + 64 then s else (s.clearEcc pa 64).hbmPut pa (s.keyIdent 0) (natBytes 64 data.toNat))

/-! ## Translation invalidation (R393) -/

/-- A TLBI covers an address range of a domain. -/
def Tlbi.hits (x : Tlbi) (dom : BitVec 6) (va size : Nat) : Bool :=
  (match x.dom with | some d => d == dom | none => true) && decide (va < x.hi) && decide (x.lo < va + size)

/-- The leaves and lines a TLBI covers are removed, and walks that began before it install nothing (R303, R393); a requester that has received a leaf and not yet
made its access looks it up again. -/
def State.invalidate (s : State) (x : Tlbi) : State :=
  let keep (l : Leaf) : Bool := !x.hits l.dom l.va l.size
  let core (c : Core) : Core := { c with tlb := c.tlb.filter keep, istore := c.istore.filter (fun l => !x.hits l.dom l.va 64) }
  let stop (w : Walk) : Walk := { w with cancelled := w.cancelled || x.hits w.dom (65536 * w.page) 65536 }
  let wait (w : PageWalk) : Bool := w.res.isNone || !x.hits w.dom (65536 * w.page) 65536
  let die (d : Die) : Die := { d with tlb := d.tlb.filter keep, walks := d.walks.map stop, walked := d.walked.filter (fun w => wait w.2) }
  { s with cores := s.cores.map (fun c : Nat × Core => (c.1, core c.2)), dies := s.dies.map (fun d : Nat × Die => (d.1, die d.2)),
           threads := s.threads.map (fun t : Nat × Thread => (t.1, { t.2 with walked := t.2.walked.filter wait })) }

/-- TLBI (R393); it is privileged. -/
def execTlbi (gd : Guard) (d a b : BitVec 5) (s : State) : Host.Outcome State Fault Refusal :=
  if ¬ s.me.atF then .next (s.privileged 6)
  else guarded gd s (fun s =>
    let w := (s.s b).toNat
    if nbits w 23 41 ≠ 0 then s.illegal 0x13 6
    else
      let n := nbits w 0 16
      let all := w.testBit 22
      let base := nbits (s.s a).toNat 16 32 * 65536
      let whole := n = 0 ∨ all
      let id := s.me.nextId
      let x : Tlbi := { tid := s.cur.tid, born := s.me.born, id := id, d := gField d, lo := if whole then 0 else base,
                        hi := if whole then 2 ^ 48 else base + 65536 * n, dom := if all then none else some (BitVec.ofNat 6 (nbits w 16 6)), start := s.cycle }
      ((s.updMe (fun t => { t.lock s.cur.slot (.g (gField d)) id with nextId := id + 1 })).invalidate x).updHub (fun u => { u with tlbis := u.tlbis ++ [x] }))

/-- An access issued by the start of a TLBI is still to perform at HBM (R304). -/
def Tlbi.waitsFor (x : Tlbi) (t : Thread) : Bool :=
  (match x.dom with | some d => d == t.dom | none => true) &&
  t.memQ.any (fun a => decide (a.at_ ≤ x.start) && a.op.touches.any (fun k => decide (k.1 < 2 ^ 39)))

/-- A page pinned by a SUSPEND or an HCOPY, or translated for a hamper that is being read, lies in the range (R304, R358, R361). -/
def State.pinned (s : State) (x : Tlbi) : Bool :=
  (List.range 2).any (fun d => (s.die d).susp.any (fun y => !y.pool && x.hits y.dom y.va y.size) || (s.die d).hcopies.any (fun y => x.hits y.dom y.dst y.used || x.hits y.dom y.src y.used) ||
    (s.die d).hloads.any (fun y => !y.pool && x.hits y.dom y.va 512))

/-- TLBI_COMPLETE: invalidation k of the hub completes when what its entries had translated has completed and every pin over its range has been
released (R304, R393). -/
def execTlbiComplete (k : Nat) (s : State) : Host.Outcome State Fault Refusal :=
  match s.hub.tlbis[k]? with
  | none => .next s
  | some x =>
    if s.cycle ≤ x.start ∨ s.threads.any (fun t => x.waitsFor t.2) ∨ s.pinned x then .next s
    else
      let s := s.updHub (fun u => { u with tlbis := delNth u.tlbis k })
      let th := s.thread x.tid
      .next (if th.st ≠ .free ∧ th.born = x.born then s.updThread x.tid (fun t => t.landLocked s.cycle x.id (.g x.d) 1) else s)

end Sys2Proof.Machine
end

