-- ==== Sys2Proof/Machine/Fabric.lean ====
section
/-! DEFINITION. The fabric: links, routing, reservations, sending and receiving packets, failed devices, and reduction lines (R394 to R407, R415,
R418 to R421, R427, R428). -/

namespace Sys2Proof.Machine

open Sys2Proof

def State.fab (s : State) : Fab := s.hub.fab
def State.updFab (s : State) (f : Fab → Fab) : State := s.updHub (fun u => { u with fab := f u.fab })
def State.updBnd (s : State) (f : Bnd → Bnd) : State := s.updFab (fun x => { x with bnd := f x.bnd })

/-! ## Members (R403, R415) -/

/-- A device takes part in boundaries: MEMBERS, at reset the own device only. -/
def State.isMember (s : State) (dev : Nat) : Bool := tget (dev == s.hub.device.toNat) s.hub.pod.members dev

/-- A live member. -/
def State.isLive (s : State) (dev : Nat) : Bool := s.isMember dev && !s.hub.pod.failed.contains dev

def State.liveMembers (s : State) : List Nat := (List.range 1057).filter s.isLive

/-- The coordinator is the live member with the smallest id (R412). -/
def State.coordinator (s : State) : Option Nat := s.liveMembers.head?

/-! ## Links and routes (R396 to R401) -/

/-- A link has a lane left and has not been dropped (R398). -/
def Fab.linkUp (f : Fab) (port : Nat) : Bool := port < 33 && !f.down.contains port && tget 0 f.lanesOut port % 16 != 15

/-- The minimal output toward a device, if its link is up. -/
def Fab.minimal (f : Fab) (dev : Nat) : Option Nat := ((f.routes.find? (fun r => r.1 == dev)).map Prod.snd).filter f.linkUp

def Packet.flits (p : Packet) : Nat := 1 + p.ndata.toNat

/-- A packet's header flit (Table 19-2); the type-specific bits stand from dw3[32] on (log entry 16). -/
def Packet.header (p : Packet) : Nat :=
  p.type.toNat + p.ndata.toNat * 2 ^ 4 + p.src.toNat * 2 ^ 8 + p.dst.toNat * 2 ^ 19 + p.vc.toNat * 2 ^ 30 + p.hops.toNat * 2 ^ 32 + b2n p.esc * 2 ^ 35 +
  p.via.toNat * 2 ^ 36 + p.seq.toNat * 2 ^ 64 + p.stepno.toNat * 2 ^ 96 +
  (p.off.toNat + p.core.toNat * 2 ^ 20 + p.clu.toNat * 2 ^ 23 + p.die.toNat * 2 ^ 28 + p.rule.toNat * 2 ^ 29 + p.op.toNat * 2 ^ 31 + p.dom.toNat * 2 ^ 34) * 2 ^ 128 +
  p.umask.toNat * 2 ^ 192 + p.ext.toNat * 2 ^ 224

/-- The flits of a packet, each as a number of 512 bits: the header, then the data. -/
def Packet.wire (p : Packet) : List Nat :=
  Packet.header p :: (List.range p.ndata.toNat).map (fun i => joinWords ((p.data.drop (16 * i)).take 16))

/-- Flits queued at an output. -/
def Fab.queued (f : Fab) (port : Nat) : Nat := (f.queues.filter (fun q => q.port == port)).foldl (fun a q => a + Packet.flits q.pkt) 0

/-- The outputs that stand for "no route" and for the own device. -/
def noPort : Nat := 63
def ownPort : Nat := 62

/-- The input that stands for the device's own packets, which lie in no input buffer. -/
def ownInput : Nat := 33

/-- The queue a packet waits in: its output, its channel and, in VC 3, its hop class. -/
def QPkt.key (q : QPkt) : Nat × Nat × Nat := (q.port, q.vc, q.cls)

/-- The hop class of an escaped packet: the hops it has left from this router (R401). -/
def Fab.hopClass (f : Fab) (p : Packet) : Nat := if f.direct.contains p.dst.toNat then 1 else 2

/-- A packet joins the queue of an output; its flits lie in a buffer of an input. -/
def State.queuePkt (s : State) (port inp buf : Nat) (p : Packet) : State :=
  let q : QPkt := ⟨port, p.vc.toNat, if p.vc = 3 then s.fab.hopClass p else 0, inp, buf, none, p⟩
  let first := !s.fab.queues.any (fun x => x.key == q.key)
  s.updFab (fun f => { f with queues := f.queues ++ [{ q with head := if first then some s.cycle else none }] })

/-- Another link of the router, where the minimal one is down (R400): that of the shortest path the routing table lists over a link that is up; where it lists
none, which link that is up is a free value (log entry 58). -/
def State.otherPort (s : State) (dev : Nat) : Nat × State :=
  match (tget [] s.fab.others dev).find? s.fab.linkUp with
  | some port => (port, s)
  | none =>
    let ports := (s.fab.routes.map Prod.snd).filter s.fab.linkUp
    if ports = [] then (noPort, s)
    else
      let (n, s) := s.freeNat
      (nth noPort ports (n % ports.length), s)

/-- A packet whose output is down or missing is routed again at this router, on VC 2 (R400). -/
def State.reroute (s : State) (inp buf : Nat) (p : Packet) : State :=
  let p := { p with vc := 2 }
  match s.fab.minimal p.dst.toNat with
  | some port => s.queuePkt port inp buf p
  | none => let (port, s) := s.otherPort p.dst.toNat; s.queuePkt port inp buf p

/-- The live devices (R400): those of the routing tables that have not failed, also behind a link that is down (log entry 58). -/
def State.liveDevices (s : State) : List Nat := (s.fab.routes.map Prod.fst).filter (fun d => !s.hub.pod.failed.contains d)

/-- FLUSHED and GO travel on VC 0 (R412). -/
def Packet.onlyMinimal (p : Packet) : Bool := p.type == 7 || p.type == 8

/-- The source's choice of route (R400): non-minimal through a live intermediate drawn uniformly when the minimal output is that much longer, or down. -/
def State.injectPkt (s : State) (p : Packet) : State :=
  let dst := p.dst.toNat
  let put (s : State) (port : Nat) (p : Packet) : State := s.queuePkt port ownInput p.vc.toNat p
  if dst = s.hub.device.toNat then put s ownPort p
  else
    let is := if Packet.onlyMinimal p ∧ (s.fab.minimal dst).isSome then [] else s.liveDevices.filter (fun x => x != s.hub.device.toNat && x != dst)
    match is, s.fab.minimal dst with
    | [], none => s.reroute ownInput 0 p
    | [], some port => put s port { p with vc := 0 }
    | _, m =>
      let (n, s) := s.freeNat
      let via := nth 0 is (n % is.length)
      let one (s : State) : State :=
        match s.fab.minimal via with
        | some port => put s port { p with vc := 1, via := BitVec.ofNat 11 via }
        | none => s.reroute ownInput 0 p
      match m with
      | none => one s
      | some q =>
        if 2 * ((s.fab.minimal via).map s.fab.queued).getD 0 + s.hub.pod.thr < s.fab.queued q then one s else put s q { p with vc := 0 }

/-- A packet leaves the hub with the next SEQ (R399). -/
def State.sendPkt (s : State) (p : Packet) : State :=
  let seq := s.fab.seq
  let s := s.updFab (fun f => { f with seq := (seq + 1) % 2 ^ 32 })
  s.injectPkt { p with src := s.hub.device, seq := BitVec.ofNat 32 seq }

/-- A packet without data. What an ACK, GRANT, GO or FAILED carries stands in dw3[31:0], which Table 19-2 gives a meaning in a WRITE only (log entry 16);
the type-specific fields are 0. -/
def ctlPkt (type : BitVec 4) (dst step : Nat) (arg : Nat) : Packet :=
  { type := type, ndata := 0, src := 0, dst := BitVec.ofNat 11 dst, vc := 0, hops := 0, esc := false, via := 0, seq := 0, stepno := BitVec.ofNat 32 step,
    off := 0, core := 0, clu := 0, die := 0, rule := 0, op := 0, dom := 0, umask := BitVec.ofNat 32 arg, ext := 0, data := [] }

/-- The packets at an output are routed again. -/
def State.rerouteAll (s : State) (port : Nat) : State :=
  let qs := s.fab.queues.filter (fun q => q.port == port)
  let s := s.updFab (fun f => { f with queues := f.queues.filter (fun q => q.port != port) })
  qs.foldl (fun s q => s.reroute q.inp q.buf q.pkt) s

/-! ## Buffers, credits and flits (R396, R397) -/

/-- A buffer of an input port: 0 to 2 the channels, 3 and 4 the escape buffers of packets with one and two hops left (R397). -/
def bufferOf (vc cls : Nat) : Nat := if vc = 3 then 2 + cls else vc
def bufferSize (b : Nat) : Nat := if b < 3 then 48 else 9

/-- The buffer at the other end of a link that a packet's flits take: an escaped packet has at most one hop left there. -/
def QPkt.taking (q : QPkt) : Nat := 5 * q.port + bufferOf q.vc 1

/-- Flits that lie in a buffer of an input of this router. -/
def Fab.bufferHeld (f : Fab) (inp b : Nat) : Nat :=
  (f.queues.filter (fun q => q.inp == inp && q.buf == b)).foldl (fun a q => a + Packet.flits q.pkt) 0

/-- A buffer of an input has room for a packet; the device's own packets lie in none. -/
def Fab.roomAt (f : Fab) (inp b : Nat) (p : Packet) : Bool := inp == ownInput || decide (f.bufferHeld inp b + Packet.flits p ≤ bufferSize b)

/-- A lane of the link is in service and under no test (R398, R427). -/
def State.laneFree (s : State) (port : Nat) : Bool :=
  (List.range 4).any (fun l => !(tget 0 s.fab.lanesOut port).testBit l && !s.underTest (6 * 2 ^ 20 + 4 * port + l))

/-- The head of a queue can leave: its link runs, replays nothing, and has a credit for each flit. -/
def State.canDepart (s : State) (q : QPkt) : Bool :=
  s.fab.linkUp q.port && s.laneFree q.port && tget 0 s.fab.replay q.port == 0 && decide (tget 0 s.fab.flits q.taking + Packet.flits q.pkt ≤ bufferSize (q.taking % 5))

/-- The last 256 flits sent on a port stay in its retry buffer. -/
def keepFlits (old new : List Nat) : List Nat := (old ++ new).drop ((old ++ new).length - 256)

/-- A packet's flits leave, each against a credit, and stay in the retry buffer of the port. -/
def Fab.sendFlits (f : Fab) (q : QPkt) : Fab :=
  { f with flits := tset f.flits q.taking (tget 0 f.flits q.taking + Packet.flits q.pkt),
           retry := tset f.retry q.port (keepFlits (tget [] f.retry q.port) (Packet.wire q.pkt)) }

/-- Packets at the heads of their queues leave where they can, and the next ones become heads (R397, R401). -/
def State.departFrom (s : State) : List QPkt → List (Nat × Nat × Nat) → List (Nat × Nat × Nat) → List QPkt → State
  | [], _, _, kept => s.updFab (fun f => { f with queues := kept })
  | q :: qs, gone, heads, kept =>
    if !gone.contains q.key && s.canDepart q then (s.updFab (fun f => f.sendFlits q)).departFrom qs (q.key :: gone) heads kept
    else
      let first := !heads.contains q.key
      s.departFrom qs (q.key :: gone) (q.key :: heads) (kept ++ [{ q with head := if first then some (q.head.getD (s.cycle + 1)) else none }])

/-- The next routers return credits, a port that replays sends one of its flits again, and packets leave (R396, R397). -/
def State.depart (s : State) : State :=
  let back (e : Nat × Nat) : Nat × Nat := (e.1, e.2 - Config.linkReturn s.cycle (e.1 / 5) (e.1 % 5))
  let s := s.updFab (fun f => { f with flits := (f.flits.map back).filter (fun e => e.2 != 0) })
  let s := s.departFrom s.fab.queues [] [] []
  s.updFab (fun f => { f with replay := (f.replay.map (fun e => (e.1, e.2 - 1))).filter (fun e => e.2 != 0) })

/-- FLIT_CRC_FAIL: a flit of the retry buffer, which one is a free value, and every flit after it are sent again; the replay is counted on its lane, whose
self-test starts (R396, R427). -/
def execFlitCrcFail (port lane : Nat) (s : State) : Host.Outcome State Fault Refusal :=
  let k := 4 * port + lane
  let sent := (tget [] s.fab.retry port).length
  let (n, s) := s.freeNat
  .next (if 33 ≤ port ∨ 4 ≤ lane ∨ sent = 0 then s
    else (s.updFab (fun f => { f with replays := tset f.replays k (tget 0 f.replays k + 1), replay := tset f.replay port (n % sent + 1) })).startTest (6 * 2 ^ 20 + k))

/-- A lane leaves service; the link runs on its others (R398). -/
def State.laneOut (s : State) (port lane : Nat) : State :=
  s.updFab (fun f => { f with lanesOut := tset f.lanesOut port (setBits (tget 0 f.lanesOut port) lane 1 1) })

/-- LANE_OUT_OF_SERVICE (R398). -/
def execLaneOutOfService (port lane : Nat) (s : State) : Host.Outcome State Fault Refusal :=
  .next (if 33 ≤ port ∨ 4 ≤ lane then s else s.laneOut port lane)

/-- LINK_DOWN: the routing tables drop a link with no lane left (it counts as down until a lane returns), and its packets are routed again (R398, R427). -/
def execLinkDown (port : Nat) (s : State) : Host.Outcome State Fault Refusal :=
  if 33 ≤ port ∨ tget 0 s.fab.lanesOut port % 16 ≠ 15 ∨ s.fab.down.contains port then .next s
  else
    let s := s.updFab (fun f => { f with down := f.down ++ [port] })
    .next (((s.event 0 0x0161 none noTid 0 none none).event 1 0x0161 none noTid 0 none none).rerouteAll port)

/-- ESCAPE_MOVE: packet k of the queues has stood at the head of its queue for 55,000 cycles, and moves to VC 3 once the escape buffer
of its hop class has room (R401). -/
def execEscapeMove (k : Nat) (s : State) : Host.Outcome State Fault Refusal :=
  match s.fab.queues[k]? with
  | none => .next s
  | some q =>
    match q.head with
    | none => .next s
    | some since =>
      if s.cycle < since + 55000 ∨ q.vc = 3 ∨ 33 ≤ q.port ∨ ¬ s.fab.roomAt q.inp (bufferOf 3 (s.fab.hopClass q.pkt)) q.pkt then .next s
      else
        let port := (s.fab.minimal q.pkt.dst.toNat).getD q.port
        let s := s.updFab (fun f => { f with queues := delNth f.queues k, escapes := tset f.escapes q.port (tget 0 f.escapes q.port + 1) })
        .next (s.queuePkt port q.inp (bufferOf 3 (s.fab.hopClass q.pkt)) { q.pkt with vc := 3, esc := true })

/-! ## Reservations (R402) -/

/-- The target answers requests in arrival order, up to 8 credits each, as entries are free. -/
def State.grantTo (s : State) : List Nat → State
  | [] => s.updFab (fun f => { f with waiting := [] })
  | src :: rest =>
    let old := (tget [] s.fab.given src).filter (fun c => decide (s.cycle < c + 65536))
    let promised := (s.fab.given.foldl (fun a g => a + (g.2.filter (fun c => decide (s.cycle < c + 65536))).length) 0)
    let n := min (8 - old.length) (s.hub.pod.rq - s.fab.rxq.length - promised)
    if n = 0 then s.updFab (fun f => { f with waiting := src :: rest })
    else
      let s := s.updFab (fun f => { f with given := tset f.given src (old ++ List.replicate n s.cycle) })
      (s.sendPkt (ctlPkt 6 src 0 n)).grantTo rest

def State.grantCredits (s : State) : State := s.grantTo s.fab.waiting

/-- CREDIT_REQUEST: a CREQ arrives (R402). -/
def execCreditRequest (src : Nat) (s : State) : Host.Outcome State Fault Refusal :=
  .next ((s.updFab (fun f => { f with waiting := f.waiting ++ [src] })).grantCredits)

/-- CREDIT_GRANT: credits toward a target arrive; a source holds at most 8 (R402). -/
def execCreditGrant (src n : Nat) (s : State) : Host.Outcome State Fault Refusal :=
  .next (s.updFab (fun f => { f with asked := f.asked.filter (· != src), credits := tset f.credits src ((tget [] f.credits src ++ List.replicate n s.cycle).take 8) }))

/-- CREDIT_EXPIRY: a credit unused for 65,536 cycles returns to its target (R402). -/
def execCreditExpiry (dst : Nat) (s : State) : Host.Outcome State Fault Refusal :=
  match tget [] s.fab.credits dst with
  | [] => .next s
  | c :: cs => .next (if s.cycle < c + 65536 then s else s.updFab (fun f => { f with credits := tset f.credits dst cs }))

/-- Entry k of the receive queue frees, and credits may be granted (R402). -/
def State.freeRx (s : State) (k : Nat) : State := (s.updFab (fun f => { f with rxq := delNth f.rxq k })).grantCredits

/-- The ACK of a packet, by its source and SEQ (R402). -/
def State.sendAck (s : State) (src seq : Nat) : State := s.sendPkt (ctlPkt 4 src 0 seq)

/-! ## Packets that end without delivery (R407) -/

/-- OUT of a window changes, if its thread is still there (Table 19-5). -/
def State.setOut (s : State) (o : OutPkt) (f : Nat → Nat) : State :=
  match o.org with
  | none => s
  | some g =>
    if o.win < 16 ∧ (s.thread g.tid).st ≠ .free ∧ (s.thread g.tid).born = g.born then
      s.updThread g.tid (fun t =>
        let w := (tget 0 t.regs.allow o.win).toNat
        { t with regs := { t.regs with allow := tset t.regs.allow o.win (BitVec.ofNat 64 (setBits w 16 16 (f (nbits w 16 16)))) } })
    else s

/-- A packet is not delivered (R407): its thread traps FABRIC_UNREACHABLE, or the black-box record says so; a forwarded row's sender is answered. -/
def State.unreachable (s : State) (o : OutPkt) : State :=
  let dev := o.pkt.dst.toNat
  let s := match o.org with
    | some g =>
      if (s.thread g.tid).st ≠ .free ∧ (s.thread g.tid).born = g.born then
        s.postFault g (trapInfo .fabricUnreachable 7 (BitVec.ofNat 64 dev) o.va)
      else s.event (dieOf g.tid) 0x0162 none noTid o.pkt.dom.toNat (some (o.va.setWidth 64)) (some (BitVec.ofNat 64 dev))
    | none => s.event 0 0x0162 none noTid o.pkt.dom.toNat (some (o.va.setWidth 64)) (some (BitVec.ofNat 64 dev))
  match o.ack with
  | some (src, seq) => s.sendAck src seq
  | none => s

/-- Every packet toward a failed device is dropped. -/
def State.dropFor (s : State) (dev : Nat) : State :=
  let tgt (o : OutPkt) : Bool := o.pkt.dst.toNat == dev
  let waiting := s.hub.outq.filter tgt
  let flying := s.fab.sent.filter tgt
  let s := s.updHub (fun u => { u with outq := u.outq.filter (fun o => !tgt o) })
  let s := s.updFab (fun f => { f with sent := f.sent.filter (fun o => !tgt o), queues := f.queues.filter (fun q => q.pkt.dst.toNat != dev) })
  let s := flying.foldl (fun s o => s.setOut o (fun n => n - 1)) s
  (flying ++ waiting).foldl State.unreachable s

/-! ## Failed devices (R415) -/

/-- A member sends FLUSHED of a boundary to the coordinator (R412). -/
def State.sendFlushed (s : State) (n : Nat) : State :=
  match s.coordinator with
  | some c => s.sendPkt (ctlPkt 7 c n 0)
  | none => s

/-- The boundary a member has flushed last, of which a new coordinator is sent FLUSHED. -/
def Bnd.lastFlushed (b : Bnd) : Option Nat := if 2 ≤ b.st then some b.n else if b.n = 0 then none else some (b.n - 1)

/-- The last GO names the device as failed: a boundary has reported it before its notice came (R415). -/
def Fab.reported (f : Fab) (dev : Nat) : Bool := f.lastGo.any (fun g => g.2.getLsbD 0 && nbits g.2.toNat 1 11 == dev)

/-- A GO with FAIL and the lowest newly failed id reports a device: that one, and of the higher ones those known as newly failed at the own FLUSHED; the
coordinator knew of no lower one (R415; log entry 58). -/
def Bnd.reports (b : Bnd) (low dev : Nat) : Bool := dev == low || decide (low < dev) && b.told.contains dev

/-- The change of FAILED on a member: packets to the device are dropped; if it was the coordinator, every member sends the next one FLUSHED again. -/
def State.noteFailed (s : State) (dev : Nat) : State :=
  if s.hub.pod.failed.contains dev then s
  else
    let was := s.coordinator
    let news := if s.fab.reported dev then [] else [dev]
    let s := s.updHub (fun u => { u with pod := { u.pod with failed := u.pod.failed ++ [dev] }, fab := { u.fab with newFailed := u.fab.newFailed ++ news } })
    let s := s.dropFor dev
    match (if was = some dev then s.fab.bnd.lastFlushed else none) with
    | some n => s.sendFlushed n
    | none => s

/-- DECLARE_FAILED: the system cores add a device to FAILED, and notices go to every other live member. -/
def execDeclareFailed (dev : Nat) (s : State) : Host.Outcome State Fault Refusal :=
  if 1057 ≤ dev ∨ s.hub.pod.failed.contains dev then .next s
  else
    let others := s.liveMembers.filter (fun x => x != dev && x != s.hub.device.toNat)
    .next ((others.foldl (fun s x => s.sendPkt (ctlPkt 9 x 0 dev)) s).noteFailed dev)

/-- FAILED_NOTICE: a notice arrives. -/
def execFailedNotice (dev : Nat) (s : State) : Host.Outcome State Fault Refusal :=
  .next (if 1057 ≤ dev then s else s.noteFailed dev)

/-! ## Sending (R406, R419, R424, R428) -/

/-- An earlier packet of the same store, or an earlier row of one SLSEND toward the same device, must leave first. -/
def OutPkt.follows (o e : OutPkt) : Bool :=
  match o.org, e.org with
  | some g, some h => g.tid == h.tid && g.born == h.born && o.id == e.id
  | none, none => o.pkt.dst == e.pkt.dst && o.id == e.id && o.ack.isNone && e.ack.isNone
  | _, _ => false

/-- OUT < LIMIT, or no limit (Table 19-5). -/
def State.belowLimit (s : State) (o : OutPkt) : Bool :=
  match o.org with
  | none => true
  | some g =>
    let w := (tget 0 (s.thread g.tid).regs.allow o.win).toNat
    decide (16 ≤ o.win) || nbits w 0 16 == 0 || decide (nbits w 16 16 < nbits w 0 16)

/-- FABRIC_PACKET_SEND: packet k of those that wait leaves the hub once a credit is held; without one, a CREQ is sent (R402, R406); a packet to a
device that is no live member is not delivered (R407). -/
def execFabricPacketSend (k : Nat) (s : State) : Host.Outcome State Fault Refusal :=
  match s.hub.outq[k]? with
  | none => .next s
  | some o =>
    let dst := o.pkt.dst.toNat
    let drop (s : State) : State := s.updHub (fun u => { u with outq := delNth u.outq k })
    if (s.hub.outq.take k).any o.follows then .next s
    else if ¬ s.isLive dst then .next ((drop s).unreachable o)
    else if ¬ s.belowLimit o then .next s
    else
      match tget [] s.fab.credits dst with
      | [] =>
        if s.fab.asked.contains dst then .next s
        else .next ((s.updFab (fun f => { f with asked := f.asked ++ [dst] })).sendPkt (ctlPkt 5 dst 0 0))
      | _ :: cs =>
        let seq := s.fab.seq
        let p : Packet := { o.pkt with src := s.hub.device, seq := BitVec.ofNat 32 seq }
        let s := (drop s).updFab (fun f => { f with credits := tset f.credits dst cs, sent := f.sent ++ [{ o with pkt := p }] })
        .next ((s.setOut o (fun n => n + 1)).sendPkt p)

/-- ACK_RECEIVE: the packet is done; its window's OUT falls, and a forwarded row's own sender is answered (R402, R404, R406, R425). -/
def execAckReceive (src seq : Nat) (s : State) : Host.Outcome State Fault Refusal :=
  let hit (o : OutPkt) : Bool := o.pkt.dst.toNat == src && o.pkt.seq.toNat == seq
  match s.fab.sent.find? hit with
  | none => .next s
  | some o =>
    let s := s.updFab (fun f => { f with sent := f.sent.filter (fun x => !hit x) })
    let s := s.setOut o (fun n => n - 1)
    .next (match o.ack with | some (a, b) => s.sendAck a b | none => s)

/-! ## Receiving (R397, R400, R412) -/

/-- GO of the boundary a device has flushed (R412). With FAIL, it reports devices as failed, and only the others stay to be reported (R415). -/
def State.receiveGo (s : State) (p : Packet) : State :=
  let b := s.fab.bnd
  if b.st = 2 ∧ p.stepno.toNat = b.n % 2 ^ 32 then
    let fail := p.umask.getLsbD 0
    let low := nbits p.umask.toNat 1 11
    let s := s.updBnd (fun b => { b with go := some (fail, low, p.umask.getLsbD 12) })
    s.updFab (fun f =>
      { f with lastGo := some (p.stepno.toNat, p.umask), newFailed := if fail then f.newFailed.filter (fun d => !b.reports low d) else f.newFailed })
  else s

/-- FLUSHED of a member reaches the coordinator (R412, R416); that of a boundary whose GO it has is answered with that GO (R415). -/
def State.receiveFlushed (s : State) (p : Packet) : State :=
  let e := (p.stepno.toNat, p.src.toNat)
  match s.fab.lastGo.filter (fun g => g.1 == p.stepno.toNat) with
  | some g => s.sendPkt (ctlPkt 8 p.src.toNat g.1 g.2.toNat)
  | none => s.updFab (fun f => { f with flushed := if f.flushed.contains e then f.flushed else f.flushed ++ [e], held := some (f.held.getD s.cycle) })

/-- A packet reaches its device: WRITE, FRED and TOKEN take an entry of the receive queue (R402); the rest act at once. -/
def State.receive (s : State) (p : Packet) : Host.Outcome State Fault Refusal :=
  let src := p.src.toNat
  match p.type.toNat with
  | 4 => execAckReceive src p.umask.toNat s
  | 5 => execCreditRequest src s
  | 6 => execCreditGrant src (nbits p.umask.toNat 0 8) s
  | 7 => .next (s.receiveFlushed p)
  | 8 => .next (s.receiveGo p)
  | 9 => execFailedNotice (nbits p.umask.toNat 0 11) s
  | _ => .next (s.updFab (fun f => { f with rxq := f.rxq ++ [p], given := tset f.given src ((tget [] f.given src).drop 1) }))

/-- A reserved TYPE (Table 19-2). -/
def Packet.reserved (p : Packet) : Bool := p.type == 0 || decide (10 ≤ p.type.toNat)

/-- PACKET_ROUTE: a packet arrives on a port: it is received, discarded for its TYPE, or forwarded along its path; its flits lie in the buffer of its
channel, which has room, since its sender has credits (R397, R400). -/
def execPacketRoute (port : Nat) (p : Packet) (s : State) : Host.Outcome State Fault Refusal :=
  let buf := bufferOf p.vc.toNat (s.fab.hopClass p)
  if Packet.reserved p then .next (s.updFab (fun f => { f with errors := f.errors + 1 }))
  else if p.dst = s.hub.device then s.receive p
  else if ¬ s.fab.roomAt (port % ownInput) buf p then .next s
  else
    let vc : BitVec 2 := if p.vc = 1 ∧ p.via = s.hub.device then 2 else p.vc
    let p := { p with hops := p.hops + 1, vc := vc }
    match s.fab.minimal (if vc = 1 then p.via.toNat else p.dst.toNat) with
    | some out => .next (s.queuePkt out (port % ownInput) buf p)
    | none => .next (s.reroute (port % ownInput) buf p)

/-- The oldest packet a device has sent to itself is received. -/
def State.loopback (s : State) : Host.Outcome State Fault Refusal :=
  match s.fab.queues.findIdx? (fun q => q.port == ownPort) with
  | none => .next s
  | some i =>
    match s.fab.queues[i]? with
    | none => .next s
    | some q => (s.updFab (fun f => { f with queues := delNth f.queues i })).receive q.pkt

/-! ## The pod context at an instruction (R403) -/

/-- A thread of another domain than DOM, at T, traps PERMISSION with sub-code 0x17. -/
def State.inPod (s : State) (f : State → State) : State :=
  if ¬ s.me.atF ∧ s.me.dom ≠ s.hub.pod.dom then s.raise (mapFault 0x17 0 .read 7 0) else f s

/-! ## Reduction lines (R418 to R421) -/

/-- FRED (R419); the places of its fields in dw3 and dw4 are log entry 16. -/
def execFred (gd : Guard) (d a b : BitVec 5) (s : State) : Host.Outcome State Fault Refusal :=
  guarded gd s (fun s =>
    let x := (s.s a).toNat
    let y := (s.s b).toNat
    if nbits x 38 26 ≠ 0 ∨ nbits x 0 26 % 64 ≠ 0 ∨ nbits y 21 43 ≠ 0 then s.illegal 0x0C 7
    else s.inPod (fun s =>
      let ln := nbits y 16 5
      let words := (List.range (ln + 1)).map (lane (s.v d))
      let p : Packet :=
        { ctlPkt 2 (nbits x 27 11) s.hub.pod.stepnum 0 with
          ndata := BitVec.ofNat 4 ((4 * (ln + 1) + 63) / 64), dom := s.me.dom, data := words,
          ext := BitVec.ofNat 96 (nbits y 0 16 + ln * 2 ^ 16 + nbits x 26 1 * 2 ^ 21 + nbits x 0 26 * 2 ^ 22 + s.me.dom.toNat * 2 ^ 48) }
      s.enqueue (.packets s.origin [(16, 0, p)]) 1 []))

/-- A 16-bit counter that saturates (R420). -/
def sat16 (n : Nat) : Nat := min 0xFFFF (n + 1)

/-- An operator of Table 19-4 on two words. -/
def redOp (op : Nat) (x y : Word) : Word :=
  match op with
  | 0 => x + y
  | 1 => (Fp.fadd .rne x y).1
  | 2 => if x.toInt ≤ y.toInt then x else y
  | 3 => if y.toInt ≤ x.toInt then x else y
  | 4 => x ||| y
  | _ => x &&& y

/-- One FRED packet at its line's bank (R420). -/
def State.applyFred (s : State) (p : Packet) : State :=
  let x := p.ext.toNat
  let eidx := nbits x 0 16
  let ln := nbits x 16 5
  let die := nbits x 21 1
  let off := nbits x 22 26
  let dom := nbits x 48 6
  let h := diePlace die off
  let bump (dw lo : Nat) : State := s.setDw h dw lo 16 (sat16 (s.dwField h dw lo 16))
  if ¬ s.ownsRange die dom off 64 ∨ 5 < s.dwField h 0 0 3 ∨ s.dwField h 1 0 16 < eidx + ln + 1 ∨ 2 ^ 26 < off + 64 + 4 * (eidx + ln + 1) then bump 1 48
  else if s.dwField h 0 3 1 = 0 then bump 1 16
  else if s.dwField h 0 4 1 = 1 then bump 1 32
  else
    let op := s.dwField h 0 0 3
    let s := (List.range (ln + 1)).foldl (fun s i =>
      let k := h + 64 + 4 * (eidx + i)
      s.write k 4 (redOp op (BitVec.ofNat 32 (s.read k 4)) (nth 0 p.data i)).toNat) s
    let seen := (s.dwField h 0 32 16 + 1) % 65536
    let s := s.setDw h 0 32 16 seen
    if seen = s.dwField h 0 16 16 then s.setDw h 0 4 1 1 else s

/-- FRED_APPLY: entry k of the receive queue, a FRED packet, is applied and acknowledged (R402, R420). -/
def execFredApply (k : Nat) (s : State) : Host.Outcome State Fault Refusal :=
  match s.fab.rxq[k]? with
  | none => .next s
  | some p => if p.type ≠ 2 then .next s else .next (((s.applyFred p).freeRx k).sendAck p.src.toNat p.seq.toNat)

end Sys2Proof.Machine
end

