-- ==== Sys2Proof/Machine/Vector.lean ====
section
/-! DEFINITION. The V slot (R125 to R145) and the pair word (R44, R45). -/

namespace Sys2Proof.Machine

open Sys2Proof

/-! ## Shared operations -/

/-- The results of the 32 lanes in order. -/
def lanes32 {α : Type} (f : Nat → α) : List α := (List.range 32).map f

/-- A masked vector result (R127): active lanes take their results and raise their flags; one write of all 32 lanes. -/
def State.vecPost (s : State) (d : BitVec 5) (z : BitVec 1) (k : BitVec 3) (lat : Nat) (rs : List (Word × Fp.Flags)) : State :=
  let fl := joinFlags ((onesBelow 32 (s.m k).toNat).map (fun i => (nth (0, 0) rs i).2))
  (s.flags fl).postV d (s.masked127 d z k (fun i => (nth (0, 0) rs i).1)) lat

/-- A vector result without a mask: every lane is written. -/
def State.vecAll (s : State) (d : BitVec 5) (lat : Nat) (rs : List (Word × Fp.Flags)) : State :=
  (s.flags (joinFlags (rs.map Prod.snd))).postV d (ofLanes (fun i => (nth (0, 0) rs i).1)) lat

/-- The second operand of the integer lane instructions: v[b], or s[b][31:0] in every lane when SB = 1 (R131). -/
def State.opSB (s : State) (e : BitVec 1) (b : BitVec 5) (i : Nat) : Word := if e = 1 then low32 (s.s b) else lane (s.v b) i

/-- R131: an exact result, wrapped or saturated by SAT. -/
def satOrWrap (sat : Nat) (r : Int) : Word × Fp.Flags :=
  match sat with
  | 1 => let (x, f) := satTo (-2147483648) 2147483647 r; (BitVec.ofInt 32 x, f)
  | 2 => let (x, f) := satTo 0 4294967295 r; (BitVec.ofInt 32 x, f)
  | _ => (BitVec.ofInt 32 r, 0)

/-- A lane as the integer that SAT reads it as: UINT32 for 2, else INT32 (R131). -/
def satRead (sat : Nat) (x : Word) : Int := if sat = 2 then x.toNat else x.toInt

/-- The work of a two-operand integer lane instruction. -/
def State.vecInt (s : State) (d a b : BitVec 5) (e z : BitVec 1) (k : BitVec 3) (lat : Nat) (f : Word → Word → Word → Word × Fp.Flags) :
    State :=
  s.vecPost d z k lat (lanes32 (fun i => f (lane (s.v a) i) (s.opSB e b i) (lane (s.v d) i)))

/-- The work of an FP32 lane instruction under a mode: 32 values under RST (R137). -/
def State.vecFp (s : State) (d a b : BitVec 5) (code : Nat) (z : BitVec 1) (k : BitVec 3) (f : Fp.Mode → Word → Word → Word → Word × Fp.Flags) :
    State :=
  let (md, s') := s.modes code 32
  s'.vecPost d z k 5 (lanes32 (fun i => f (md i) (lane (s.v a) i) (lane (s.v b) i) (lane (s.v d) i)))

/-- The work of VFMIN and VFMAX (R137). -/
def State.vecFminmax (s : State) (d a b : BitVec 5) (z : BitVec 1) (k : BitVec 3) (isMax : Bool) : State :=
  s.vecPost d z k 3 (lanes32 (fun i => Fp.fminmax isMax (lane (s.v a) i) (lane (s.v b) i)))

/-- The work of VRCP, VRSQ, VEXP2 and VLOG2 (R138). -/
def State.vecApprox (s : State) (op : Nat) (d a : BitVec 5) (z : BitVec 1) (k : BitVec 3) : State :=
  s.vecPost d z k 8 (lanes32 (fun i => Fp.approx op (lane (s.v a) i)))

/-- A result without flags. -/
def quiet (x : Word) : Word × Fp.Flags := (x, 0)

/-- The lane functions of R131 by name. -/
def laneAdd (sat : Nat) (x y _z : Word) : Word × Fp.Flags := satOrWrap sat (satRead sat x + satRead sat y)
def laneSub (sat : Nat) (x y _z : Word) : Word × Fp.Flags := satOrWrap sat (satRead sat x - satRead sat y)
def laneMad (sat : Nat) (x y z : Word) : Word × Fp.Flags := satOrWrap sat (satRead sat z + satRead sat x * satRead sat y)
def laneMulh (uns : Bool) (x y _z : Word) : Word × Fp.Flags :=
  quiet (BitVec.ofInt 32 ((if uns then (x.toNat : Int) * y.toNat else x.toInt * y.toInt) / (2 ^ 32 : Nat)))

/-! ## Integer lanes -/

/-- VADD (R131). -/
def execVadd (gd : Guard) (d a b : BitVec 5) (e : BitVec 1) (sf : BitVec 2) (z : BitVec 1) (k : BitVec 3) (s : State) : Host.Outcome State Fault Refusal :=
  guarded gd s (fun s => s.vecInt d a b e z k 2 (laneAdd sf.toNat))

/-- VSUB (R131). -/
def execVsub (gd : Guard) (d a b : BitVec 5) (e : BitVec 1) (sf : BitVec 2) (z : BitVec 1) (k : BitVec 3) (s : State) : Host.Outcome State Fault Refusal :=
  guarded gd s (fun s => s.vecInt d a b e z k 2 (laneSub sf.toNat))

/-- VMUL (R131). -/
def execVmul (gd : Guard) (d a b : BitVec 5) (e z : BitVec 1) (k : BitVec 3) (s : State) : Host.Outcome State Fault Refusal :=
  guarded gd s (fun s => s.vecInt d a b e z k 4 (fun x y _ => quiet (x * y)))

/-- VMULH (R131). -/
def execVmulh (gd : Guard) (d a b : BitVec 5) (e u z : BitVec 1) (k : BitVec 3) (s : State) : Host.Outcome State Fault Refusal :=
  guarded gd s (fun s => s.vecInt d a b e z k 4 (laneMulh (u == 1)))

/-- VMAD: v[d] is a source (R131). -/
def execVmad (gd : Guard) (d a b : BitVec 5) (e : BitVec 1) (sf : BitVec 2) (z : BitVec 1) (k : BitVec 3) (s : State) : Host.Outcome State Fault Refusal :=
  guarded gd s (fun s => s.vecInt d a b e z k 4 (laneMad sf.toNat))

/-- VAND (R131). -/
def execVand (gd : Guard) (d a b : BitVec 5) (e z : BitVec 1) (k : BitVec 3) (s : State) : Host.Outcome State Fault Refusal :=
  guarded gd s (fun s => s.vecInt d a b e z k 2 (fun x y _ => quiet (x &&& y)))

/-- VOR (R131). -/
def execVor (gd : Guard) (d a b : BitVec 5) (e z : BitVec 1) (k : BitVec 3) (s : State) : Host.Outcome State Fault Refusal :=
  guarded gd s (fun s => s.vecInt d a b e z k 2 (fun x y _ => quiet (x ||| y)))

/-- VXOR (R131). -/
def execVxor (gd : Guard) (d a b : BitVec 5) (e z : BitVec 1) (k : BitVec 3) (s : State) : Host.Outcome State Fault Refusal :=
  guarded gd s (fun s => s.vecInt d a b e z k 2 (fun x y _ => quiet (x ^^^ y)))

/-- VSHL by y[4:0] (R131). -/
def execVshl (gd : Guard) (d a b : BitVec 5) (e z : BitVec 1) (k : BitVec 3) (s : State) : Host.Outcome State Fault Refusal :=
  guarded gd s (fun s => s.vecInt d a b e z k 2 (fun x y _ => quiet (x <<< (y.toNat % 32))))

/-- VSHR by y[4:0] (R131). -/
def execVshr (gd : Guard) (d a b : BitVec 5) (e z : BitVec 1) (k : BitVec 3) (s : State) : Host.Outcome State Fault Refusal :=
  guarded gd s (fun s => s.vecInt d a b e z k 2 (fun x y _ => quiet (x >>> (y.toNat % 32))))

/-- VSAR by y[4:0] (R131). -/
def execVsar (gd : Guard) (d a b : BitVec 5) (e z : BitVec 1) (k : BitVec 3) (s : State) : Host.Outcome State Fault Refusal :=
  guarded gd s (fun s => s.vecInt d a b e z k 2 (fun x y _ => quiet (x.sshiftRight (y.toNat % 32))))

/-- VMIN (R131). -/
def execVmin (gd : Guard) (d a b : BitVec 5) (e u z : BitVec 1) (k : BitVec 3) (s : State) : Host.Outcome State Fault Refusal :=
  guarded gd s (fun s => s.vecInt d a b e z k 2 (fun x y _ => quiet (minMax false (u == 1) x y)))

/-- VMAX (R131). -/
def execVmax (gd : Guard) (d a b : BitVec 5) (e u z : BitVec 1) (k : BitVec 3) (s : State) : Host.Outcome State Fault Refusal :=
  guarded gd s (fun s => s.vecInt d a b e z k 2 (fun x y _ => quiet (minMax true (u == 1) x y)))

/-- VABS of a lane (R132). -/
def laneAbs (f : Bool) (x : Word) : Word × Fp.Flags :=
  if f then
    match Fp.f32 x with
    | .nan sig => (Fp.nan32, Fp.flagIf sig Fp.NV)
    | _ => quiet (x &&& 0x7FFFFFFF#32)
  else if x = 0x80000000#32 then (0x7FFFFFFF#32, Fp.SAT)
  else quiet (if x.toInt < 0 then -x else x)

/-- VABS (R132). -/
def execVabs (gd : Guard) (d a : BitVec 5) (f z : BitVec 1) (k : BitVec 3) (s : State) : Host.Outcome State Fault Refusal :=
  guarded gd s (fun s => s.vecPost d z k 2 (lanes32 (fun i => laneAbs (f == 1) (lane (s.v a) i))))

/-! ## Comparisons, selection and masks -/

/-- A comparison of every lane into a mask register: active bits take it and raise its flags; the others become 0 under Z and keep
m[d] otherwise (R133). -/
def State.maskPost (s : State) (d : BitVec 5) (z : BitVec 1) (k : BitVec 3) (lat : Nat) (f : Word → Word → Bool × Fp.Flags) (a b : BitVec 5) :
    State :=
  let rs := lanes32 (fun i => f (lane (s.v a) i) (lane (s.v b) i))
  let act := onesBelow 32 (s.m k).toNat
  let fl := joinFlags (act.map (fun i => (nth (false, 0) rs i).2))
  let bits := (act.filter (fun i => (nth (false, 0) rs i).1)).foldl (fun m i => m + 2 ^ i) 0
  let old := if z = 1 then 0 else s.m d &&& ~~~(s.m k)
  (s.flags fl).postM d (old ||| BitVec.ofNat 32 bits) lat

/-- VCMP (R133). -/
def execVcmp (gd : Guard) (d a b : BitVec 5) (c : BitVec 3) (z : BitVec 1) (k : BitVec 3) (s : State) : Host.Outcome State Fault Refusal :=
  guarded gd s (fun s => s.maskPost d z k 2 (fun x y => (cmpCode c.toNat x y, 0)) a b)

/-- VSEL: the mask register is the selector (R134). -/
def execVsel (gd : Guard) (d a b : BitVec 5) (x : BitVec 1) (sf : BitVec 3) (s : State) : Host.Outcome State Fault Refusal :=
  guarded gd s (fun s => s.postV d (ofLanes (fun i =>
    if s.active sf i != (x == 1) then lane (s.v a) i else lane (s.v b) i)) 2)

/-! ## FP32 lanes -/

/-- VFADD (R137). -/
def execVfadd (gd : Guard) (d a b : BitVec 5) (r : BitVec 3) (z : BitVec 1) (k : BitVec 3) (s : State) : Host.Outcome State Fault Refusal :=
  guarded gd s (fun s => s.vecFp d a b (s.roundCode3 r) z k (fun md x y _ => Fp.fadd md x y))

/-- VFSUB (R137). -/
def execVfsub (gd : Guard) (d a b : BitVec 5) (r : BitVec 3) (z : BitVec 1) (k : BitVec 3) (s : State) : Host.Outcome State Fault Refusal :=
  guarded gd s (fun s => s.vecFp d a b (s.roundCode3 r) z k (fun md x y _ => Fp.fsub md x y))

/-- VFMUL (R137). -/
def execVfmul (gd : Guard) (d a b : BitVec 5) (r : BitVec 3) (z : BitVec 1) (k : BitVec 3) (s : State) : Host.Outcome State Fault Refusal :=
  guarded gd s (fun s => s.vecFp d a b (s.roundCode3 r) z k (fun md x y _ => Fp.fmul md x y))

/-- VFMA (R137). -/
def execVfma (gd : Guard) (d a b : BitVec 5) (r : BitVec 3) (z : BitVec 1) (k : BitVec 3) (s : State) : Host.Outcome State Fault Refusal :=
  guarded gd s (fun s => s.vecFp d a b (s.roundCode3 r) z k (fun md x y z => Fp.fma md x y z))

/-- VFMIN (R137). -/
def execVfmin (gd : Guard) (d a b : BitVec 5) (z : BitVec 1) (k : BitVec 3) (s : State) : Host.Outcome State Fault Refusal :=
  guarded gd s (fun s => s.vecFminmax d a b z k false)

/-- VFMAX (R137). -/
def execVfmax (gd : Guard) (d a b : BitVec 5) (z : BitVec 1) (k : BitVec 3) (s : State) : Host.Outcome State Fault Refusal :=
  guarded gd s (fun s => s.vecFminmax d a b z k true)

/-- VFCMP (R133). -/
def execVfcmp (gd : Guard) (d a b : BitVec 5) (c : BitVec 3) (z : BitVec 1) (k : BitVec 3) (s : State) : Host.Outcome State Fault Refusal :=
  guarded gd s (fun s => s.maskPost d z k 3 (Fp.fcmp c.toNat) a b)

/-- VRCP (R138). -/
def execVrcp (gd : Guard) (d a : BitVec 5) (z : BitVec 1) (k : BitVec 3) (s : State) : Host.Outcome State Fault Refusal :=
  guarded gd s (fun s => s.vecApprox 0 d a z k)

/-- VRSQ (R138). -/
def execVrsq (gd : Guard) (d a : BitVec 5) (z : BitVec 1) (k : BitVec 3) (s : State) : Host.Outcome State Fault Refusal :=
  guarded gd s (fun s => s.vecApprox 1 d a z k)

/-- VEXP2 (R138). -/
def execVexp2 (gd : Guard) (d a : BitVec 5) (z : BitVec 1) (k : BitVec 3) (s : State) : Host.Outcome State Fault Refusal :=
  guarded gd s (fun s => s.vecApprox 2 d a z k)

/-- VLOG2 (R138). -/
def execVlog2 (gd : Guard) (d a : BitVec 5) (z : BitVec 1) (k : BitVec 3) (s : State) : Host.Outcome State Fault Refusal :=
  guarded gd s (fun s => s.vecApprox 3 d a z k)

/-! ## Narrow formats -/

/-- One element packed from a lane (R139): the floating formats round; INT8, INT4, INT16, QC4 and B1 saturate or test. -/
def packElem (f : Nat) (md : Fp.Mode) (x : Word) : Nat × Fp.Flags :=
  match f with
  | 7 => let (v, g) := satTo (-128) 127 x.toInt; (wrapN 8 v, g)
  | 8 => let (v, g) := satTo (-8) 7 x.toInt; (wrapN 4 v, g)
  | 9 => let (v, g) := satTo (-32768) 32767 x.toInt; (wrapN 16 v, g)
  | 10 => let (v, g) := satTo 0 15 x.toInt; (v.toNat, g)
  | 11 => (b2n (x != 0), 0)
  | _ => match Fp.fmtOf f with
    | some F => F.round md (Fp.f32 x)
    | none => (0, 0)

/-- One element widened to a lane, exactly (R139). -/
def wideElem (f : Nat) (e : Nat) : Word × Fp.Flags :=
  match f with
  | 7 => quiet (BitVec.ofInt 32 (sval 8 e))
  | 8 => quiet (BitVec.ofInt 32 (sval 4 e))
  | 9 => quiet (BitVec.ofInt 32 (sval 16 e))
  | 10 => quiet (BitVec.ofNat 32 e)
  | 11 => quiet (BitVec.ofNat 32 e)
  | _ => match Fp.fmtOf f with
    | some F => let (r, g) := Fp.fp32.round .rne (F.decode e); (BitVec.ofNat 32 r, g)
    | none => quiet 0

/-- VCVT, pack: part p of v[d] takes the 32 elements; `.fi` and `.if` convert whole lanes (R139). -/
def execVcvt (gd : Guard) (d a p : BitVec 5) (r : BitVec 3) (f : BitVec 4) (s : State) : Host.Outcome State Fault Refusal :=
  guarded gd s (fun s => 
    let fc := f.toNat
    let (md, s') := if vcvtRounds f then s.modes (s.roundCode3 r) 32 else ((fun _ => .rne), s)
    if fc = 12 then
      s'.vecAll d 6 (lanes32 (fun i => let (x, g) := Fp.toInt false 32 (md i) (lane (s.v a) i); (BitVec.ofNat 32 x, g)))
    else if fc = 13 then s'.vecAll d 6 (lanes32 (fun i => Fp.ofIntF (md i) (lane (s.v a) i).toInt))
    else
      let w := fmtWidth f
      let es := lanes32 (fun i => packElem fc (md i) (lane (s.v a) i))
      (s'.flags (joinFlags (es.map Prod.snd))).postV d
        (BitVec.ofNat 1024 (setBits (s.v d).toNat (32 * w * p.toNat) (32 * w) (packBits w (es.map Prod.fst)))) 6)

/-- VCVT, wide: part p of v[a] to 32 lanes (R139). -/
def execVcvtWide (gd : Guard) (d a p : BitVec 5) (f : BitVec 4) (s : State) : Host.Outcome State Fault Refusal :=
  guarded gd s (fun s => 
    let w := fmtWidth f
    s.vecAll d 6 (lanes32 (fun i => wideElem f.toNat (nbits (s.v a).toNat (32 * w * p.toNat + w * i) w))))

/-- The scale code that covers lane j (R140): lane 0 of the scale register, or lane 1 for lanes 16 to 31 when H = 1. -/
def scaleCode (v : VecReg) (h : Bool) (j : Nat) : Nat := nbits (lane v (if h && decide (16 ≤ j) then 1 else 0)).toNat 0 12

/-- The largest finite value of the formats 0x2 to 0x8 as m x 2^e (R140). -/
def fmtMax (f : Nat) : Nat × Int :=
  match f with
  | 2 => (448, 0) | 3 => (57344, 0) | 4 => (28, 0) | 5 => (15, -1) | 6 => (6, 0) | 7 => (127, 0) | _ => (7, 0)

/-- m x 2^e < n x 2^f. -/
def ltDyadic (m : Nat) (e : Int) (n : Nat) (f : Int) : Bool :=
  let k := min e f
  decide (m * 2 ^ (e - k).toNat < n * 2 ^ (f - k).toNat)

/-- The largest scale code whose value times M lies below m x 2^e, bit by bit from bit k - 1 down. -/
def scaleBelow (M : Nat × Int) (m : Nat) (e : Int) : Nat → Nat → Nat
  | 0, c => c
  | k + 1, c =>
    let c' := c + 2 ^ k
    match Fp.ue8m4 c' with
    | some (n, f) => if ltDyadic (n * M.1) (f + M.2) m e then scaleBelow M m e k c' else scaleBelow M m e k c
    | none => scaleBelow M m e k c

/-- VBSC of one block (R140): the smallest code whose value is at least amax / M. -/
def blockScale (f : Nat) (xs : List Word) : Nat × Fp.Flags :=
  if xs.any (fun x => match Fp.f32 x with | .fin _ _ _ => false | _ => true) then (0xFFF, Fp.NV)
  else
    let amax := xs.foldl (fun a x => max a (x.toNat % 2 ^ 31)) 0
    match Fp.f32 (BitVec.ofNat 32 amax) with
    | .fin _ m e => if m = 0 then (0, 0) else (min 0xFFE (scaleBelow (fmtMax f) m e 12 0 + 1), 0)
    | _ => (0xFFF, Fp.NV)

/-- VBSC (R140). -/
def execVbsc (gd : Guard) (d a : BitVec 5) (h : BitVec 1) (f : BitVec 3) (s : State) : Host.Outcome State Fault Refusal :=
  guarded gd s (fun s => 
    let xs := lanes32 (lane (s.v a))
    let fc := f.toNat + 2
    let c0 := blockScale fc (if h = 1 then xs.take 16 else xs)
    let c1 := if h = 1 then blockScale fc (xs.drop 16) else (0, 0)
    (s.flags (c0.2 ||| c1.2)).postV d (BitVec.ofNat 1024 (c0.1 + c1.1 * 2 ^ 32)) 6)

/-- VQNT of one lane by the value of its scale (R140). -/
def quantElem (f : Nat) (md : Fp.Mode) (x : Word) (c : Option (Nat × Int)) : Nat × Fp.Flags :=
  let F := Fp.fmtOf f
  match c with
  | none =>
    (match F with | some F => (if f = 2 ∨ f = 3 then F.nanCode else 0) | none => 0, Fp.NV)
  | some (n, k) =>
    if n = 0 then (match F with | some F => F.signBit (x.getLsbD 31) | none => 0, 0)
    else
      match Fp.f32 x with
      | .fin neg m e =>
        let (a, b) := Fp.asQ m (e - k)
        match F with
        | some F => F.roundQ md neg a (b * n)
        | none =>
          let w := if f = 7 then 8 else 4
          let (v, g) := Fp.roundIntQ (-(2 ^ (w - 1) : Nat)) ((2 ^ (w - 1) : Nat) - 1) md neg a (b * n)
          (wrapN w v, g)
      | y =>
        match F with
        | some F => F.round md y
        | none =>
          let w := if f = 7 then 8 else 4
          let (v, g) := Fp.roundInt (-(2 ^ (w - 1) : Nat)) ((2 ^ (w - 1) : Nat) - 1) md y
          (wrapN w v, g)

/-- The value of an element of the formats 0x2 to 0x8. -/
def elemNum (f e : Nat) : Fp.Num :=
  match f with
  | 7 => Fp.ofInt (sval 8 e)
  | 8 => Fp.ofInt (sval 4 e)
  | _ => match Fp.fmtOf f with
    | some F => F.decode e
    | none => .fin false 0 0

/-- An element times its block's scale, exactly (R80), with the NV of an infinity under a scale of 0; an INT element under a scale of 0 gives +0. -/
def scaled (isInt : Bool) (x : Fp.Num) (c : Option (Nat × Int)) : Fp.Num × Fp.Flags :=
  match x, c with
  | .nan sig, _ => (.nan false, Fp.flagIf sig Fp.NV)
  | _, none => (.nan false, 0)
  | .inf n, some (m, _) => if m = 0 then (.nan false, Fp.NV) else (.inf n, 0)
  | .fin n a e, some (m, k) => (.fin (n && !(isInt && m == 0)) (a * m) (e + k), 0)

/-- VQNT: the packed elements fill lanes 0 to w - 1, the others become 0 (R140). -/
def execVqnt (gd : Guard) (d a b : BitVec 5) (r : BitVec 3) (h : BitVec 1) (f : BitVec 3) (s : State) : Host.Outcome State Fault Refusal :=
  guarded gd s (fun s => 
    let fc := f.toNat + 2
    let (md, s') := s.modes (s.roundCode3 r) 32
    let es := lanes32 (fun i => quantElem fc (md i) (lane (s.v a) i) (Fp.ue8m4 (scaleCode (s.v b) (h == 1) i)))
    (s'.flags (joinFlags (es.map Prod.snd))).postV d
      (BitVec.ofNat 1024 (packBits (fmtWidth (BitVec.ofNat 4 fc)) (es.map Prod.fst))) 6)

/-- VDQNT: each lane is element x scale, rounded once (R140). -/
def execVdqnt (gd : Guard) (d a b : BitVec 5) (r : BitVec 3) (h : BitVec 1) (f : BitVec 3) (s : State) : Host.Outcome State Fault Refusal :=
  guarded gd s (fun s => 
    let fc := f.toNat + 2
    let w := fmtWidth (BitVec.ofNat 4 fc)
    let (md, s') := s.modes (s.roundCode3 r) 32
    s'.vecAll d 6 (lanes32 (fun i =>
      let (x, g) := scaled (fc == 7 || fc == 8) (elemNum fc (nbits (s.v a).toNat (w * i) w)) (Fp.ue8m4 (scaleCode (s.v b) (h == 1) i))
      let (y, g') := Fp.fp32.round (md i) x
      (BitVec.ofNat 32 y, g ||| g'))))

/-! ## Moving lanes -/

/-- VPERM (R141). -/
def execVperm (gd : Guard) (d a b : BitVec 5) (z : BitVec 1) (k : BitVec 3) (s : State) : Host.Outcome State Fault Refusal :=
  guarded gd s (fun s => s.vecPost d z k 2 (lanes32 (fun i => quiet (lane (s.v a) ((lane (s.v b) i).toNat % 32)))))

/-- VBCAST of s[a], or of a lane of v[a] (R141). -/
def execVbcast (gd : Guard) (d a b : BitVec 5) (l z : BitVec 1) (k : BitVec 3) (s : State) : Host.Outcome State Fault Refusal :=
  guarded gd s (fun s => 
    let x := if l = 1 then lane (s.v a) b.toNat else low32 (s.s a)
    s.vecPost d z k 2 (lanes32 (fun _ => quiet x)))

/-- VSLIDE by a signed count, rotating when R = 1 (R141). -/
def execVslide (gd : Guard) (d a : BitVec 5) (r : BitVec 1) (sf : BitVec 6) (s : State) : Host.Outcome State Fault Refusal :=
  guarded gd s (fun s => s.postV d (ofLanes (fun i =>
    let j := (i : Int) + sf.toInt
    if r = 1 then lane (s.v a) (j % 32).toNat else if 0 ≤ j ∧ j ≤ 31 then lane (s.v a) j.toNat else 0)) 2)

/-- VIOTA (R141). -/
def execViota (gd : Guard) (d a : BitVec 5) (i : BitVec 12) (kw : Option (BitVec 32)) (s : State) : Host.Outcome State Fault Refusal :=
  guarded gd s (fun s => s.postV d (ofLanes (fun j =>
    low32 (s.s a + BitVec.ofNat 64 j * immS12 i kw))) 2)

/-- VMOVS (R141). -/
def execVmovs (gd : Guard) (d a : BitVec 5) (u : BitVec 1) (l : BitVec 5) (s : State) : Host.Outcome State Fault Refusal :=
  guarded gd s (fun s => 
    let c := lane (s.v a) l.toNat
    s.postS d (if u = 1 then c.setWidth 64 else c.signExtend 64) 2)

/-- VINS (R141). -/
def execVins (gd : Guard) (d a l : BitVec 5) (s : State) : Host.Outcome State Fault Refusal :=
  guarded gd s (fun s => s.postV d (ofLanes (fun i =>
    if i = l.toNat then low32 (s.s a) else lane (s.v d) i)) 2)

/-! ## Reductions and scans -/

/-- FMIN or FMAX over members; a lone NaN gives the canonical NaN (R84, R142). -/
def foldMinMax (isMax : Bool) : List Word → Word × Fp.Flags
  | [] => quiet (Fp.inf32 isMax)
  | x :: xs =>
    let sig := (x :: xs).any (fun y => (Fp.f32 y).isSnan)
    let r := xs.foldl (fun a y => (Fp.fminmax isMax a y).1) x
    (if (Fp.f32 r).isNan then Fp.nan32 else r, Fp.flagIf sig Fp.NV)

/-- The operations of Table 5-5 over the members of a lane set, in lane order; no member gives the identity. -/
def reduceLanes (p : Nat) (md : Fp.Mode) (xs : List Word) : Word × Fp.Flags :=
  match p with
  | 0 => quiet (xs.foldl (· + ·) 0)
  | 1 => quiet (xs.foldl (minMax false false) 0x7FFFFFFF#32)
  | 2 => quiet (xs.foldl (minMax true false) 0x80000000#32)
  | 3 => quiet (xs.foldl (minMax false true) 0xFFFFFFFF#32)
  | 4 => quiet (xs.foldl (minMax true true) 0)
  | 5 => quiet (xs.foldl (· &&& ·) 0xFFFFFFFF#32)
  | 6 => quiet (xs.foldl (· ||| ·) 0)
  | 7 => quiet (xs.foldl (· ^^^ ·) 0)
  | 8 => (xs.foldl Fp.SumAcc.push Fp.SumAcc.zero).vred md
  | 9 => foldMinMax false xs
  | _ => foldMinMax true xs

/-- VRED into lane 0; the other lanes become 0 (R142). -/
def execVred (gd : Guard) (d a : BitVec 5) (p : BitVec 4) (k : BitVec 3) (s : State) : Host.Outcome State Fault Refusal :=
  guarded gd s (fun s => 
    let (md, s') := if p = 8 then s.modes s.src.ctl.round.toNat 1 else ((fun _ => .rne), s)
    let (x, fl) := reduceLanes p.toNat (md 0) ((onesBelow 32 (s.m k).toNat).map (lane (s.v a)))
    (s'.flags fl).postV d (BitVec.ofNat 1024 x.toNat) 6)

/-- VSCAN over the active lanes up to each active lane, or before it when X = 1 (R142). -/
def execVscan (gd : Guard) (d a : BitVec 5) (x : BitVec 1) (p : BitVec 4) (k : BitVec 3) (s : State) : Host.Outcome State Fault Refusal :=
  guarded gd s (fun s => 
    let (md, s') := if p = 8 then s.modes s.src.ctl.round.toNat 32 else ((fun _ => .rne), s)
    let act := onesBelow 32 (s.m k).toNat
    s'.vecPost d 0 k 6 (lanes32 (fun i =>
      reduceLanes p.toNat (md i) ((act.filter (fun j => decide (j < i) || (x == 0 && j == i))).map (lane (s.v a))))))

/-! ## Mask functions -/

/-- VMOP (R135). -/
def execVmop (gd : Guard) (d a b : BitVec 5) (f : BitVec 7) (s : State) : Host.Outcome State Fault Refusal :=
  guarded gd s (fun s => 
    let x := s.m a
    s.postM d (if f = 8 then x &&& (0 - x) else maskCode f.toNat x (s.m b)) 2)

/-- VMPOP .popc (R136). -/
def execVmpopPopc (gd : Guard) (d a : BitVec 5) (s : State) : Host.Outcome State Fault Refusal :=
  guarded gd s (fun s => s.postS d (BitVec.ofNat 64 (popN 32 (s.m a).toNat)) 2)

/-- VMPOP .ffs (R136). -/
def execVmpopFfs (gd : Guard) (d a : BitVec 5) (s : State) : Host.Outcome State Fault Refusal :=
  guarded gd s (fun s => s.postS d (BitVec.ofNat 64 (ffsN 32 (s.m a).toNat)) 2)

/-- VMPOP .get (R136). -/
def execVmpopGet (gd : Guard) (d a : BitVec 5) (s : State) : Host.Outcome State Fault Refusal :=
  guarded gd s (fun s => s.postS d ((s.m a).setWidth 64) 2)

/-- VMPOP .set (R136). -/
def execVmpopSet (gd : Guard) (d a : BitVec 5) (s : State) : Host.Outcome State Fault Refusal :=
  guarded gd s (fun s => s.postM d (low32 (s.s a)) 2)

/-! ## Random numbers and sparsity -/

/-- A 32-bit value as the FP32 number (u >> 8) x 2^-24 (R143). -/
def unitFloat (u : Nat) : Word := BitVec.ofNat 32 (Fp.fp32.round .rne (.fin false (u / 256) (-24))).1

/-- VRNG: 16 draws of two lanes, or 32 values of 16 bits (R143). -/
def execVrng (gd : Guard) (d : BitVec 5) (t : BitVec 2) (z : BitVec 1) (k : BitVec 3) (s : State) : Host.Outcome State Fault Refusal :=
  guarded gd s (fun s => 
    if t = 1 then
      let (us, s') := s.draws16 32
      s'.vecPost d z k 3 (us.map (fun u => quiet (BitVec.ofNat 32 u)))
    else
      let (xs, s') := s.draws64 16
      let us := xs.flatMap (fun x => [nbits x.toNat 0 32, nbits x.toNat 32 32])
      s'.vecPost d z k 3 (us.map (fun u => quiet (if t = 2 then unitFloat u else BitVec.ofNat 32 u))))

/-- VPRUNE of one lane with its 16-bit value (R144). -/
def pruneLane (tau x : Word) (u : Nat) : Word × Fp.Flags :=
  match Fp.f32 tau, Fp.f32 x with
  | .nan _, _ => (x, Fp.NV)
  | .inf true, _ => quiet x
  | .inf false, .nan sig => (Fp.nan32, Fp.flagIf sig Fp.NV)
  | .inf false, .inf _ => quiet x
  | .inf false, .fin _ _ _ => quiet 0
  | .fin n m e, y =>
    if n ∨ m = 0 then quiet x
    else
      match y with
      | .nan sig => (Fp.nan32, Fp.flagIf sig Fp.NV)
      | .inf _ => quiet x
      | .fin neg a b =>
        if ¬ ltDyadic a b m e then quiet x
        else
          let (p, q) := Fp.asQ a (b - e)
          if u < p * 65536 / (q * m) then quiet (BitVec.ofNat 32 (tau.toNat + b2n neg * 2 ^ 31)) else quiet 0

/-- VPRUNE (R144). -/
def execVprune (gd : Guard) (d a b : BitVec 5) (z : BitVec 1) (k : BitVec 3) (s : State) : Host.Outcome State Fault Refusal :=
  guarded gd s (fun s => 
    let (us, s') := s.draws16 32
    s'.vecPost d z k 6 (lanes32 (fun i => pruneLane (low32 (s.s b)) (lane (s.v a) i) (nth 0 us i))))

/-- The magnitude VNM orders a lane by (R145). All NaN lanes rank equal, whatever their payload, so that the lower index comes first: the model's choice,
since R145 says only that a NaN counts as larger than infinity (log entry 72). -/
def nmMagnitude (isInt : Bool) (x : Word) : Nat :=
  if isInt then x.toInt.natAbs else min (x.toNat % 2 ^ 31) 0x7F800001

/-- The lanes VNM keeps of a group of 16 from `base`, ascending: the N largest magnitudes, lower lanes first among equals. -/
def nmKeep (isInt : Bool) (n base : Nat) (v : VecReg) : List Nat :=
  let order := stableSort (fun i j => decide (nmMagnitude isInt (lane v j) < nmMagnitude isInt (lane v i)))
    ((List.range 16).map (base + ·))
  let kept := order.take n
  ((List.range 16).map (base + ·)).filter kept.contains

/-- VNM: the kept values of both groups, and their mask (R145). -/
def execVnm (gd : Guard) (d a b : BitVec 5) (i : BitVec 1) (sf : BitVec 2) (s : State) : Host.Outcome State Fault Refusal :=
  guarded gd s (fun s => 
    let n := 2 ^ (sf.toNat + 1)
    let kept := nmKeep (i == 1) n 0 (s.v a) ++ nmKeep (i == 1) n 16 (s.v a)
    let vals := kept.map (lane (s.v a))
    (s.postV d (ofLanes (fun j => nth 0 vals j)) 6).postM b (BitVec.ofNat 32 (kept.foldl (fun m j => m + 2 ^ j) 0)) 6)

/-! ## The pair word -/

/-- The short scalar operations of Table 2-6: the value and the latency of the full form; `sb` is the third operand's field. -/
def shortScalar (op : Nat) (x y : DWord) (sb : BitVec 3) : DWord × Nat :=
  match op with
  | 0 => (x + y, 1) | 1 => (x - y, 1) | 2 => (x &&& y, 1) | 3 => (x ||| y, 1) | 4 => (x ^^^ y, 1) | 5 => (x &&& ~~~y, 1)
  | 6 => (shlS x y.toNat, 1) | 7 => (shrS x y.toNat, 1) | 8 => (sarS x y.toNat, 1)
  | 9 => (minMax false false x y, 1) | 10 => (minMax true false x y, 1)
  | 11 => (minMax false true x y, 1) | 12 => (minMax true true x y, 1)
  | 13 => (x * y, 3) | 14 => (x + sb.signExtend 64, 1) | _ => (shlS x sb.toNat, 1)

/-- The short vector operations of Table 2-6: the full forms with FN = 0 (R45). -/
def State.shortVector (s : State) (op : Nat) (d a b : BitVec 5) : State :=
  let rc := s.src.ctl.round.toNat
  match op with
  | 0 => s.vecInt d a b 0 0 0 2 (laneAdd 0)
  | 1 => s.vecInt d a b 0 0 0 2 (laneSub 0)
  | 2 => s.vecInt d a b 0 0 0 4 (fun x y _ => quiet (x * y))
  | 3 => s.vecInt d a b 0 0 0 2 (fun x y _ => quiet (x &&& y))
  | 4 => s.vecInt d a b 0 0 0 2 (fun x y _ => quiet (x ||| y))
  | 5 => s.vecInt d a b 0 0 0 2 (fun x y _ => quiet (x ^^^ y))
  | 6 => s.vecInt d a b 0 0 0 2 (fun x y _ => quiet (x <<< (y.toNat % 32)))
  | 7 => s.vecInt d a b 0 0 0 2 (fun x y _ => quiet (x >>> (y.toNat % 32)))
  | 8 => s.vecInt d a b 0 0 0 2 (fun x y _ => quiet (x.sshiftRight (y.toNat % 32)))
  | 9 => s.vecInt d a b 0 0 0 2 (fun x y _ => quiet (minMax false false x y))
  | 10 => s.vecInt d a b 0 0 0 2 (fun x y _ => quiet (minMax true false x y))
  | 11 => s.vecFp d a b rc 0 0 (fun md x y _ => Fp.fadd md x y)
  | 12 => s.vecFp d a b rc 0 0 (fun md x y _ => Fp.fsub md x y)
  | 13 => s.vecFp d a b rc 0 0 (fun md x y _ => Fp.fmul md x y)
  | 14 => s.vecFminmax d a b 0 0 false
  | _ => s.vecFminmax d a b 0 0 true

/-- The slot whose presence bit the writes of the next operation carry (R53). -/
def State.inSlot (s : State) (n : Nat) : State := { s with cur := { s.cur with slot := n } }

/-- The pair word: both halves act under one guard (R44); the scalar half in slot S, the vector half in slot V. -/
def execPairWord (gd : Guard) (sop : BitVec 4) (d a b : BitVec 3) (vop : BitVec 4) (x y z : BitVec 3) (s : State) :
    Host.Outcome State Fault Refusal :=
  guarded gd s (fun s =>
    let (v, lat) := shortScalar sop.toNat (s.s (a.setWidth 5)) (s.s (b.setWidth 5)) b
    ((((s.inSlot 1).postS (d.setWidth 5) v lat).inSlot 2).shortVector vop.toNat (x.setWidth 5) (y.setWidth 5) (z.setWidth 5)).inSlot
      s.cur.slot)

end Sys2Proof.Machine
end

