-- ==== Sys2Proof/Machine/Select.lean ====
section
/-! DEFINITION. The Y slot: sorting, the running top-k, sums, histograms and compaction (R146 to R163). -/

namespace Sys2Proof.Machine

open Sys2Proof

/-! ## Keys and sums -/

/-- The rank of a key under a key type (Table 6-1). -/
def keyOrd (kt : Nat) (x : Word) : Int :=
  match kt with
  | 0 => x.toInt
  | 1 => x.toNat
  | _ => Fp.keyRank x

/-- `x` ranks strictly before `y`: ascending for D = 0, descending for D = 1 (R147). -/
def keyBefore (kt : Nat) (desc : Bool) (x y : Word) : Bool :=
  if desc then decide (keyOrd kt y < keyOrd kt x) else decide (keyOrd kt x < keyOrd kt y)

/-- The exact sum of a multiset of keys with the flags of R157: in units of 2^-149 for FP32 keys, of 1 otherwise. -/
structure KeySum where
  sum : Int
  nan : Bool
  snan : Bool
  pinf : Bool
  ninf : Bool
  deriving DecidableEq, Repr

def KeySum.zero : KeySum := ⟨0, false, false, false, false⟩

/-- A key joins the sum. -/
def KeySum.push (kt : Nat) (a : KeySum) (x : Word) : KeySum :=
  match kt with
  | 0 => { a with sum := a.sum + x.toInt }
  | 1 => { a with sum := a.sum + x.toNat }
  | _ =>
    match Fp.f32 x with
    | .nan s => { a with nan := true, snan := a.snan || s }
    | .inf n => { a with pinf := a.pinf || !n, ninf := a.ninf || n }
    | .fin n m e => { a with sum := a.sum + Fp.signed n (m * 2 ^ (e + 149).toNat) }

def keySum (kt : Nat) (xs : List Word) : KeySum := xs.foldl (KeySum.push kt) .zero

/-- The bound of the accumulator of LEFT (R157). -/
def leftMax : Int := (2 ^ 319 : Nat) - 1

/-- A sum held at ±(2^319 - 1). -/
def holdSum (x : Int) : Int := max (-leftMax) (min leftMax x)

/-- The result of a sum (R157): FP32 rounded once, or saturated to 64 bits. -/
def KeySum.result (kt : Nat) (md : Fp.Mode) (a : KeySum) : DWord × Fp.Flags :=
  match kt with
  | 0 => let (x, f) := satTo (-(2 ^ 63 : Nat)) ((2 ^ 63 : Nat) - 1) a.sum; (BitVec.ofInt 64 x, f)
  | 1 => let (x, f) := satTo 0 ((2 ^ 64 : Nat) - 1) a.sum; (BitVec.ofInt 64 x, f)
  | _ =>
    if a.nan then (Fp.nan32.setWidth 64, Fp.flagIf a.snan Fp.NV)
    else if a.pinf && a.ninf then (Fp.nan32.setWidth 64, Fp.NV)
    else if a.pinf || a.ninf then ((Fp.inf32 a.ninf).setWidth 64, 0)
    else if a.sum = 0 then ((Fp.zero32 md.isRdn).setWidth 64, 0)
    else
      let (r, f) := Fp.fp32.round md (.fin (a.sum < 0) a.sum.natAbs (-149))
      (BitVec.ofNat 64 r, f)

/-- Two sums: under RST the FP32 sums take one value each, s[d] first (R157). KT = 3, which only a resumed record can hold, is FP32 here too: the model's
choice (log entry 72). -/
def State.postSums (s : State) (d : BitVec 5) (kt code lat : Nat) (x y : KeySum) : State :=
  let (md, s) := if 2 ≤ kt then s.modes code 2 else ((fun _ => .rne), s)
  let a := x.result kt (md 0)
  let b := y.result kt (md 1)
  ((s.flags (a.2 ||| b.2)).postS d a.1 lat).postS (d + 1) b.1 lat

/-! ## Sorting, merging and ranking -/

/-- The order YSORT puts entries in, by their numbers (R151). -/
def sortOrder (kt : Nat) (desc : Bool) (keys : List Word) : List Nat :=
  stableSort (fun i j => keyBefore kt desc (nth 0 keys i) (nth 0 keys j)) (List.range keys.length)

/-- YSORT (R151). -/
def execYsort (gd : Guard) (d a b : BitVec 5) (x : BitVec 1) (t : BitVec 2) (s : State) : Host.Outcome State Fault Refusal :=
  guarded gd s (fun s =>
    let o := sortOrder t.toNat (x == 1) (lanes32 (lane (s.v a)))
    (s.postV d (ofLanes (fun r => lane (s.v a) (nth 0 o r))) 8).postV (d + 1) (ofLanes (fun r => lane (s.v b) (nth 0 o r))) 8)

/-- YMERGE: ranks 0 to 31 or 32 to 63 of the stable sort of both runs (R152). -/
def execYmerge (gd : Guard) (d a b : BitVec 5) (h x : BitVec 1) (t : BitVec 2) (s : State) : Host.Outcome State Fault Refusal :=
  guarded gd s (fun s =>
    let keys := lanes32 (lane (s.v a)) ++ lanes32 (lane (s.v b))
    let pays := lanes32 (lane (s.v (a + 1))) ++ lanes32 (lane (s.v (b + 1)))
    let o := (sortOrder t.toNat (x == 1) keys).drop (32 * h.toNat)
    (s.postV d (ofLanes (fun r => nth 0 keys (nth 0 o r))) 8).postV (d + 1) (ofLanes (fun r => nth 0 pays (nth 0 o r))) 8)

/-- YRANK (R153). -/
def execYrank (gd : Guard) (d a : BitVec 5) (x : BitVec 1) (t : BitVec 2) (s : State) : Host.Outcome State Fault Refusal :=
  guarded gd s (fun s =>
    let o := sortOrder t.toNat (x == 1) (lanes32 (lane (s.v a)))
    s.postV d (ofLanes (fun i => BitVec.ofNat 32 (o.idxOf i))) 8)

/-! ## The running top-k -/

/-- YTOPK INIT (R154). -/
def execYtopkInit (gd : Guard) (a : BitVec 5) (x : BitVec 1) (t : BitVec 2) (s : State) : Host.Outcome State Fault Refusal :=
  guarded gd s (fun s =>
    let k := s.s a
    if k = 0 ∨ 64 < k.toNat then s.raise (trapInfo .indexRange 2 k)
    else s.updMe (fun th => { th with sel := { Sel.closed with isOpen := true, kt := t, d := x == 1, k := k.setWidth 7 } }))

/-- A key leaves the live entries for LEFT (R155, R157). The sum is held in its bounds after every key, so that a NaN or an infinity, which adds nothing, also brings
a resumed LEFT of -2^319 to -(2^319 - 1): the model's choice (log entry 76). -/
def Sel.drop (sel : Sel) (x : Word) : Sel :=
  let a := KeySum.push sel.kt.toNat ⟨sel.left.toInt, sel.leftNan, sel.leftSnan, sel.leftPinf, sel.leftNinf⟩ x
  { sel with left := BitVec.ofInt 320 (holdSum a.sum), leftNan := a.nan, leftSnan := a.snan, leftPinf := a.pinf, leftNinf := a.ninf }

/-- The order of the live entries (R155): the better key first, and the lower arrival number first among equal keys. -/
def Sel.before (sel : Sel) (e f : SelEntry) : Bool :=
  let better := keyBefore sel.kt.toNat (!sel.d)
  better e.key f.key || (!better f.key e.key && decide (e.arrival < f.arrival))

/-- One offered lane enters by its rank; a full state drops its last entry (R155). Of a resumed state, K above 64 counts as 64 and COUNT above K as full,
which R148 and R155 do not test: the model's choice (log entry 72). -/
def Sel.offer (sel : Sel) (key index : Word) : Sel :=
  let es := insertBy sel.before ⟨key, index, sel.seq⟩ sel.entries
  let sel := { sel with seq := sel.seq + 1 }
  if min 64 sel.k.toNat ≤ sel.count.toNat then
    match es.getLast? with
    | some e => { sel with entries := es.dropLast }.drop e.key
    | none => sel
  else { sel with entries := es, count := sel.count + 1 }

/-- YTOPK ADD: the active lanes in ascending order; no effect on a closed state (R155). -/
def execYtopkAdd (gd : Guard) (a b : BitVec 5) (k : BitVec 3) (s : State) : Host.Outcome State Fault Refusal :=
  guarded gd s (fun s =>
    if ¬ s.src.sel.isOpen then s
    else
      let act := onesBelow 32 (s.m k).toNat
      let va := s.v a
      let vb := s.v b
      s.updMe (fun t => { t with sel := act.foldl (fun sel i => sel.offer (lane va i) (lane vb i)) t.sel }))

/-- The sums of KEPT and LEFT (R157). -/
def Sel.kept (sel : Sel) : KeySum := keySum sel.kt.toNat (sel.entries.map SelEntry.key)
def Sel.leftSum (sel : Sel) : KeySum := ⟨sel.left.toInt, sel.leftNan, sel.leftSnan, sel.leftPinf, sel.leftNinf⟩

/-- A closed state as it reads (R156, R158): without entries or sums, whatever a resumed record holds. -/
def Sel.live (sel : Sel) : Sel := if sel.isOpen then sel else Sel.closed

/-- KEPT and LEFT, in the state's key type; both 0 of a closed state (R156 to R158). -/
def State.postSelSums (s : State) (d : BitVec 5) (code lat : Nat) : State :=
  let sel := s.src.sel
  if sel.isOpen then s.postSums d sel.kt.toNat code lat sel.kept sel.leftSum else (s.postS d 0 lat).postS (d + 1) 0 lat

/-- YTOPK OUT: part b of the selection, and with a ≠ 0 both sums under $round (R156). -/
def execYtopkOut (gd : Guard) (d a b : BitVec 5) (s : State) : Host.Outcome State Fault Refusal :=
  guarded gd s (fun s =>
    let es := s.src.sel.live.entries.drop (32 * b.toNat)
    let s := (s.postV d (ofLanes (fun j => (es[j]?.map SelEntry.key).getD 0)) 6).postV (d + 1)
      (ofLanes (fun j => (es[j]?.map SelEntry.index).getD 0xFFFFFFFF#32)) 6
    if a = 0 then s else s.postSelSums a s.src.ctl.round.toNat 6)

/-- YSUMS: the selected lanes and the others, or KEPT and LEFT with the state's key type (R158). -/
def execYsums (gd : Guard) (d a b : BitVec 5) (r : BitVec 3) (y : BitVec 1) (t : BitVec 2) (s : State) :
    Host.Outcome State Fault Refusal :=
  guarded gd s (fun s =>
    let code := s.roundCode3 r
    if y = 1 then s.postSelSums d code 4
    else
      let pick (on : Bool) := ((List.range 32).filter (fun i => s.active b i == on)).map (lane (s.v a))
      s.postSums d t.toNat code 4 (keySum t.toNat (pick true)) (keySum t.toNat (pick false)))

/-! ## Counting, compaction and extremes -/

/-- YBKT: how many active boundaries are not greater than each key (R159). -/
def execYbkt (gd : Guard) (d a b : BitVec 5) (k : BitVec 3) (t : BitVec 2) (s : State) : Host.Outcome State Fault Refusal :=
  guarded gd s (fun s =>
    let bounds := (onesBelow 32 (s.m k).toNat).map (fun j => keyOrd t.toNat (lane (s.v b) j))
    s.postV d (ofLanes (fun i =>
      BitVec.ofNat 32 (bounds.filter (fun x => decide (x ≤ keyOrd t.toNat (lane (s.v a) i)))).length)) 6)

/-- YHIST: v[d] is a source (R160). -/
def execYhist (gd : Guard) (d a b : BitVec 5) (w : BitVec 1) (k : BitVec 3) (s : State) : Host.Outcome State Fault Refusal :=
  guarded gd s (fun s =>
    let act := onesBelow 32 (s.m k).toNat
    s.postV d (ofLanes (fun t =>
      (act.filter (fun i => (lane (s.v a) i).toNat == t)).foldl (fun h i => h + (if w = 1 then lane (s.v b) i else 1)) (lane (s.v d) t))) 6)

/-- YCMPR (R161). -/
def execYcmpr (gd : Guard) (d a b : BitVec 5) (s : State) : Host.Outcome State Fault Refusal :=
  guarded gd s (fun s =>
    let xs := (onesBelow 32 (s.m b).toNat).map (lane (s.v a))
    s.postV d (ofLanes (fun i => nth 0 xs i)) 4)

/-- YEXPD (R161). -/
def execYexpd (gd : Guard) (d a b : BitVec 5) (z : BitVec 1) (s : State) : Host.Outcome State Fault Refusal :=
  guarded gd s (fun s =>
    s.postV d (ofLanes (fun i =>
      if s.active b i then lane (s.v a) (popN i (s.m b).toNat) else if z = 1 then 0 else lane (s.v d) i)) 4)

/-- YARGX: the extreme key and its lane; the lowest lane among equals (R162). -/
def execYargx (gd : Guard) (d a : BitVec 5) (k : BitVec 3) (x : BitVec 1) (t : BitVec 2) (s : State) :
    Host.Outcome State Fault Refusal :=
  guarded gd s (fun s =>
    let act := onesBelow 32 (s.m k).toNat
    match stableSort (fun i j => keyBefore t.toNat (x == 0) (lane (s.v a) i) (lane (s.v a) j)) act with
    | [] => s.postS d 0x20 4
    | i :: _ => s.postS d (BitVec.ofNat 64 ((lane (s.v a) i).toNat * 2 ^ 32 + i)) 4)

end Sys2Proof.Machine
end

