-- ==== Sys2Proof/Machine/Harvest.lean ====
section
/-! DEFINITION. The pod superstep: STEP, the granary, the boundary protocol, the harvest, and the dispatch engine (R408 to R417, R422 to R429). -/

namespace Sys2Proof.Machine

open Sys2Proof

/-! ## STEP (R411, R417) -/

/-- The boundary is entered (R411); STEPNUM rises at the end of the cycle. -/
def State.enterBoundary (s : State) : State := s.updBnd (fun b => { b with st := 1, enterAt := none })

/-- An arrival with a capacity: the step it belongs to. -/
def State.arrive (s : State) (cap : Nat) : State × Nat :=
  let b := s.fab.bnd
  if b.st = 0 then
    let s := s.updBnd (fun b => { b with arrivals := b.arrivals + 1, supplied := max b.supplied cap })
    (if s.hub.pod.pcount ≤ b.arrivals + 1 then s.enterBoundary else s, b.n)
  else (s.updBnd (fun b => { b with arrivalsNext := b.arrivalsNext + 1, suppliedNext := max b.suppliedNext cap }), b.n + 1)

/-- At the end of a cycle: a device with PCOUNT = 0 enters its boundary, and STEPNUM takes the number of the step after a boundary entered (R411). -/
def State.boundaryTick (s : State) : State :=
  let b := s.fab.bnd
  let s := match b.enterAt with
    | some c => if b.st = 0 ∧ c ≤ s.cycle ∧ s.hub.pod.pcount = 0 then s.enterBoundary else s
    | none => s
  if s.fab.bnd.st ≠ 0 ∧ s.hub.pod.stepnum = s.fab.bnd.n then s.updHub (fun u => { u with pod := { u.pod with stepnum := u.fab.bnd.n + 1 } }) else s

/-- STEP: a release of scope .pod, an arrival, and the wait for the boundary (R411, R417). -/
def execStep (gd : Guard) (d a : BitVec 5) (t : BitVec 1) (s : State) : Host.Outcome State Fault Refusal :=
  guarded gd s (fun s => s.inPod (fun s => s.whenDrained (fun s =>
    let (s, n) := (s.updMe (fun th => th.release 5)).arrive (if a = 0 then 0 else (s.s a).toNat)
    let id := s.me.nextId
    let s := s.updMe (fun th =>
      let th := if d = 0 then th else (th.lock s.cur.slot (.s d.toNat) id).lock s.cur.slot (.s (d.toNat + 1)) id
      { th with nextId := id + 1 })
    s.waitFor (.step d.toNat id (t == 1) n))))

/-! ## The granary (R408 to R410) -/

def GranEnt.size (e : GranEnt) : Nat := 64 + 64 * e.pkt.ndata.toNat

/-- The capacity a boundary sets (R409). -/
def State.stepCap (s : State) (old supplied : Nat) : Nat :=
  if supplied = 0 then old else min ((supplied + 63) / 64 * 64) (2 ^ 24 + s.hub.pod.gback * 2 ^ 20)

/-- Where a packet's step stands against the oldest step not applied: 0 or 1 is placed, 2 is held, 3 is below. -/
def State.stepClass (s : State) (p : Packet) : Nat :=
  let d := (p.stepno.toNat + 2 ^ 32 - s.fab.bnd.n % 2 ^ 32) % 2 ^ 32
  if d ≤ 1 then d else if d < 2 ^ 31 then 2 else 3

/-- An entry is placed, or, where it would exceed its step's capacity, counted as overflow (R410). -/
def State.placeEntry (s : State) (next : Bool) (p : Packet) (tok : Option (Nat × Nat × Nat)) : State :=
  let b := s.fab.bnd
  let step := if next then b.n + 1 else b.n
  let cap := if next then s.stepCap b.cap b.supplied else b.cap
  let e : GranEnt := ⟨step, p, tok⟩
  let used := (s.fab.gran.filter (fun x => x.step == step)).foldl (fun a x => a + x.size) 0
  if cap < used + e.size then s.updBnd (fun b => if next then { b with overNext := b.overNext + e.size } else { b with excess := b.excess + e.size })
  else s.updFab (fun f => { f with gran := f.gran ++ [e] })

/-- WRITE_PLACE: entry k of the receive queue, a WRITE packet, is placed in the granary, held, or discarded (R408, R410). -/
def execWritePlace (k : Nat) (s : State) : Host.Outcome State Fault Refusal :=
  match s.fab.rxq[k]? with
  | none => .next s
  | some p =>
    if p.type ≠ 1 then .next s
    else
      match s.stepClass p with
      | 2 => .next s
      | 3 => .next ((s.updFab (fun f => { f with errors := f.errors + 1 })).freeRx k)
      | c => .next (((s.placeEntry (c == 1) p none).freeRx k).sendAck p.src.toNat p.seq.toNat)

/-! ## The dispatch context (Table 19-8) -/

/-- The bytes of a row (PLEN). -/
def State.rowBytes (s : State) (die : Nat) : Nat := 16 * (s.ctxField die 0 0 5 + 1)

/-- The map entry of an expert: its device and die, if valid. -/
def State.expert (s : State) (die e : Nat) : Option (Nat × Nat) :=
  let w := s.read (s.ctxAt die (0x840 + 2 * e)) 2
  if w.testBit 15 then some (nbits w 0 11, nbits w 11 1) else none

/-- The place of row r of basket k. -/
def State.rowPlace (s : State) (die k r : Nat) : Nat :=
  let rs := s.rowBytes die
  diePlace die (s.ctxField die 0x10 0 26 + k * (s.ctxField die 0 16 10 + 1) * rs + r * rs)

/-- SLADD: its operands' reserved bits, and the payload as a load of the thread (R423). -/
def execSladd (gd : Guard) (d a b : BitVec 5) (s : State) : Host.Outcome State Fault Refusal :=
  guarded gd s (fun s =>
    let x := (s.s a).toNat
    let y := (s.s b).toNat
    let p := nbits y 32 20
    if nbits x 24 8 ≠ 0 ∨ nbits y 52 12 ≠ 0 ∨ p % 16 ≠ 0 then s.illegal 0x0D 7
    else s.inPod (fun s =>
      let len := s.rowBytes (dieOf s.cur.tid) - 16
      let g := gField d
      if len = 0 then s.dieCmd (.sladd (s.s a) (s.s b) g (some [])) 1 [.g g]
      else s.access ⟨.read, false, none, 7⟩ 16 (piecesOf p len) (fun s _ =>
        let id := s.me.nextId
        (s.dieCmd (.sladd (s.s a) (s.s b) g none) 1 [.g g]).enqueue (.sladd id (padPlace (coreOf s.cur.tid) p) len) 3 [])))

/-- The basket a row toward a device joins (R423). -/
def State.basketFor (s : State) (die dev : Nat) : Option Nat :=
  let n := s.ctxField die 0 8 6 + 1
  let e (k : Nat) : Nat := s.read (s.ctxAt die (0x40 + 16 * k)) 8
  match (List.range n).find? (fun k => (e k).testBit 11 && nbits (e k) 0 11 == dev) with
  | some k => some k
  | none => (List.range n).find? (fun k => !(e k).testBit 11)

/-- SLADD at the die engine (R423): the value of its guard. -/
def State.applySladd (s : State) (die : Nat) (x y : Nat) (payload : List Byte) : State × Bool :=
  let e1 := nbits x 0 12
  match s.expert die e1 with
  | none => (s, false)
  | some (dev, _) =>
    match s.basketFor die dev with
    | none => (s, false)
    | some k =>
      let n := s.ctxField die (0x40 + 16 * k) 16 12
      if s.ctxField die 0 16 10 + 1 ≤ n then (s, false)
      else
        let head := e1 + nbits x 12 12 * 2 ^ 12 + dev * 2 ^ 24 + s.hub.device.toNat * 2 ^ 36
        let row := natBytes 8 head ++ natBytes 4 (nbits y 0 32) ++ natBytes 4 (nbits x 32 32) ++ payload
        let s := s.putBytes (s.rowPlace die k n) row
        (s.setCtx die (0x40 + 16 * k) 0 28 (dev + 2 ^ 11 + (n + 1) * 2 ^ 16), true)

/-- SLSEND goes to the die engine with the STEPNUM of its issue (R424, R429). -/
def execSlsend (gd : Guard) (d : BitVec 5) (s : State) : Host.Outcome State Fault Refusal :=
  guarded gd s (fun s => s.inPod (fun s => s.dieCmd (.slsend d.toNat s.hub.pod.stepnum) 1 [.s d.toNat]))

/-- A row's TOKEN packet; the die of its target and, in the type-specific field, the die it left. -/
def tokenPkt (dev die srcDie step : Nat) (dom : BitVec 6) (row : List Byte) : Packet :=
  { ctlPkt 3 dev step 0 with
    ext := BitVec.ofNat 96 srcDie,
    ndata := BitVec.ofNat 4 ((row.length + 63) / 64), die := BitVec.ofNat 1 die, dom := dom, data := splitWords (row.length / 4) (leNat row) }

/-- SLSEND at the engine (R424): every row of every basket becomes a packet, and V and NROW of the baskets are cleared; the rows sent. -/
def State.applySlsend (s : State) (die step id : Nat) (dom : BitVec 6) : State × Nat :=
  let rs := s.rowBytes die
  let ks := (List.range (s.ctxField die 0 8 6 + 1)).filter (fun k => s.ctxField die (0x40 + 16 * k) 11 1 = 1)
  let rows := ks.flatMap (fun k => (List.range (s.ctxField die (0x40 + 16 * k) 16 12)).map (fun r =>
    let row := s.bytesAt (s.rowPlace die k r) rs
    let dst := s.ctxField die (0x40 + 16 * k) 0 11
    let tdie := ((s.expert die (nbits (leNat (row.take 2)) 0 12)).map Prod.snd).getD 0
    (⟨none, id, 16, 0, none, tokenPkt dst tdie die step dom row⟩ : OutPkt)))
  let s := ks.foldl (fun s k => (s.setCtx die (0x40 + 16 * k) 11 1 0).setCtx die (0x40 + 16 * k) 16 12 0) s
  (s.updHub (fun u => { u with outq := u.outq ++ rows }), rows.length)

/-- SLRECV: its selector's reserved bits; the counts are read by the engine (R426). -/
def execSlrecv (gd : Guard) (d a : BitVec 5) (s : State) : Host.Outcome State Fault Refusal :=
  guarded gd s (fun s =>
    let x := (s.s a).toNat
    if nbits x 7 57 ≠ 0 then s.illegal 0x0F 7 else s.inPod (fun s => s.dieCmd (.slrecv d.toNat x) 1 [.s d.toNat]))

/-- The value of SLRECV (R426). -/
def State.slrecvValue (s : State) (die sel : Nat) : Nat :=
  if sel.testBit 6 then s.ctxField die 8 0 32
  else
    let j := 0x440 + 16 * (sel % 64)
    if s.ctxField die j 12 1 = 0 then 0
    else s.ctxField die (j + 8) 32 10 + s.ctxField die (j + 8) 48 10 * 2 ^ 16 + s.ctxField die j 0 12 * 2 ^ 32

/-! ## Token rows at their target (R425) -/

/-- Rows placed in a step for a local expert, or in the spill area (64). -/
def State.placedFor (s : State) (step die j : Nat) : List GranEnt :=
  s.fab.gran.filter (fun e => e.step == step && (match e.tok with | some (d, i, _) => d == die && i == j | none => false))

/-- The first doubleword of a row. -/
def rowHead (p : Packet) : Nat := joinWords (p.data.take 2)
def setHead (p : Packet) (w : Nat) : Packet := { p with data := splitWords 2 w ++ p.data.drop 2 }

/-- A row leaves again, to its second choice or back to its source; its own sender is answered when it is acknowledged (R425, R429). -/
def State.forwardRow (s : State) (p : Packet) (head dst die : Nat) : State :=
  let q := { setHead p head with dst := BitVec.ofNat 11 dst, die := BitVec.ofNat 1 die, vc := 0, hops := 0, esc := false, via := 0 }
  s.updHub (fun u => { u with outq := u.outq ++ [(⟨none, 0, 16, 0, some (p.src.toNat, p.seq.toNat), q⟩ : OutPkt)] })

/-- An earlier row for a die's engine, of a step that is not held back, is placed first: rows are placed in arrival order (R425). -/
def State.rowAhead (s : State) (k : Nat) (p : Packet) : Bool := (s.fab.rxq.take k).any (fun q => q.type == 3 && q.die == p.die && s.stepClass q != 2)

/-- TOKEN_PLACE: entry k of the receive queue, a TOKEN packet, is placed, forwarded to its second choice, or spilled (R425). -/
def execTokenPlace (k : Nat) (s : State) : Host.Outcome State Fault Refusal :=
  match s.fab.rxq[k]? with
  | none => .next s
  | some p =>
    if p.type ≠ 3 ∨ s.rowAhead k p then .next s
    else
      match s.stepClass p with
      | 2 => .next s
      | 3 => .next ((s.updFab (fun f => { f with errors := f.errors + 1 })).freeRx k)
      | c =>
        let die := p.die.toNat
        let step := s.fab.bnd.n + c
        let w := rowHead p
        let done (s : State) : State := (s.freeRx k).sendAck p.src.toNat p.seq.toNat
        if w.testBit 47 then
          let n := (s.placedFor step die 64).length
          if n < s.ctxField die 0 16 10 + 1 then .next (done (s.placeEntry (c == 1) p (some (die, 64, n))))
          else .next (done (s.updDie die (fun y => { y with disp := tset y.disp step (tget 0 y.disp step + 1) })))
        else
          let hop := w.testBit 35
          let x := if hop then nbits w 12 12 else nbits w 0 12
          let has (j : Nat) : Bool := decide (s.ctxField die (0x440 + 16 * j) 12 1 = 1 ∧ s.ctxField die (0x440 + 16 * j) 0 12 = x)
          let room : Option (Nat × Nat) := ((List.range 64).find? has).bind (fun j =>
            let n := (s.placedFor step die j).length
            if n < s.ctxField die (0x440 + 16 * j) 13 5 + 1 then some (j, n) else none)
          match room with
          | some (j, n) => .next (done (s.placeEntry (c == 1) p (some (die, j, n))))
          | none =>
            match (if hop ∨ nbits w 12 12 = 0xFFF then none else s.expert die (nbits w 12 12)) with
            | some (dev, d) => .next ((s.forwardRow p (setBits (setBits w 35 1 1) 24 11 dev) dev d).freeRx k)
            | none => .next ((s.forwardRow p (setBits w 47 1 1) (nbits w 36 11) (nbits p.ext.toNat 0 1)).freeRx k)

/-! ## The boundary protocol (Table 19-6a) -/

/-- A packet of the device stamped with a step has not been sent and acknowledged (R412). -/
def State.unflushed (s : State) (n : Nat) : Bool :=
  let stamp (p : Packet) : Bool := (p.type == 1 || p.type == 2 || p.type == 3) && p.stepno.toNat == n % 2 ^ 32
  s.hub.outq.any (fun o => stamp o.pkt) || s.fab.sent.any (fun o => stamp o.pkt) ||
  s.threads.any (fun t => t.2.memQ.any (fun a => match a.op with | .packets _ ps => ps.any (fun p => stamp p.2.2) | _ => false)) ||
  (List.range 2).any (fun d => (s.die d).cmds.any (fun c => match c.op with | .slsend _ m => m == n | _ => false))

/-- FLUSH_COMPLETE: every packet of the step has been sent and acknowledged, and FLUSHED goes to the coordinator (R412). -/
def execFlushComplete (s : State) : Host.Outcome State Fault Refusal :=
  let b := s.fab.bnd
  if b.st ≠ 1 ∨ s.hub.pod.stepnum ≠ b.n + 1 ∨ s.unflushed b.n then .next s
  else .next ((s.updBnd (fun b => { b with st := 2, told := s.fab.newFailed })).sendFlushed b.n)

/-- The members whose FLUSHED of the current boundary the coordinator lacks. -/
def State.missing (s : State) : List Nat := s.liveMembers.filter (fun d => !s.fab.flushed.contains (s.fab.bnd.n % 2 ^ 32, d))

/-- COORDINATOR_GO: with every FLUSHED held, GO goes to every live member with FAIL, the failed id and SKEW (R412, R415, R416). -/
def execCoordinatorGo (s : State) : Host.Outcome State Fault Refusal :=
  let n := s.fab.bnd.n
  if s.coordinator ≠ some s.hub.device.toNat ∨ s.fab.bnd.st ≠ 2 ∨ s.missing ≠ [] ∨ s.liveMembers = [] then .next s
  else
    let failed := s.fab.newFailed
    let low := failed.foldl (fun a d => min a d) 2047
    let arg := b2n (failed != []) + (if failed = [] then 0 else low) * 2 + b2n s.fab.skewed * 2 ^ 12
    let s := s.liveMembers.foldl (fun s d => s.sendPkt (ctlPkt 8 d n arg)) s
    .next (s.updFab (fun f =>
      { f with flushed := f.flushed.filter (fun e => e.1 != n % 2 ^ 32), held := none, skewed := false, newFailed := [], lastGo := some (n % 2 ^ 32, BitVec.ofNat 32 arg) }))

/-- STEP_SKEW: the coordinator has held a FLUSHED for SKEWLIM cycles and lacks another (R416). -/
def execStepSkew (s : State) : Host.Outcome State Fault Refusal :=
  match s.fab.held, s.missing with
  | some c, m :: _ =>
    if s.coordinator ≠ some s.hub.device.toNat ∨ s.fab.skewed ∨ s.cycle < c + s.hub.pod.skewlim ∨ ¬ s.fab.flushed.any (fun e => e.1 == s.fab.bnd.n % 2 ^ 32) then .next s
    else
      let x : DWord := BitVec.ofNat 64 m
      let s := (s.event 0 0x0160 none noTid 0 (some x) none).event 1 0x0160 none noTid 0 (some x) none
      .next ((s.updFab (fun f => { f with skewed := true })).irq)
  | _, _ => .next s

/-! ## The harvest (R413) -/

/-- One unit of one entry: its location ({DIE, CLU, CORE, OFF} of Table 19-6), source, SEQ, rule, operator and value. -/
structure Contrib where
  loc : Nat
  src : Nat
  seq : Nat
  rule : Nat
  op : Nat
  val : Word
  deriving DecidableEq, Repr

/-- The location of a WRITE packet. -/
def pktLoc (p : Packet) : Nat := p.off.toNat + p.core.toNat * 2 ^ 20 + p.clu.toNat * 2 ^ 23 + p.die.toNat * 2 ^ 28

/-- The core of a location. -/
def locCore (l : Nat) : Nat := 256 * nbits l 28 1 + 8 * nbits l 23 5 + nbits l 20 3
def locKey (l : Nat) : Nat := padPlace (locCore l) (l % 2 ^ 20)

/-- An entry that is not applied: its cluster belongs to another domain, or it lies in the areas of R165 and R269. -/
def State.rejects (s : State) (p : Packet) : Bool := (s.cluster (locCore (pktLoc p) / 8)).dom != p.dom || isReserved p.off.toNat

/-- The units of an entry. -/
def contribs (p : Packet) : List Contrib :=
  (onesBelow 32 p.umask.toNat).map (fun i =>
    ⟨pktLoc p + 4 * i, p.src.toNat, p.seq.toNat, p.rule.toNat, p.op.toNat, nth 0 p.data i⟩)

/-- The value OVERWRITE gives: of the highest source, and of that the highest SEQ. -/
def winner (cs : List Contrib) : Word :=
  ((cs.foldl (fun (m : Option Contrib) c => match m with
    | none => some c
    | some b => if b.src < c.src ∨ (b.src = c.src ∧ b.seq ≤ c.seq) then some c else m) none).map Contrib.val).getD 0

/-- The exact sum of FP32 terms, rounded once under RNE (R413). -/
def sumF32 (xs : List Word) : Word :=
  let k := keySum 2 xs
  if !k.nan && !k.pinf && !k.ninf && k.sum == 0 then Fp.zero32 (xs.all (fun x => x == 0x80000000#32)) else (k.result 2 .rne).1.setWidth 32

/-- The value of a unit, and whether it counts a conflict (R413). -/
def resolve (old : Word) (cs : List Contrib) : Word × Bool :=
  let rule (r : Nat) : Bool := cs.all (fun c => c.rule == r)
  let op := ((cs.head?).map Contrib.op).getD 0
  if rule 0 then (winner cs, false)
  else if rule 1 ∧ cs.all (fun c => c.op == op) then
    (if op = 1 then sumF32 (old :: cs.map Contrib.val) else cs.foldl (fun a c => redOp op a c.val) old, false)
  else if rule 2 then (winner cs, cs.any (fun c => some c.src != (cs.head?).map Contrib.src))
  else (winner cs, true)

/-- The units of a list are applied; conflicts are counted, and the lowest is kept. -/
def State.applyUnits (s : State) (all : List Contrib) : List Nat → State
  | [] => s
  | l :: ls =>
    let (v, bad) := resolve (BitVec.ofNat 32 (s.read (locKey l) 4)) (all.filter (fun c => c.loc == l))
    let s := (s.clearEcc (locKey l) 4).write (locKey l) 4 v.toNat
    let s := if bad then s.updBnd (fun b => { b with conflicts := b.conflicts + 1, first := some (match b.first with | some f => min f l | none => l) }) else s
    s.applyUnits all ls

/-- A row reaches its buffer or the spill area. -/
def State.applyRow (s : State) (e : GranEnt) : State :=
  match e.tok with
  | none => s
  | some (die, j, i) =>
    let rs := s.rowBytes die
    let base := if j = 64 then s.ctxField die 0x10 32 26 else s.ctxField die (0x448 + 16 * j) 0 26
    s.putBytes (diePlace die (base + i * rs)) ((natBytes (4 * e.pkt.data.length) (joinWords e.pkt.data)).take rs)

/-- COUNT, NSEC, SPILLN and LOST of a die at a boundary (R425). -/
def State.writeCounts (s : State) (n die : Nat) : State :=
  let second (e : GranEnt) : Bool := (rowHead e.pkt).testBit 35
  let s := (List.range 64).foldl (fun s j =>
    if s.ctxField die (0x440 + 16 * j) 12 1 = 0 then s
    else
      let es := s.placedFor n die j
      (s.setCtx die (0x448 + 16 * j) 32 10 es.length).setCtx die (0x448 + 16 * j) 48 10 (es.filter second).length) s
  let s := (s.setCtx die 8 0 16 (s.placedFor n die 64).length).setCtx die 8 16 16 (tget 0 (s.die die).disp n)
  s.updDie die (fun y => { y with disp := tdel y.disp n })

/-- A transfer holds a unit of an entry in the range scoreboard of its core (R168, R413). -/
def State.harvestBusy (s : State) (ps : List Packet) : Bool :=
  ps.any (fun p => (s.core (locCore (pktLoc p))).ranges.any (fun r => decide (r.lo < p.off.toNat + 128) && decide (p.off.toNat < r.hi)))

/-- HARVEST_APPLY: on GO the entries of the step are applied to their targets, and the receive counts written (R412, R413, R425). -/
def execHarvestApply (s : State) : Host.Outcome State Fault Refusal :=
  let b := s.fab.bnd
  let es := s.fab.gran.filter (fun e => e.step == b.n)
  let ws := (es.filter (fun e => e.tok.isNone)).map GranEnt.pkt
  let good := ws.filter (fun p => !s.rejects p)
  let bad := ws.filter (fun p => s.rejects p)
  if b.st ≠ 2 ∨ b.go.isNone ∨ s.harvestBusy good then .next s
  else
    let s := bad.foldl (fun s p =>
      s.event p.die.toNat 0x0163 (some (locCore (pktLoc p))) noTid p.dom.toNat (some (BitVec.ofNat 64 (pktLoc p))) none) s
    let s := s.updBnd (fun b => { b with st := 3, conflicts := 0, first := none, rejected := bad != [] })
    let all := good.flatMap contribs
    let locs := all.foldl (fun ls c => if ls.contains c.loc then ls else ls ++ [c.loc]) []
    let s := es.foldl State.applyRow (s.applyUnits all locs)
    .next ((s.writeCounts b.n 0).writeCounts b.n 1)

/-- s[d] and s[d+1] of a boundary (Table 19-6). -/
def Bnd.status (b : Bnd) : Nat × Nat :=
  let (fail, fdev, skew) := b.go.getD (false, 0, false)
  (b2n fail + b2n (b.excess != 0) * 2 + b2n (b.conflicts != 0) * 4 + b2n b.rejected * 8 + b2n skew * 16 + (if fail then fdev else 0) * 2 ^ 8 +
     min (b.excess / 64) 0xFFFFF * 2 ^ 20 + min b.conflicts 0xFFFFFF * 2 ^ 40,
   (match b.first with | some l => l + 2 ^ 29 | none => 0) + b.n % 2 ^ 32 * 2 ^ 32)

/-- A wait at STEP for a boundary. -/
def Wait.stepOf (n : Nat) (w : Wait) : Bool :=
  match w with
  | .step _ _ _ m => m == n
  | _ => false

/-- The STEP of a thread completes (R412, R417): its status lands, its wait ends, and with T = 1 it may trap. -/
def State.completeStep (s : State) (tid : Nat) (b : Bnd) : State :=
  match (s.thread tid).waits.find? (Wait.stepOf b.n) with
  | some (.step d id t n) =>
      let (x, y) := b.status
      let s := if d = 0 then s else s.updThread tid (fun th => (th.landLocked s.cycle id (.s d) x).landLocked s.cycle id (.s (d + 1)) y)
      let cause : Option Cause := if x.testBit 0 then some .stepFailed else if x.testBit 1 then some .stepOverflow else if x.testBit 2 then some .harvestConflict else none
      let s := match t, cause with
        | true, some c =>
          let th := s.thread tid
          s.postFault ⟨tid, th.born, th.pc, th.ord⟩ (trapInfo c 7 (BitVec.ofNat 64 x) (if c = Cause.harvestConflict then BitVec.ofNat 48 (y % 2 ^ 29) else 0))
        | _, _ => s
      s.wakeIf tid (Wait.stepOf n)
  | _ => s

/-- A write of DOM or MEMBERS takes effect (R403). -/
def State.writePod (s : State) (w : HubWrite) : State :=
  let pod (f : Pod → Pod) : State := s.updHub (fun u => { u with pod := f u.pod })
  match w with
  | .podDom d => pod (fun p => { p with dom := d })
  | .podMember dev m => pod (fun p => { p with members := tset p.members dev.toNat m })
  | _ => s

/-- No boundary is in progress and no thread of the device waits at STEP. -/
def State.podIdle (s : State) : Bool := s.fab.bnd.st == 0 && s.fab.bnd.arrivals == 0

/-- BOUNDARY_COMPLETE: the statuses of every STEP of the boundary are written, they complete, the step's entries are freed, and the next step runs
(R409, R411, R412). -/
def execBoundaryComplete (s : State) : Host.Outcome State Fault Refusal :=
  let b := s.fab.bnd
  if b.st ≠ 3 then .next s
  else
    let s := (s.threads.map Prod.fst).foldl (fun s t => s.completeStep t b) s
    let b' : Bnd := { n := b.n + 1, st := 0, arrivals := b.arrivalsNext, supplied := b.suppliedNext, arrivalsNext := 0, suppliedNext := 0,
                      cap := s.stepCap b.cap b.supplied, excess := b.overNext, overNext := 0, go := none, conflicts := 0, first := none, rejected := false, told := [],
                      enterAt := if s.hub.pod.pcount = 0 then some (s.cycle + 1) else none }
    let s := s.updFab (fun f => { f with gran := f.gran.filter (fun e => e.step != b.n), bnd := b' })
    let s := if s.podIdle then (s.fab.later.foldl State.writePod s).updFab (fun f => { f with later := [] }) else s
    .next (if s.hub.pod.pcount ≠ 0 ∧ s.hub.pod.pcount ≤ b'.arrivals then s.enterBoundary else s)

end Sys2Proof.Machine
end

