-- ==== Sys2Proof/Machine/Health.lean ====
section
/-! DEFINITION. Self-tests, spares and cores leaving service (R388 to R390, R427), and the hub's control registers (R373). -/

namespace Sys2Proof.Machine

open Sys2Proof

/-! ## Self-tests -/

/-- A unit of Table 18-8 that SELFT may name exists. -/
def unitExists (u : Nat) : Bool :=
  let n := u % 2 ^ 20
  match u / 2 ^ 20 with
  | 1 => decide (n < 16384)
  | 2 => decide (n < 512)
  | 3 => decide (n < 512)
  | 4 => decide (n < 512)
  | 5 => true
  | 6 => decide (n < 132)
  | _ => false

/-- A unit of the other die (R390); HBM regions and fabric lanes belong to the package. -/
def onOtherDie (die u : Nat) : Bool := decide (u / 2 ^ 20 ≤ 4) && unitDie u != die

/-- Transient verdicts within the window (R388, Table 18-6). -/
def UnitTest.recent (t : UnitTest) (cycle : Nat) : Nat := (t.verdicts.filter (fun c => decide (cycle < c + 1100000000))).length

/-- The status word of a unit (Table 18-6). -/
def UnitTest.status (t : UnitTest) (cycle : Nat) : Nat := t.last + t.recent cycle * 2 ^ 16

def State.unit (s : State) (u : Nat) : UnitTest := tget .none s.hub.units u
def State.updUnit (s : State) (u : Nat) (f : UnitTest → UnitTest) : State := s.updHub (fun h => { h with units := tset h.units u (f (s.unit u)) })

/-- SELFT (R390); it is privileged. Its status lands interlocked (R382), one known at once after the cycle. -/
def execSelft (gd : Guard) (d a : BitVec 5) (w : BitVec 1) (s : State) : Host.Outcome State Fault Refusal :=
  if ¬ s.me.atF then .next (s.privileged 6)
  else guarded gd s (fun s =>
    let u := (s.s a).toNat % 2 ^ 24
    let id := s.me.nextId
    if ¬ unitExists u ∨ onOtherDie (dieOf s.cur.tid) u then s.postVar (.s d.toNat) 2
    else if w = 1 ∧ (s.unit u).phase = 0 then s.postVar (.s d.toNat) ((s.unit u).status s.cycle)
    else
      let s := if w = 0 ∧ (s.unit u).phase = 0 then s.startTest u else s
      (s.updMe (fun t => { t.lock s.cur.slot (.s d.toNat) id with nextId := id + 1 })).updUnit u
        (fun t => { t with waiters := t.waiters ++ [(s.cur.tid, s.me.born, id, d.toNat)] }))

/-- A bank or region without a spare: its reads trap, and the system cores are told its frame, or the owners of the die's blocks, through all of which a
bank runs (Table 18-5, R305). -/
def State.deadUnit (s : State) (u : Nat) : State :=
  let n := u % 2 ^ 20
  let owns (d : Nat) : Bool := (List.range 1024).any (fun b => (s.ownEntry (n / 256) b).toNat % 64 == d)
  let told := if u / 2 ^ 20 = 4 then (List.range 64).filter owns else [n]
  (s.updHub (fun h => { h with dead := h.dead ++ [u], reports := h.reports ++ told.map (fun x => (u, x)) })).irq

/-- What a unit's lasting verdict does (Table 18-5): the spare of its test, or one that is free now, stays in use. -/
def State.lasting (s : State) (u : Nat) (moved : Bool) : State :=
  let n := u % 2 ^ 20
  let pool := (sparesOf u).1
  let use (s : State) (lost : State → State) : State :=
    if moved ∨ s.spareFree u then (if moved ∨ u / 2 ^ 20 = 5 then s else s.cleanBank u).updHub (fun h => { h with spares := tset h.spares pool (tget 0 h.spares pool + 1) })
    else lost s
  match u / 2 ^ 20 with
  | 1 => use s (fun s => s.leaveService (n / 32))
  | 2 => s.leaveService n
  | 3 => s.leaveService n
  | 4 => use s (fun s => s.deadUnit u)
  | 5 => use s (fun s => s.deadUnit u)
  | 6 => s.laneOut (n / 4) (n % 4)
  | _ => s

/-- The next unit of a die whose test waits for its turn: the earliest error (R388). -/
def State.nextTest (s : State) (die : Nat) : Option Nat :=
  ((s.hub.units.filter (fun e => e.2.phase == 2 && unitDie e.1 == die)).foldl (fun (m : Option (Nat × Nat)) e =>
    match m with
    | none => some (e.2.order, e.1)
    | some (o, _) => if e.2.order < o then some (e.2.order, e.1) else m) none).map Prod.snd

/-- SELF_TEST_VERDICT: the test of a unit ends once it has run for its time; the 16th transient verdict within the window counts as lasting; after a
transient one the bank and its spare have swapped roles; the SELFTs that wait are answered, and the next test starts (R388, R390, R391, R427). -/
def execSelfTestVerdict (unit : BitVec 24) (lasting : Bool) (s : State) : Host.Outcome State Fault Refusal :=
  let u := unit.toNat
  let t := s.unit u
  if t.phase ≠ 1 ∨ s.cycle < t.began + testTime u then .next s
  else
    let keep := t.verdicts.filter (fun c => decide (s.cycle < c + 1100000000))
    let vs := if lasting then keep else keep ++ [s.cycle]
    let bad := lasting || decide (16 ≤ vs.length)
    let t' : UnitTest := { t with phase := 0, moved := false, errors := 0, verdicts := vs, last := b2n bad, waiters := [] }
    let s := s.updUnit u (fun _ => t')
    let s := s.event (unitDie u) (if bad then 0x0103 else 0x0102) (some u) noTid 0 none none
    let s := t.waiters.foldl (fun s w =>
      if (s.thread w.1).st ≠ .free ∧ (s.thread w.1).born = w.2.1 then
        s.updThread w.1 (fun th => th.landLocked s.cycle w.2.2.1 (.s w.2.2.2) (t'.status s.cycle))
      else s) s
    let s := if bad then s.lasting u t.moved else s
    .next (match s.nextTest (unitDie u) with
      | some v => if s.testsRunning (unitDie u) < 8 then s.beginTest v else s
      | none => s)

/-! ## Hub control registers (R373) -/

/-- No thread runs on a cluster (R268). -/
def State.clusterEmpty (s : State) (clu : Nat) : Bool := s.threads.all (fun t => clusterOf t.1 != clu || t.2.st == .free)

/-- A doubleword of a flow rule without its reserved bits (Table 18-1). -/
def flowMask (dw v : Nat) : Nat :=
  match dw with
  | 0 => v % 2 ^ 15
  | 1 => v % 2 ^ 53
  | 2 => v % 2 ^ 42
  | _ => v % 2 ^ 26

/-- HUB_REGISTER_WRITE: a control register takes its value (R373); read-only fields keep theirs (R5), a locked firmware store its bytes (R377), a block that another domain
owns its bytes, and a cluster on
which a thread runs its assignment (R268); DOM and MEMBERS change between boundaries (R403). -/
def execHubRegisterWrite (w : HubWrite) (s : State) : Host.Outcome State Fault Refusal :=
  let hub (f : Hub → Hub) : Host.Outcome State Fault Refusal := .next (s.updHub f)
  let pod (f : Pod → Pod) : Host.Outcome State Fault Refusal := .next (s.updHub (fun u => { u with pod := f u.pod }))
  match w with
  | .root dom v => hub (fun u => { u with roots := match v with | some x => tset u.roots dom.toNat x | none => tdel u.roots dom.toNat })
  | .owner die block v => .next (s.updDie die.toNat (fun d => { d with own := tset d.own block.toNat v }))
  | .tagPool b lo hi => hub (fun u => { u with tpbase := b.toNat, tplo := lo.toNat, tphi := hi.toNat })
  | .cluster clu dom => .next (if s.clusterEmpty clu.toNat then s.updCluster clu.toNat (fun c => { c with dom := dom }) else s)
  | .firmware die off data =>
    .next (if (s.die die.toNat).fwLock then s
      else
        let bs := data.take (0x40000 - off.toNat)
        (s.clearEcc (storePlace die.toNat off.toNat) bs.length).putBytes (storePlace die.toNat off.toNat) bs)
  | .dieStore die off data =>
    let ours := (List.range 1024).all (fun b => b < off.toNat / 65536 || (off.toNat + data.length - 1) / 65536 < b || (s.ownEntry die.toNat b).toNat % 64 == 0)
    .next (if off.toNat + data.length ≤ 2 ^ 26 ∧ ours = true then
        (s.clearEcc (diePlace die.toNat off.toNat) data.length).putBytes (diePlace die.toNat off.toNat) data
      else s)
  | .flowRule i dw v => if 4 ≤ dw.toNat then .next s else hub (fun u => u.setFlow i.toNat dw.toNat (flowMask dw.toNat v.toNat))
  | .carry v => .next (s.updEnergy (fun e => { e with carry := v.toNat }))
  | .drainT die v => .next (s.updDie die.toNat (fun d => { d with draint := v.toNat }))
  | .ckptPool die base slots => .next (s.updDie die.toNat (fun d => { d with pool := ⟨base.toNat, slots.toNat * 2 ^ 22, d.pool.used⟩ }))
  | .device id => hub (fun u => { u with device := id })
  | .podDom d => if s.podIdle then .next (s.writePod (.podDom d)) else .next (s.updFab (fun f => { f with later := f.later ++ [.podDom d] }))
  | .podMember dev m => if s.podIdle then .next (s.writePod (.podMember dev m)) else .next (s.updFab (fun f => { f with later := f.later ++ [.podMember dev m] }))
  | .podPcount v =>
    let s := s.updHub (fun u => { u with pod := { u.pod with pcount := v.toNat } })
    let b := s.fab.bnd
    .next (if b.st ≠ 0 then s
      else if v = 0 then s.updBnd (fun b => { b with enterAt := some (s.cycle + 1) })
      else if v.toNat ≤ b.arrivals then s.enterBoundary else s)
  | .podGback v => pod (fun p => { p with gback := v.toNat })
  | .podSkewlim v => pod (fun p => { p with skewlim := v.toNat })
  | .podRq v => pod (fun p => { p with rq := v.toNat })
  | .podThr v => pod (fun p => { p with thr := v.toNat })
  | .podDcb die v => pod (fun p => if die = 0 then { p with dcb0 := v.toNat } else { p with dcb1 := v.toNat })
  | .route dev port direct others =>
    let s := s.updFab (fun f =>
      { f with routes := match port with | some p => tset f.routes dev.toNat p.toNat | none => tdel f.routes dev.toNat,
               others := tset f.others dev.toNat (others.map BitVec.toNat),
               direct := (if direct then [dev.toNat] else []) ++ f.direct.filter (· != dev.toNat) })
    .next (s.rerouteAll noPort)
  | .fatalEvent e on => hub (fun u => { u with fatal := (if on then [e.toNat] else []) ++ u.fatal.filter (· != e.toNat) })
  | .laneRepaired port lane => .next (s.updFab (fun f =>
      { f with lanesOut := tset f.lanesOut port.toNat (setBits (tget 0 f.lanesOut port.toNat) lane.toNat 1 0), down := f.down.filter (· != port.toNat) }))
  | .podRepaired dev => pod (fun p => { p with failed := p.failed.filter (· != dev.toNat) })

end Sys2Proof.Machine
end

