-- ==== Sys2Proof/Machine/DieEngine.lean ====
section
/-! DEFINITION. The die engine's commands as they are applied (R331), the fetch of code and translations by the machine itself (R21, R303), and the bundles
without an operation (R35, R36). -/

namespace Sys2Proof.Machine

open Sys2Proof

/-! ## The die engine (R331, R332) -/

/-- A command has reached the engine, and no failed one of its thread stands before it (R246). -/
def State.reached (s : State) (die : Nat) (c : DieCmd) : Bool :=
  decide (c.at_ ≤ s.cycle) && !(s.die die).cmds.any (fun h => h.isHalted && h.org.tid == c.org.tid && h.org.born == c.org.born && decide (c.org.bundle ≤ h.last))

/-- A command can be applied in this cycle: it has reached the engine, its thread has not been stopped, a refused submission has not issued again, a SLADD
has its payload, and a blocking launch finds an entry of its store free. -/
def State.canApply (s : State) (die : Nat) (c : DieCmd) : Bool :=
  let t := s.thread c.org.tid
  let stopped := t.st == .suspended || (t.stop.map StopReq.landed).getD false
  s.reached die c &&
  match c.op with
  | .submit _ _ r => r.isNone && !stopped
  | .launch _ od nb => nb.isSome || (!stopped && decide ((s.die (if od then 1 - die else die)).pending.length < 4096))
  | .sladd _ _ _ p => p.isSome
  | .signal _ _ => false
  | .halted _ => false
  | _ => true

/-- Commands are taken in the order in which they reach the engine; in one cycle, by $tid (R331). -/
def DieCmd.before (a b : DieCmd) : Bool := if a.at_ ≠ b.at_ then a.at_ < b.at_ else if a.org.tid ≠ b.org.tid then a.org.tid < b.org.tid else a.id < b.id

/-- A command of the engine takes effect. -/
def State.applyCmd (s : State) (die : Nat) (c : DieCmd) : State :=
  let land (s : State) (d : Dest) (v : Nat) : State := ((s.updThread c.org.tid (fun t => t.landLocked s.cycle c.id d v)).dropCmd die c).endX c
  match c.op with
  | .submit r d _ => s.applySubmit die c r d
  | .launch r od nb => s.applyLaunch die c r od nb
  | .cstage t => s.applyStage die c t
  | .csched w => s.applySched die c w
  | .sladd x y g p =>
    let (s, ok) := s.applySladd die x.toNat y.toNat (p.getD [])
    land s (.g g) (b2n ok)
  | .slsend d step =>
    let (s, n) := s.applySlsend die step (c.org.bundle * 2048 + c.org.tid) (s.thread c.org.tid).dom
    land s (.s d) n
  | .slrecv d sel => land s (.s d) (s.slrecvValue die sel)
  | .signal _ _ => s
  | .halted _ => s

/-- The TSIGNALs that have reached their records, in $tid order (R332, R333). -/
def State.applySignals (s : State) (die : Nat) : State :=
  let due := (s.die die).cmds.filter (fun c => decide (c.at_ ≤ s.cycle) && (match c.op with | .signal _ _ => true | _ => false))
  (stableSort DieCmd.before due).foldl (fun s c =>
    match c.op with
    | .signal r dom =>
      if ¬ s.reached die c then s
      else (if s.recJoin r ≤ 0 ∨ (s.badWord (r + 16) 4).isSome then s else s.dropCmd die c).decJoin r (placeVa (dieOf c.org.tid) r) (.signal die c dom)
    | _ => s) s

/-- A SLADD whose payload has not been read yet; the commands behind it wait (R331, R423). -/
def DieCmd.unread (c : DieCmd) : Bool :=
  match c.op with
  | .sladd _ _ _ none => true
  | _ => false

/-- The commands that have reached an engine, in order, up to the first one that all others wait for. -/
def State.dueCmds (s : State) (die : Nat) : List DieCmd :=
  (stableSort DieCmd.before ((s.die die).cmds.filter (fun c => s.reached die c))).takeWhile (fun c => !c.unread)

/-- DIE_ENGINE_COMMAND_APPLY: the signals that are due, and one command of the engine (R331). -/
def execDieEngineCommandApply (die : Nat) (s : State) : Host.Outcome State Fault Refusal :=
  let s := s.applySignals die
  match (s.dueCmds die).find? (fun c => s.canApply die c) with
  | none => .next s
  | some c => .next (s.applyCmd die c)

/-! ## Translation walks (R303) -/

/-- A thread's next bundle waits for the translation of a page. -/
def State.wantWalk (s : State) (tid : Nat) (dom : BitVec 6) (page : Nat) : State :=
  (s.joinWalk (dieOf tid) dom page [coreOf tid]).updThread tid (fun t =>
    if t.walked.any (fun w => w.dom == dom && w.page == page) then t else { t with walked := t.walked ++ [⟨dom, page, none⟩] })

/-- A walk's result reaches those that wait for it. -/
def PageWalk.take (w : PageWalk) (dom : BitVec 6) (page : Nat) (r : WalkEnd) : PageWalk :=
  if w.dom = dom ∧ w.page = page ∧ w.res.isNone then { w with res := some r } else w

/-- Every requester of a die receives a walk's result: its threads, and its engines (R303). -/
def State.giveWalk (s : State) (die : Nat) (dom : BitVec 6) (page : Nat) (r : WalkEnd) : State :=
  let give (e : Nat × Thread) : Nat × Thread := if dieOf e.1 = die then (e.1, { e.2 with walked := e.2.walked.map (fun w => w.take dom page r) }) else e
  { s with threads := s.threads.map give }.updDie die (fun d => { d with walked := d.walked.map (fun w : Asker × PageWalk => (w.1, w.2.take dom page r)) })

/-- Cycles a walk takes: 300 for each level it reads (R303). -/
def WalkEnd.time : WalkEnd → Nat
  | .leaf _ level => 300 * (level + 1)
  | .fault _ level => 300 * (level + 1)

/-- TRANSLATION_WALK: the first of a die's 64 walks in progress that is over gives its result to every requester, of threads or of the die's engines, and installs
its leaf; the next walk that waits starts (R301, R303). One whose tables lie in a region under test waits (R388). -/
def execTranslationWalk (die : Nat) (s : State) : Host.Outcome State Fault Refusal :=
  let ws := (s.die die).walks
  match (ws.take 64).findIdx? (fun w => decide (w.start + (s.walk w.dom (65536 * w.page)).time ≤ s.cycle) && !(s.hub.units != [] && s.walkTested w.dom (65536 * w.page))) with
  | none => .next s
  | some i =>
    match ws[i]? with
    | none => .next s
    | some w =>
      let r := s.walk w.dom (65536 * w.page)
      let rest := (List.range (ws.length - 1)).zip (delNth ws i) |>.map (fun x => if x.1 = 63 then { x.2 with start := s.cycle } else x.2)
      let s := (s.updDie die (fun d => { d with walks := rest })).giveWalk die w.dom w.page r
      match r with
      | .fault _ _ => .next s
      | .leaf l _ =>
        if w.cancelled then .next s
        else
          let s := s.updDie die (fun d => { d with tlb := tlbAdd 8192 l d.tlb })
          .next (w.cores.foldl (fun s k => s.updCore k (fun c => { c with tlb := tlbAdd 128 l c.tlb })) s)

/-! ## The instruction store (R19, R21) -/

/-- The line of a thread's next bundle is resident, or its fetch faults at issue: a READY thread runs (Table 1-6). -/
def State.readyRuns (s : State) (tid : Nat) : State :=
  s.updThread tid (fun t => { t with want := none, st := if t.st = .ready then .running else t.st, ready := if t.st = .ready then max t.ready s.cycle else t.ready })

/-- A sequencer of a core is fetching from a line of its store. R21 does not say which do: every sequencer at T that is not FREE counts, by its pc, one that is WAITING,
RETIRING or SUSPENDED too, the model's choice (log entry 76). -/
def State.fetching (s : State) (core : Nat) (l : Line) : Bool :=
  (List.range 4).any (fun k =>
    let t := s.thread (4 * core + k)
    t.st != .free && !t.atF && t.dom == l.dom && t.pc.toNat / 64 * 64 == l.va)

/-- A line joins a store of 2,048 lines, the least recently fetched of those that nothing is fetching from giving way (R21). -/
def istoreAdd (inUse : Line → Bool) (l : Line) (b : List Line) : List Line :=
  if b.length < 2048 then b ++ [l]
  else
    let old := (b.filter (fun x => !inUse x)).foldl (fun m x => min m x.stamp) l.stamp
    b.eraseP (fun x => x.stamp == old && !inUse x) ++ [l]

/-- LINE_FILL: the line a thread waits for is requested, or arrives from memory and is resident (R21). -/
def execLineFill (tid : Nat) (s : State) : Host.Outcome State Fault Refusal :=
  let t := s.thread tid
  if t.st = .free ∨ (t.st ≠ .ready ∧ t.want.isNone) then .next s
  else
    let va := match t.want with | some (l, _) => l | none => t.pc.toNat
    match s.fetch tid t va with
    | .bytes _ => .next (s.readyRuns tid)
    | .fault _ => .next (s.readyRuns tid)
    | .walk page => .next (s.wantWalk tid t.dom page)
    | .fill line =>
      match t.want with
      | none => .next (s.updThread tid (fun t => { t with want := some (line, s.cycle + 320) }))
      | some (_, c) =>
        if s.cycle < c then .next s
        else
          match s.xlate (coreOf tid) t.dom t.walked .fetch 0 line with
          | .ok pa l =>
            if s.regionTested pa then .next s
            else
            let data := leNat (s.hbmBytes pa (s.keyIdent l.key.toNat) 64)
            .next ((s.updCore (coreOf tid) (fun c => { c with istore := istoreAdd (s.fetching (coreOf tid)) ⟨t.dom, line, BitVec.ofNat 512 data, s.cycle⟩ c.istore })).readyRuns tid)
          | _ => .next s

/-! ## Leaving a bundle (R34, R36, R100) -/

/-- The loops that end at a bundle are tested as fetch leaves it by fall-through (R100): what is left of them, where fetch goes, and the last event. -/
def leaveLoops (pc : VAddr) : List LoopEntry → VAddr → Option (Bool × VAddr) → List LoopEntry × VAddr × Option (Bool × VAddr)
  | [], next, e => ([], next, e)
  | l :: ls, next, e =>
    if l.last ≠ pc then (l :: ls, next, e)
    else if 1 < l.remaining then ({ l with remaining := l.remaining - 1, index := l.index + 1 } :: ls, l.start, some (true, l.start))
    else leaveLoops pc ls next (some (false, l.start))

/-- Back edges of the kernel body of a task's loop form are counted by member 0 (R340). -/
def State.countEdge (s : State) (tid : Nat) (e : Option (Bool × VAddr)) : State :=
  let t := s.thread tid
  match e, t.task with
  | some (true, start), some id =>
    if t.member ≠ 0 then s
    else s.updDie (id % 2) (fun d => { d with running := d.running.map (fun r =>
      if r.id = id ∧ r.form ∧ r.kernLo = start.toNat then { r with edges := r.edges + 1 } else r) })
  | _, _ => s

/-- Fetch leaves the bundle at `pc` by fall-through to `next` (R34, R100). -/
def State.fallThrough (s : State) (tid : Nat) (pc next : VAddr) : State :=
  let (ls, tgt, e) := leaveLoops pc (s.thread tid).loops next none
  (s.updThread tid (fun t => { t with pc := tgt, loops := ls, edge := e })).countEdge tid e

/-- EMPTY_BUNDLE: no effect but the stall count (R35). -/
def execEmptyBundle (stall : BitVec 4) (s : State) : Host.Outcome State Fault Refusal := .next { s with cur := { s.cur with stall := stall.toNat } }

/-- LINE_SKIP: fetch moves to the start of the next 64-byte line (R36). -/
def execLineSkip (s : State) : Host.Outcome State Fault Refusal :=
  let pc := s.cur.pc
  .next (s.fallThrough s.cur.tid pc (BitVec.ofNat 48 (pc.toNat / 64 * 64 + 64)))

end Sys2Proof.Machine
end

