-- ==== Sys2Proof/Machine/Dispatch.lean ====
section
/-! DEFINITION. Dispatch: one arm per instruction. -/

namespace Sys2Proof.Machine

open Sys2Proof

def exec (i : Instr) (s : State) : Host.Outcome State Fault Refusal :=
  match i with
  | .nop gd => Sys2Proof.Machine.execNop gd s
  | .br gd o kw => Sys2Proof.Machine.execBr gd o kw s
  | .jmp gd a => Sys2Proof.Machine.execJmp gd a s
  | .call gd o kw => Sys2Proof.Machine.execCall gd o kw s
  | .callr gd d a => Sys2Proof.Machine.execCallr gd d a s
  | .ret gd a => Sys2Proof.Machine.execRet gd a s
  | .loop gd l c kw => Sys2Proof.Machine.execLoop gd l c kw s
  | .loopr gd h a l => Sys2Proof.Machine.execLoopr gd h a l s
  | .lbrk gd k => Sys2Proof.Machine.execLbrk gd k s
  | .endThread gd => Sys2Proof.Machine.execEndThread gd s
  | .yield gd a => Sys2Proof.Machine.execYield gd a s
  | .await gd d a im kw => Sys2Proof.Machine.execAwait gd d a im kw s
  | .joinNew gd => Sys2Proof.Machine.execJoinNew gd s
  | .join gd a im kw => Sys2Proof.Machine.execJoin gd a im kw s
  | .leave gd => Sys2Proof.Machine.execLeave gd s
  | .bar gd => Sys2Proof.Machine.execBar gd s
  | .fuse gd k f => Sys2Proof.Machine.execFuse gd k f s
  | .decouple gd => Sys2Proof.Machine.execDecouple gd s
  | .rejoin gd d => Sys2Proof.Machine.execRejoin gd d s
  | .suspend gd d a => Sys2Proof.Machine.execSuspend gd d a s
  | .suspendComplete die k => Sys2Proof.Machine.execSuspendComplete die k s
  | .resume gd a p => Sys2Proof.Machine.execResume gd a p s
  | .hamperLoadComplete die k => Sys2Proof.Machine.execHamperLoadComplete die k s
  | .hcopy gd d a b => Sys2Proof.Machine.execHcopy gd d a b s
  | .hcopyComplete die k => Sys2Proof.Machine.execHcopyComplete die k s
  | .hdiscard gd d a => Sys2Proof.Machine.execHdiscard gd d a s
  | .trap gd im kw => Sys2Proof.Machine.execTrap gd im kw s
  | .gate gd im => Sys2Proof.Machine.execGate gd im s
  | .rft gd a => Sys2Proof.Machine.execRft gd a s
  | .rftN gd => Sys2Proof.Machine.execRftN gd s
  | .snapst gd b o kw => Sys2Proof.Machine.execSnapst gd b o kw s
  | .snaprel gd => Sys2Proof.Machine.execSnaprel gd s
  | .step gd d a t => Sys2Proof.Machine.execStep gd d a t s
  | .add gd d a b k => Sys2Proof.Machine.execAdd gd d a b k s
  | .addi gd d a im kw => Sys2Proof.Machine.execAddi gd d a im kw s
  | .sub gd d a b k => Sys2Proof.Machine.execSub gd d a b k s
  | .mul gd d a b k => Sys2Proof.Machine.execMul gd d a b k s
  | .mulh gd d a b => Sys2Proof.Machine.execMulh gd d a b s
  | .mulhu gd d a b => Sys2Proof.Machine.execMulhu gd d a b s
  | .div gd d a b => Sys2Proof.Machine.execDiv gd d a b s
  | .divu gd d a b => Sys2Proof.Machine.execDivu gd d a b s
  | .rem gd d a b => Sys2Proof.Machine.execRem gd d a b s
  | .remu gd d a b => Sys2Proof.Machine.execRemu gd d a b s
  | .andS gd d a b => Sys2Proof.Machine.execAndS gd d a b s
  | .andi gd d a im kw => Sys2Proof.Machine.execAndi gd d a im kw s
  | .orS gd d a b => Sys2Proof.Machine.execOrS gd d a b s
  | .ori gd d a im kw => Sys2Proof.Machine.execOri gd d a im kw s
  | .xorS gd d a b => Sys2Proof.Machine.execXorS gd d a b s
  | .xori gd d a im kw => Sys2Proof.Machine.execXori gd d a im kw s
  | .andn gd d a b => Sys2Proof.Machine.execAndn gd d a b s
  | .shl gd d a b => Sys2Proof.Machine.execShl gd d a b s
  | .shli gd d a im kw => Sys2Proof.Machine.execShli gd d a im kw s
  | .shr gd d a b => Sys2Proof.Machine.execShr gd d a b s
  | .shri gd d a im kw => Sys2Proof.Machine.execShri gd d a im kw s
  | .sar gd d a b => Sys2Proof.Machine.execSar gd d a b s
  | .sari gd d a im kw => Sys2Proof.Machine.execSari gd d a im kw s
  | .cmp gd d a b c => Sys2Proof.Machine.execCmp gd d a b c s
  | .cmpi gd c q a im kw => Sys2Proof.Machine.execCmpi gd c q a im kw s
  | .sel gd d a b x k => Sys2Proof.Machine.execSel gd d a b x k s
  | .min gd d a b => Sys2Proof.Machine.execMin gd d a b s
  | .max gd d a b => Sys2Proof.Machine.execMax gd d a b s
  | .minu gd d a b => Sys2Proof.Machine.execMinu gd d a b s
  | .maxu gd d a b => Sys2Proof.Machine.execMaxu gd d a b s
  | .clz gd d a => Sys2Proof.Machine.execClz gd d a s
  | .popc gd d a => Sys2Proof.Machine.execPopc gd d a s
  | .bfx gd d a im kw => Sys2Proof.Machine.execBfx gd d a im kw s
  | .bfi gd d a im kw => Sys2Proof.Machine.execBfi gd d a im kw s
  | .li gd d im kw => Sys2Proof.Machine.execLi gd d im kw s
  | .lih gd d im kw => Sys2Proof.Machine.execLih gd d im kw s
  | .lea gd d a im kw => Sys2Proof.Machine.execLea gd d a im kw s
  | .addpc gd d im kw => Sys2Proof.Machine.execAddpc gd d im kw s
  | .gop gd d a b f => Sys2Proof.Machine.execGop gd d a b f s
  | .movs gd d im kw => Sys2Proof.Machine.execMovs gd d im kw s
  | .movz gd d im kw => Sys2Proof.Machine.execMovz gd d im kw s
  | .fadd gd d a b r => Sys2Proof.Machine.execFadd gd d a b r s
  | .fsub gd d a b r => Sys2Proof.Machine.execFsub gd d a b r s
  | .fmul gd d a b r => Sys2Proof.Machine.execFmul gd d a b r s
  | .fma gd d a b r => Sys2Proof.Machine.execFma gd d a b r s
  | .fmin gd d a b => Sys2Proof.Machine.execFmin gd d a b s
  | .fmax gd d a b => Sys2Proof.Machine.execFmax gd d a b s
  | .fcmp gd d a b c => Sys2Proof.Machine.execFcmp gd d a b c s
  | .fcvti gd d a u r => Sys2Proof.Machine.execFcvti gd d a u r s
  | .fcvtf gd d a u r => Sys2Proof.Machine.execFcvtf gd d a u r s
  | .pairWord gd sf d a b v x y z => Sys2Proof.Machine.execPairWord gd sf d a b v x y z s
  | .vadd gd d a b e sf z k => Sys2Proof.Machine.execVadd gd d a b e sf z k s
  | .vsub gd d a b e sf z k => Sys2Proof.Machine.execVsub gd d a b e sf z k s
  | .vmul gd d a b e z k => Sys2Proof.Machine.execVmul gd d a b e z k s
  | .vmulh gd d a b e u z k => Sys2Proof.Machine.execVmulh gd d a b e u z k s
  | .vmad gd d a b e sf z k => Sys2Proof.Machine.execVmad gd d a b e sf z k s
  | .vand gd d a b e z k => Sys2Proof.Machine.execVand gd d a b e z k s
  | .vor gd d a b e z k => Sys2Proof.Machine.execVor gd d a b e z k s
  | .vxor gd d a b e z k => Sys2Proof.Machine.execVxor gd d a b e z k s
  | .vshl gd d a b e z k => Sys2Proof.Machine.execVshl gd d a b e z k s
  | .vshr gd d a b e z k => Sys2Proof.Machine.execVshr gd d a b e z k s
  | .vsar gd d a b e z k => Sys2Proof.Machine.execVsar gd d a b e z k s
  | .vmin gd d a b e u z k => Sys2Proof.Machine.execVmin gd d a b e u z k s
  | .vmax gd d a b e u z k => Sys2Proof.Machine.execVmax gd d a b e u z k s
  | .vabs gd d a f z k => Sys2Proof.Machine.execVabs gd d a f z k s
  | .vcmp gd d a b c z k => Sys2Proof.Machine.execVcmp gd d a b c z k s
  | .vsel gd d a b x sf => Sys2Proof.Machine.execVsel gd d a b x sf s
  | .vfadd gd d a b r z k => Sys2Proof.Machine.execVfadd gd d a b r z k s
  | .vfsub gd d a b r z k => Sys2Proof.Machine.execVfsub gd d a b r z k s
  | .vfmul gd d a b r z k => Sys2Proof.Machine.execVfmul gd d a b r z k s
  | .vfma gd d a b r z k => Sys2Proof.Machine.execVfma gd d a b r z k s
  | .vfmin gd d a b z k => Sys2Proof.Machine.execVfmin gd d a b z k s
  | .vfmax gd d a b z k => Sys2Proof.Machine.execVfmax gd d a b z k s
  | .vfcmp gd d a b c z k => Sys2Proof.Machine.execVfcmp gd d a b c z k s
  | .vrcp gd d a z k => Sys2Proof.Machine.execVrcp gd d a z k s
  | .vrsq gd d a z k => Sys2Proof.Machine.execVrsq gd d a z k s
  | .vexp2 gd d a z k => Sys2Proof.Machine.execVexp2 gd d a z k s
  | .vlog2 gd d a z k => Sys2Proof.Machine.execVlog2 gd d a z k s
  | .vcvt gd d a p r f => Sys2Proof.Machine.execVcvt gd d a p r f s
  | .vcvtWide gd d a p f => Sys2Proof.Machine.execVcvtWide gd d a p f s
  | .vqnt gd d a b r h f => Sys2Proof.Machine.execVqnt gd d a b r h f s
  | .vdqnt gd d a b r h f => Sys2Proof.Machine.execVdqnt gd d a b r h f s
  | .vbsc gd d a h f => Sys2Proof.Machine.execVbsc gd d a h f s
  | .vperm gd d a b z k => Sys2Proof.Machine.execVperm gd d a b z k s
  | .vbcast gd d a b l z k => Sys2Proof.Machine.execVbcast gd d a b l z k s
  | .vslide gd d a r sf => Sys2Proof.Machine.execVslide gd d a r sf s
  | .vred gd d a p k => Sys2Proof.Machine.execVred gd d a p k s
  | .vscan gd d a x p k => Sys2Proof.Machine.execVscan gd d a x p k s
  | .viota gd d a im kw => Sys2Proof.Machine.execViota gd d a im kw s
  | .vmop gd d a b f => Sys2Proof.Machine.execVmop gd d a b f s
  | .vmpopPopc gd d a => Sys2Proof.Machine.execVmpopPopc gd d a s
  | .vmpopFfs gd d a => Sys2Proof.Machine.execVmpopFfs gd d a s
  | .vmpopGet gd d a => Sys2Proof.Machine.execVmpopGet gd d a s
  | .vmpopSet gd d a => Sys2Proof.Machine.execVmpopSet gd d a s
  | .vrng gd d t z k => Sys2Proof.Machine.execVrng gd d t z k s
  | .vprune gd d a b z k => Sys2Proof.Machine.execVprune gd d a b z k s
  | .vnm gd d a b im sf => Sys2Proof.Machine.execVnm gd d a b im sf s
  | .vmovs gd d a u l => Sys2Proof.Machine.execVmovs gd d a u l s
  | .vins gd d a l => Sys2Proof.Machine.execVins gd d a l s
  | .ldB gd d b im kw => Sys2Proof.Machine.execLdB gd d b im kw s
  | .ldH gd d b im kw => Sys2Proof.Machine.execLdH gd d b im kw s
  | .ldW gd d b im kw => Sys2Proof.Machine.execLdW gd d b im kw s
  | .ldD gd d b im kw => Sys2Proof.Machine.execLdD gd d b im kw s
  | .lduB gd d b im kw => Sys2Proof.Machine.execLduB gd d b im kw s
  | .lduH gd d b im kw => Sys2Proof.Machine.execLduH gd d b im kw s
  | .lduW gd d b im kw => Sys2Proof.Machine.execLduW gd d b im kw s
  | .stB gd d b im kw => Sys2Proof.Machine.execStB gd d b im kw s
  | .stH gd d b im kw => Sys2Proof.Machine.execStH gd d b im kw s
  | .stW gd d b im kw => Sys2Proof.Machine.execStW gd d b im kw s
  | .stD gd d b im kw => Sys2Proof.Machine.execStD gd d b im kw s
  | .ldv gd d b im kw => Sys2Proof.Machine.execLdv gd d b im kw s
  | .stv gd d b im kw => Sys2Proof.Machine.execStv gd d b im kw s
  | .ldvs gd d a b z k => Sys2Proof.Machine.execLdvs gd d a b z k s
  | .stvs gd d a b k => Sys2Proof.Machine.execStvs gd d a b k s
  | .ldvx gd d a b z k => Sys2Proof.Machine.execLdvx gd d a b z k s
  | .stvx gd d a b k => Sys2Proof.Machine.execStvx gd d a b k s
  | .lda gd d a w sf o => Sys2Proof.Machine.execLda gd d a w sf o s
  | .sta gd d a w sf o => Sys2Proof.Machine.execSta gd d a w sf o s
  | .amo gd d a w sf p o => Sys2Proof.Machine.execAmo gd d a w sf p o s
  | .cas gd d a b w sf o => Sys2Proof.Machine.execCas gd d a b w sf o s
  | .vamo gd d a b sf o => Sys2Proof.Machine.execVamo gd d a b sf o s
  | .fence gd sf o => Sys2Proof.Machine.execFence gd sf o s
  | .tld gd d a b t x y => Sys2Proof.Machine.execTld gd d a b t x y s
  | .tlda gd t a b p f => Sys2Proof.Machine.execTlda gd t a b p f s
  | .tst gd t a b p r f => Sys2Proof.Machine.execTst gd t a b p r f s
  | .mcall gd v q x w p r => Sys2Proof.Machine.execMcall gd v q x w p r s
  | .mcallEngineStart tid => Sys2Proof.Machine.execMcallEngineStart tid s
  | .mcallRetire tid => Sys2Proof.Machine.execMcallRetire tid s
  | .routineStop tid e => Sys2Proof.Machine.execRoutineStop tid e s
  | .msetp gd d a h y => Sys2Proof.Machine.execMsetp gd d a h y s
  | .mgetp gd d a => Sys2Proof.Machine.execMgetp gd d a s
  | .mclaim gd d a t => Sys2Proof.Machine.execMclaim gd d a t s
  | .mrel gd a t => Sys2Proof.Machine.execMrel gd a t s
  | .mzero gd t a b p j im => Sys2Proof.Machine.execMzero gd t a b p j im s
  | .mnorm gd t a b p x => Sys2Proof.Machine.execMnorm gd t a b p x s
  | .mrdrow gd d t b r f => Sys2Proof.Machine.execMrdrow gd d t b r f s
  | .mwrrow gd d t b f => Sys2Proof.Machine.execMwrrow gd d t b f s
  | .mcell gd a im kw => Sys2Proof.Machine.execMcell gd a im kw s
  | .mcellPre gd p => Sys2Proof.Machine.execMcellPre gd p s
  | .mflow gd y p a im kw => Sys2Proof.Machine.execMflow gd y p a im kw s
  | .mrout gd d a im kw => Sys2Proof.Machine.execMrout gd d a im kw s
  | .configCommandApply tid => Sys2Proof.Machine.execConfigCommandApply tid s
  | .mtid gd a e => Sys2Proof.Machine.execMtid gd a e s
  | .mtidr gd d a k e => Sys2Proof.Machine.execMtidr gd d a k e s
  | .mdup gd d a b q e => Sys2Proof.Machine.execMdup gd d a b q e s
  | .tableCommandApply tid => Sys2Proof.Machine.execTableCommandApply tid s
  | .mcode gd a im kw => Sys2Proof.Machine.execMcode gd a im kw s
  | .mcodeFixed gd => Sys2Proof.Machine.execMcodeFixed gd s
  | .codeTableFlip core => Sys2Proof.Machine.execCodeTableFlip core s
  | .mpred gd d a b f => Sys2Proof.Machine.execMpred gd d a b f s
  | .mwait gd c => Sys2Proof.Machine.execMwait gd c s
  | .ysort gd d a b x t => Sys2Proof.Machine.execYsort gd d a b x t s
  | .ymerge gd d a b h x t => Sys2Proof.Machine.execYmerge gd d a b h x t s
  | .ytopkInit gd a x t => Sys2Proof.Machine.execYtopkInit gd a x t s
  | .ytopkAdd gd a b k => Sys2Proof.Machine.execYtopkAdd gd a b k s
  | .ytopkOut gd d a b => Sys2Proof.Machine.execYtopkOut gd d a b s
  | .ysums gd d a b r y t => Sys2Proof.Machine.execYsums gd d a b r y t s
  | .yrank gd d a x t => Sys2Proof.Machine.execYrank gd d a x t s
  | .ybkt gd d a b k t => Sys2Proof.Machine.execYbkt gd d a b k t s
  | .ycmpr gd d a b => Sys2Proof.Machine.execYcmpr gd d a b s
  | .yexpd gd d a b z => Sys2Proof.Machine.execYexpd gd d a b z s
  | .yhist gd d a b w k => Sys2Proof.Machine.execYhist gd d a b w k s
  | .yargx gd d a k x t => Sys2Proof.Machine.execYargx gd d a k x t s
  | .cstage gd a im kw => Sys2Proof.Machine.execCstage gd a im kw s
  | .carrive gd a b => Sys2Proof.Machine.execCarrive gd a b s
  | .csched gd a => Sys2Proof.Machine.execCsched gd a s
  | .rpush gd d a b => Sys2Proof.Machine.execRpush gd d a b s
  | .rpushOpen gd d a b => Sys2Proof.Machine.execRpushOpen gd d a b s
  | .rpushClose gd d a => Sys2Proof.Machine.execRpushClose gd d a s
  | .rpop gd d a k => Sys2Proof.Machine.execRpop gd d a k s
  | .rstat gd d a k => Sys2Proof.Machine.execRstat gd d a k s
  | .ringDeliveryLand clu k => Sys2Proof.Machine.execRingDeliveryLand clu k s
  | .mqsend gd d a b => Sys2Proof.Machine.execMqsend gd d a b s
  | .mqrecv gd d a x k => Sys2Proof.Machine.execMqrecv gd d a x k s
  | .mqstat gd d a => Sys2Proof.Machine.execMqstat gd d a s
  | .queueEntryApply core => Sys2Proof.Machine.execQueueEntryApply core s
  | .queueCreditReturn core => Sys2Proof.Machine.execQueueCreditReturn core s
  | .tsubmit gd d a => Sys2Proof.Machine.execTsubmit gd d a s
  | .tsubmitRetry tid => Sys2Proof.Machine.execTsubmitRetry tid s
  | .tsignal gd a => Sys2Proof.Machine.execTsignal gd a s
  | .launch gd a o => Sys2Proof.Machine.execLaunch gd a o s
  | .launchNb gd d a o => Sys2Proof.Machine.execLaunchNb gd d a o s
  | .pendingLaunchDrain die => Sys2Proof.Machine.execPendingLaunchDrain die s
  | .fred gd d a b => Sys2Proof.Machine.execFred gd d a b s
  | .sladd gd d a b => Sys2Proof.Machine.execSladd gd d a b s
  | .slsend gd d => Sys2Proof.Machine.execSlsend gd d s
  | .slrecv gd d a => Sys2Proof.Machine.execSlrecv gd d a s
  | .bbmark gd d a im kw => Sys2Proof.Machine.execBbmark gd d a im kw s
  | .pwrq gd d im => Sys2Proof.Machine.execPwrq gd d im s
  | .pwrres gd d a => Sys2Proof.Machine.execPwrres gd d a s
  | .pwrresRel gd d => Sys2Proof.Machine.execPwrresRel gd d s
  | .tlbi gd d a b => Sys2Proof.Machine.execTlbi gd d a b s
  | .tlbiComplete k => Sys2Proof.Machine.execTlbiComplete k s
  | .selft gd d a w => Sys2Proof.Machine.execSelft gd d a w s
  | .emptyBundle stall => Sys2Proof.Machine.execEmptyBundle stall s
  | .lineSkip => Sys2Proof.Machine.execLineSkip s
  | .lineFill tid => Sys2Proof.Machine.execLineFill tid s
  | .asyncTrap tid => Sys2Proof.Machine.execAsyncTrap tid s
  | .yieldExpiry tid => Sys2Proof.Machine.execYieldExpiry tid s
  | .threadFree tid => Sys2Proof.Machine.execThreadFree tid s
  | .taskPlacement die => Sys2Proof.Machine.execTaskPlacement die s
  | .priorityAgeing die k => Sys2Proof.Machine.execPriorityAgeing die k s
  | .reservationTaken die => Sys2Proof.Machine.execReservationTaken die s
  | .readyQueueEntry die => Sys2Proof.Machine.execReadyQueueEntry die s
  | .stopLands tid => Sys2Proof.Machine.execStopLands tid s
  | .stopRequestTimeout tid => Sys2Proof.Machine.execStopRequestTimeout tid s
  | .killRequeue die k => Sys2Proof.Machine.execKillRequeue die k s
  | .checkpointWrite die k => Sys2Proof.Machine.execCheckpointWrite die k s
  | .copyChunk die k => Sys2Proof.Machine.execCopyChunk die k s
  | .copyEntryComplete die k => Sys2Proof.Machine.execCopyEntryComplete die k s
  | .copyEntryStop die k => Sys2Proof.Machine.execCopyEntryStop die k s
  | .translationWalk die => Sys2Proof.Machine.execTranslationWalk die s
  | .packageReset boot => Sys2Proof.Machine.execPackageReset boot s
  | .attestationQuote nonce => Sys2Proof.Machine.execAttestationQuote nonce s
  | .keySlotWrite slot dom => Sys2Proof.Machine.execKeySlotWrite slot dom s
  | .packetIngress p => Sys2Proof.Machine.execPacketIngress p s
  | .hubRegisterWrite w => Sys2Proof.Machine.execHubRegisterWrite w s
  | .grantWrite g => Sys2Proof.Machine.execGrantWrite g s
  | .energySample nJ => Sys2Proof.Machine.execEnergySample nJ s
  | .energyInterval => Sys2Proof.Machine.execEnergyInterval s
  | .selfTestVerdict unit lasting => Sys2Proof.Machine.execSelfTestVerdict unit lasting s
  | .blackBoxClear die thaw clear => Sys2Proof.Machine.execBlackBoxClear die thaw clear s
  | .fatalHardwareEvent die ev data0 data1 => Sys2Proof.Machine.execFatalHardwareEvent die ev data0 data1 s
  | .flitCrcFail port lane => Sys2Proof.Machine.execFlitCrcFail port lane s
  | .laneOutOfService port lane => Sys2Proof.Machine.execLaneOutOfService port lane s
  | .linkDown port => Sys2Proof.Machine.execLinkDown port s
  | .packetRoute port p => Sys2Proof.Machine.execPacketRoute port p s
  | .escapeMove k => Sys2Proof.Machine.execEscapeMove k s
  | .fabricPacketSend k => Sys2Proof.Machine.execFabricPacketSend k s
  | .creditRequest src => Sys2Proof.Machine.execCreditRequest src s
  | .creditGrant src n => Sys2Proof.Machine.execCreditGrant src n s
  | .creditExpiry dst => Sys2Proof.Machine.execCreditExpiry dst s
  | .ackReceive src seq => Sys2Proof.Machine.execAckReceive src seq s
  | .writePlace k => Sys2Proof.Machine.execWritePlace k s
  | .fredApply k => Sys2Proof.Machine.execFredApply k s
  | .tokenPlace k => Sys2Proof.Machine.execTokenPlace k s
  | .flushComplete => Sys2Proof.Machine.execFlushComplete s
  | .coordinatorGo => Sys2Proof.Machine.execCoordinatorGo s
  | .harvestApply => Sys2Proof.Machine.execHarvestApply s
  | .boundaryComplete => Sys2Proof.Machine.execBoundaryComplete s
  | .stepSkew => Sys2Proof.Machine.execStepSkew s
  | .declareFailed dev => Sys2Proof.Machine.execDeclareFailed dev s
  | .failedNotice dev => Sys2Proof.Machine.execFailedNotice dev s
  | .fixedLatencyWriteLands tid => Sys2Proof.Machine.execFixedLatencyWriteLands tid s
  | .accessPerformsAtHome tid => Sys2Proof.Machine.execAccessPerformsAtHome tid s
  | .matrixCommandEngineApply tid => Sys2Proof.Machine.execMatrixCommandEngineApply tid s
  | .dieEngineCommandApply die => Sys2Proof.Machine.execDieEngineCommandApply die s
  | .thermalWarning die data0 => Sys2Proof.Machine.execThermalWarning die data0 s
  | .systemCoreLineWriteback line data => Sys2Proof.Machine.execSystemCoreLineWriteback line data s
  | .decodeCheckTrap cause engine estat => Sys2Proof.Machine.execDecodeCheckTrap cause engine estat s

end Sys2Proof.Machine
end

