-- ==== Sys2Proof/Machine/Firmware.lean ====
section
/-! DEFINITION. Corvokai resident firmware: what the rules say that it does for a thread, as one action each, in place of the bundles of a store that a
verified boot has locked (R260, R294, R295, R366, R377; log entry 13). At every other address of such a store its own bundles run. -/

namespace Sys2Proof.Machine

open Sys2Proof

/-! ## The sequencer's area and the frame -/

/-- The area of a sequencer in the firmware's stack region (R254). -/
def fwArea (tid : Nat) : Nat := 0xFC000 + 0x1000 * (tid % 4)

/-- Bytes that the firmware stores in the thread's own scratchpad. -/
def State.fwStore (s : State) (off : Nat) (bs : List Byte) : State := (s.clearEcc (s.ownPlace off) bs.length).softBytes (s.ownPlace off) bs

/-- A doubleword of the thread's own scratchpad. -/
def State.fwRead (s : State) (off : Nat) : Nat := s.read (s.ownPlace off) 8

/-- The firmware writes s1 of the thread. -/
def State.putS1 (s : State) (v : Nat) : State := s.updMe (fun t => t.land (.s 1) v)

/-- No result is on its way to s1 or s2, which a service reads. -/
def State.argsReady (s : State) : Bool :=
  [Dest.s 1, Dest.s 2].all (fun d => !s.me.locked d && !s.me.due.any (fun f => f.dest == d) && !s.me.flight.any (fun f => f.dest == d))

/-- The delegation frame (Table 10-3). -/
def Thread.frame (t : Thread) : List Byte :=
  [t.ctl.cause.toNat, t.ctl.cmdidx.toNat, t.ctl.engine.toNat, t.ctl.estat.toNat, t.ctl.badaddr.toNat, t.ctl.xpc.toNat, (t.sreg 1).toNat, 0].flatMap
    (natBytes 8)

/-- The causes of class T (Table 10-4). -/
def delegable (code : Nat) : Bool := !(List.contains [0x27, 0x2F, 0x40, 0x5D, 0x83] code)

/-! ## The services of GATE -/

/-- Service 1: the handler and the frame of the thread's domain (R260). A frame address that is not aligned, or outside 0x0 to 0xF_5FFF, registers nothing
(log entry 13). -/
def State.fwRegister (s : State) : State :=
  let frame := (s.me.sreg 2).toNat
  let s := if frame % 64 = 0 ∧ frame + 64 ≤ 0xF6000 then
      s.updHub (fun h => { h with handlers := tset h.handlers s.me.dom.toNat ((s.me.sreg 1).setWidth 48, frame) }) else s
  s.rftLive false

/-- Service 2: the reload table of the thread (R294). -/
def State.fwReload (s : State) : State :=
  let a := (s.me.sreg 1).toNat
  let ok := a % 64 = 0 ∧ a + 512 ≤ 0xF6000
  (((if ok then s.updMe (fun t => { t with reload := some a }) else s).putS1 (b2n (decide ok))).rftLive false)

/-- Service 0: the tenant handler is done: s1 and $xpc from its frame, and the return from the stored image (R260). A GATE 0 without a delivery only returns
(log entry 13). -/
def State.fwDone (s : State) : State :=
  if ¬ s.me.delivered then s.rftLive false
  else
    let frame := (s.me.sreg 1).toNat
    s.padAccess .read 3 64 [(frame % 2 ^ 48, 64)] (fun s =>
      let s := (s.updMe (fun t => { t with delivered := false, ctl := { t.ctl with xpc := BitVec.ofNat 48 (s.fwRead (frame % 2 ^ 48 + 40)) } })).putS1
        (s.fwRead (frame % 2 ^ 48 + 48))
      s.rftImage (fwArea s.cur.tid))

/-! ## The vectors of class T -/

/-- The registered handler of the thread's domain. -/
def State.handlerOf (s : State) (t : Thread) : Option (VAddr × Nat) := (s.hub.handlers.find? (fun e => e.1 == t.dom.toNat)).map Prod.snd

/-- The firmware ends the thread, whose snapshot is free again, so that a further fault of its commands can be delivered (R23, R260). -/
def State.fwStop (s : State) : State :=
  let s' := s.endThread
  if s'.cur.out = .ok ∧ s.mySnap.isSome then s'.dropSnap else s'

/-- A cause that no handler takes: its black-box event, with $badaddr as data, and the end of the thread (R366). -/
def State.fwEnd (s : State) : State :=
  let t := s.me
  let s' := s.fwStop
  if s'.cur.out = .ok then
    s'.event (dieOf s.cur.tid) t.ctl.cause.toNat (some (coreOf s.cur.tid)) s.cur.tid t.dom.toNat (some (t.ctl.badaddr.setWidth 64)) none
  else s'

/-- A cause of class T (R260, R366): delivered to the domain's handler; or, raised between a delivery and its GATE 0, the thread ends; or, without a handler
to take it, the black-box event of the cause and the thread's end. R260 delivers to a thread at T, and names no delivery of a cause raised at F, in a gate
service or a handler, or in RETIRING: such a cause ends its thread in the last way, whatever handler its domain has registered, the model's choice (log entry 13). -/
def State.fwCause (s : State) : State :=
  let t := s.me
  let tid := s.cur.tid
  match s.handlerOf t, s.mySnap with
  | some (handler, frame), some sn =>
    if t.delivered then s.fwStop
    else if t.ret.atF ∨ t.ret.st = .retiring then s.fwEnd
    else
      let s := ((s.fwStore (fwArea tid) sn.image).fwStore frame t.frame).putS1 frame
      (s.updMe (fun t => { t with delivered := true, ctl := { t.ctl with xpc := handler } })).rftLive true
  | _, _ => if t.delivered then s.fwStop else s.fwEnd

/-! ## The recovery of an operand slot -/

/-- The first steps of R295: the snapshot is stored and released, and the thread stays at the vector until the verdict. -/
def State.fwMend (s : State) : State :=
  let s := match s.mySnap with
    | some sn => (s.fwStore (fwArea s.cur.tid) sn.image).dropSnap
    | none => s
  { s.updMe (fun t => { t with mend := true }) with cur := { s.cur with target := some s.cur.pc } }

/-- The later steps of R295, once the verdict is known: on a lasting one the thread ends; on a transient one the slot of $badaddr is loaded again, as its valid
reload entry says, and the thread returns from the stored image, its command restarting with $estat as it is. -/
def State.fwMended (s : State) : State :=
  let t := s.me
  let u := tget .none s.hub.units (2 * 2 ^ 20 + coreOf s.cur.tid)
  let stop := (s.updMe (fun t => { t with mend := false })).fwStop
  if u.phase ≠ 0 then s.hold
  else if u.last = 1 then stop
  else
    match t.reload with
    | none => stop
    | some tab =>
      let slot := t.ctl.badaddr.toNat % 64
      let e := s.fwRead (tab + 8 * slot)
      if nbits e 63 1 = 0 ∨ nbits e 47 16 ≠ 0 then stop
      else
        let s' := s.tldAt slot (nbits e 40 6) (e.testBit 46) (nbits e 0 40)
        match s'.cur.out with
        | .ok => (s'.updMe (fun t => { t with mend := false })).rftImage (fwArea s.cur.tid)
        | .trapped _ => stop
        | .spoiled _ _ => stop
        | _ => s'

/-! ## Where the firmware acts -/

/-- What resident firmware does for a thread at its program counter, where a rule says it: `none` elsewhere, and in a store that no boot has locked. -/
def State.resident (s : State) (tid : Nat) : Option (State → State) :=
  let t := s.thread tid
  let pc := t.pc.toNat
  let args (f : State → State) : State → State := fun s => if s.argsReady then f s else s.hold
  if ¬ t.atF ∨ ¬ (s.die (dieOf tid)).fwLock then none
  else if pc = 0x4000 then some (args State.fwDone)
  else if pc = 0x4040 then some (args State.fwRegister)
  else if pc = 0x4080 then some (args State.fwReload)
  else if t.st ≠ .trapped ∨ pc ≠ 64 * t.ctl.cause.toNat then none
  else if t.ctl.cause = 0x27 ∧ nbits t.ctl.estat.toNat 48 3 = 4 ∧ t.ctl.estat.getLsbD 63 then some (if t.mend then State.fwMended else State.fwMend)
  else if delegable t.ctl.cause.toNat then some State.fwCause
  else none

end Sys2Proof.Machine
end

