-- ==== Sys2Proof/Machine/Hazards.lean ====
section
/-! DEFINITION. What each operation reads and writes, for the interlocks and the checking scoreboard (R40, R52, R55). -/

namespace Sys2Proof.Machine

open Sys2Proof

/-- The second operand of ADD, SUB and MUL: a register, unless it is a loop index. -/
def opReg (k : BitVec 1) (b : BitVec 5) : List Dest := if k = 1 then [] else [.s b.toNat]

/-- The second operand of a vector operation (E). -/
def vecB (e : BitVec 1) (b : BitVec 5) : List Dest := if e = 1 then [.s b.toNat] else [.v b.toNat]

/-- A merge reads its destination: K is not m0 and Z = 0 (R127). -/
def merge (z : BitVec 1) (k : BitVec 3) (d : BitVec 5) : List Dest := if z = 0 ∧ k ≠ 0 then [.v d.toNat] else []

/-- The predicate register a descriptor in s[b] names (R225). -/
def descReg (th : Thread) (p : BitVec 1) (b : BitVec 5) : List Dest := if p = 1 then [.q (nbits (th.sreg b.toNat).toNat 32 3)] else []

/-- The status registers of STEP (R411). -/
def stepDests (d : BitVec 5) : List Dest := if d = 0 then [] else [.s d.toNat, .s (d.toNat + 1)]

/-- The sources of MPRED by function (Table 9-3). -/
def predReads (f : Nat) (d a b : BitVec 5) : List Dest :=
  match f with
  | 0 => [.s a.toNat]
  | 1 => [.q a.toNat]
  | 2 => [.v a.toNat, .q d.toNat]
  | 3 => [.v a.toNat, .q d.toNat]
  | 7 => [.q a.toNat, .s b.toNat]
  | _ => [.q a.toNat, .q b.toNat]

/-- The registers an operation reads (R40, R55, R127): its sources, without its guard; `th` is the thread it reads from. -/
def readsOf (th : Thread) (i : Instr) : List Dest :=
  match i with
  | .nop _ => []
  | .br _ _ _ => []
  | .jmp _ a => [.s a.toNat]
  | .call _ _ _ => []
  | .callr _ _ a => [.s a.toNat]
  | .ret _ a => [.s a.toNat]
  | .loop _ _ _ _ => []
  | .loopr _ _ a _ => [.s a.toNat]
  | .lbrk _ _ => []
  | .endThread _ => []
  | .yield _ a => [.s a.toNat]
  | .await _ d a _ _ => [.s d.toNat, .s a.toNat]
  | .joinNew _ => []
  | .join _ a _ _ => [.s a.toNat]
  | .leave _ => []
  | .bar _ => []
  | .fuse _ _ _ => []
  | .decouple _ => []
  | .rejoin _ _ => []
  | .suspend _ _ a => [.s a.toNat]
  | .suspendComplete _ _ => []
  | .resume _ a _ => [.s a.toNat]
  | .hamperLoadComplete _ _ => []
  | .hcopy _ _ a b => [.s a.toNat, .s b.toNat]
  | .hcopyComplete _ _ => []
  | .hdiscard _ _ a => [.s a.toNat]
  | .trap _ _ _ => []
  | .gate _ _ => []
  | .rft _ a => [.s a.toNat]
  | .rftN _ => []
  | .snapst _ b _ _ => [.s b.toNat]
  | .snaprel _ => []
  | .step _ _ a _ => [.s a.toNat]
  | .add _ _ a b k => [.s a.toNat] ++ (opReg k b)
  | .addi _ _ a _ _ => [.s a.toNat]
  | .sub _ _ a b k => [.s a.toNat] ++ (opReg k b)
  | .mul _ _ a b k => [.s a.toNat] ++ (opReg k b)
  | .mulh _ _ a b => [.s a.toNat, .s b.toNat]
  | .mulhu _ _ a b => [.s a.toNat, .s b.toNat]
  | .div _ _ a b => [.s a.toNat, .s b.toNat]
  | .divu _ _ a b => [.s a.toNat, .s b.toNat]
  | .rem _ _ a b => [.s a.toNat, .s b.toNat]
  | .remu _ _ a b => [.s a.toNat, .s b.toNat]
  | .andS _ _ a b => [.s a.toNat, .s b.toNat]
  | .andi _ _ a _ _ => [.s a.toNat]
  | .orS _ _ a b => [.s a.toNat, .s b.toNat]
  | .ori _ _ a _ _ => [.s a.toNat]
  | .xorS _ _ a b => [.s a.toNat, .s b.toNat]
  | .xori _ _ a _ _ => [.s a.toNat]
  | .andn _ _ a b => [.s a.toNat, .s b.toNat]
  | .shl _ _ a b => [.s a.toNat, .s b.toNat]
  | .shli _ _ a _ _ => [.s a.toNat]
  | .shr _ _ a b => [.s a.toNat, .s b.toNat]
  | .shri _ _ a _ _ => [.s a.toNat]
  | .sar _ _ a b => [.s a.toNat, .s b.toNat]
  | .sari _ _ a _ _ => [.s a.toNat]
  | .cmp _ _ a b _ => [.s a.toNat, .s b.toNat]
  | .cmpi _ _ _ a _ _ => [.s a.toNat]
  | .sel _ _ a b _ k => [.g k.toNat, .s a.toNat, .s b.toNat]
  | .min _ _ a b => [.s a.toNat, .s b.toNat]
  | .max _ _ a b => [.s a.toNat, .s b.toNat]
  | .minu _ _ a b => [.s a.toNat, .s b.toNat]
  | .maxu _ _ a b => [.s a.toNat, .s b.toNat]
  | .clz _ _ a => [.s a.toNat]
  | .popc _ _ a => [.s a.toNat]
  | .bfx _ _ a _ _ => [.s a.toNat]
  | .bfi _ d a _ _ => [.s d.toNat, .s a.toNat]
  | .li _ _ _ _ => []
  | .lih _ d _ _ => [.s d.toNat]
  | .lea _ _ a _ _ => [.s a.toNat]
  | .addpc _ _ _ _ => []
  | .gop _ _ a b f => (if f = 8 then [.s a.toNat] else if f = 9 then [.g a.toNat] else [.g a.toNat, .g b.toNat])
  | .movs _ _ i kw => ([.sys (immU17 i kw)])
  | .movz _ d _ _ => [.s d.toNat]
  | .fadd _ _ a b _ => [.s a.toNat, .s b.toNat]
  | .fsub _ _ a b _ => [.s a.toNat, .s b.toNat]
  | .fmul _ _ a b _ => [.s a.toNat, .s b.toNat]
  | .fma _ d a b _ => [.s a.toNat, .s b.toNat, .s d.toNat]
  | .fmin _ _ a b => [.s a.toNat, .s b.toNat]
  | .fmax _ _ a b => [.s a.toNat, .s b.toNat]
  | .fcmp _ _ a b _ => [.s a.toNat, .s b.toNat]
  | .fcvti _ _ a _ _ => [.s a.toNat]
  | .fcvtf _ _ a _ _ => [.s a.toNat]
  | .pairWord _ sf _ a b _ _ y z => ([.s a.toNat] ++ (if 14 ≤ sf.toNat then [] else [.s b.toNat]) ++ [.v y.toNat, .v z.toNat])
  | .vadd _ d a b e _ z k => [.v a.toNat] ++ (vecB e b) ++ [.m k.toNat] ++ (merge z k d)
  | .vsub _ d a b e _ z k => [.v a.toNat] ++ (vecB e b) ++ [.m k.toNat] ++ (merge z k d)
  | .vmul _ d a b e z k => [.v a.toNat] ++ (vecB e b) ++ [.m k.toNat] ++ (merge z k d)
  | .vmulh _ d a b e _ z k => [.v a.toNat] ++ (vecB e b) ++ [.m k.toNat] ++ (merge z k d)
  | .vmad _ d a b e _ _ k => [.v a.toNat] ++ (vecB e b) ++ [.m k.toNat, .v d.toNat]
  | .vand _ d a b e z k => [.v a.toNat] ++ (vecB e b) ++ [.m k.toNat] ++ (merge z k d)
  | .vor _ d a b e z k => [.v a.toNat] ++ (vecB e b) ++ [.m k.toNat] ++ (merge z k d)
  | .vxor _ d a b e z k => [.v a.toNat] ++ (vecB e b) ++ [.m k.toNat] ++ (merge z k d)
  | .vshl _ d a b e z k => [.v a.toNat] ++ (vecB e b) ++ [.m k.toNat] ++ (merge z k d)
  | .vshr _ d a b e z k => [.v a.toNat] ++ (vecB e b) ++ [.m k.toNat] ++ (merge z k d)
  | .vsar _ d a b e z k => [.v a.toNat] ++ (vecB e b) ++ [.m k.toNat] ++ (merge z k d)
  | .vmin _ d a b e _ z k => [.v a.toNat] ++ (vecB e b) ++ [.m k.toNat] ++ (merge z k d)
  | .vmax _ d a b e _ z k => [.v a.toNat] ++ (vecB e b) ++ [.m k.toNat] ++ (merge z k d)
  | .vabs _ d a _ z k => [.v a.toNat, .m k.toNat] ++ (merge z k d)
  | .vcmp _ d a b _ z k => [.v a.toNat, .v b.toNat, .m k.toNat] ++ (if z = 0 ∧ k ≠ 0 then [.m d.toNat] else [])
  | .vsel _ _ a b _ sf => [.v a.toNat, .v b.toNat, .m sf.toNat]
  | .vfadd _ d a b _ z k => [.v a.toNat, .v b.toNat, .m k.toNat] ++ (merge z k d)
  | .vfsub _ d a b _ z k => [.v a.toNat, .v b.toNat, .m k.toNat] ++ (merge z k d)
  | .vfmul _ d a b _ z k => [.v a.toNat, .v b.toNat, .m k.toNat] ++ (merge z k d)
  | .vfma _ d a b _ _ k => [.v a.toNat, .v b.toNat, .v d.toNat, .m k.toNat]
  | .vfmin _ d a b z k => [.v a.toNat, .v b.toNat, .m k.toNat] ++ (merge z k d)
  | .vfmax _ d a b z k => [.v a.toNat, .v b.toNat, .m k.toNat] ++ (merge z k d)
  | .vfcmp _ d a b _ z k => [.v a.toNat, .v b.toNat, .m k.toNat] ++ (if z = 0 ∧ k ≠ 0 then [.m d.toNat] else [])
  | .vrcp _ d a z k => [.v a.toNat, .m k.toNat] ++ (merge z k d)
  | .vrsq _ d a z k => [.v a.toNat, .m k.toNat] ++ (merge z k d)
  | .vexp2 _ d a z k => [.v a.toNat, .m k.toNat] ++ (merge z k d)
  | .vlog2 _ d a z k => [.v a.toNat, .m k.toNat] ++ (merge z k d)
  | .vcvt _ d a _ _ f => [.v a.toNat] ++ (if f.toNat = 12 ∨ f.toNat = 13 then [] else [.v d.toNat])
  | .vcvtWide _ _ a _ _ => [.v a.toNat]
  | .vqnt _ _ a b _ _ _ => [.v a.toNat, .v b.toNat]
  | .vdqnt _ _ a b _ _ _ => [.v a.toNat, .v b.toNat]
  | .vbsc _ _ a _ _ => [.v a.toNat]
  | .vperm _ d a b z k => [.v a.toNat, .v b.toNat, .m k.toNat] ++ (merge z k d)
  | .vbcast _ d a _ l z k => (if l = 1 then [.v a.toNat] else [.s a.toNat]) ++ [.m k.toNat] ++ (merge z k d)
  | .vslide _ _ a _ _ => [.v a.toNat]
  | .vred _ _ a _ k => [.v a.toNat, .m k.toNat]
  | .vscan _ d a _ _ k => [.v a.toNat, .m k.toNat] ++ (merge 0 k d)
  | .viota _ _ a _ _ => [.s a.toNat]
  | .vmop _ _ a b _ => [.m a.toNat, .m b.toNat]
  | .vmpopPopc _ _ a => [.m a.toNat]
  | .vmpopFfs _ _ a => [.m a.toNat]
  | .vmpopGet _ _ a => [.m a.toNat]
  | .vmpopSet _ _ a => [.s a.toNat]
  | .vrng _ d _ z k => [.m k.toNat] ++ (merge z k d)
  | .vprune _ d a b z k => [.v a.toNat, .s b.toNat, .m k.toNat] ++ (merge z k d)
  | .vnm _ _ a _ _ _ => [.v a.toNat]
  | .vmovs _ _ a _ _ => [.v a.toNat]
  | .vins _ d a _ => [.s a.toNat, .v d.toNat]
  | .ldB _ _ b _ _ => [.s b.toNat]
  | .ldH _ _ b _ _ => [.s b.toNat]
  | .ldW _ _ b _ _ => [.s b.toNat]
  | .ldD _ _ b _ _ => [.s b.toNat]
  | .lduB _ _ b _ _ => [.s b.toNat]
  | .lduH _ _ b _ _ => [.s b.toNat]
  | .lduW _ _ b _ _ => [.s b.toNat]
  | .stB _ d b _ _ => [.s d.toNat, .s b.toNat]
  | .stH _ d b _ _ => [.s d.toNat, .s b.toNat]
  | .stW _ d b _ _ => [.s d.toNat, .s b.toNat]
  | .stD _ d b _ _ => [.s d.toNat, .s b.toNat]
  | .ldv _ _ b _ _ => [.s b.toNat]
  | .stv _ d b _ _ => [.v d.toNat, .s b.toNat]
  | .ldvs _ d a b z k => [.s a.toNat, .s b.toNat, .m k.toNat] ++ (merge z k d)
  | .stvs _ d a b k => [.v d.toNat, .s a.toNat, .s b.toNat, .m k.toNat]
  | .ldvx _ d a b z k => [.s a.toNat, .v b.toNat, .m k.toNat] ++ (merge z k d)
  | .stvx _ d a b k => [.v d.toNat, .s a.toNat, .v b.toNat, .m k.toNat]
  | .lda _ _ a _ _ _ => [.s a.toNat]
  | .sta _ d a _ _ _ => [.s d.toNat, .s a.toNat]
  | .amo _ d a _ _ _ _ => [.s d.toNat, .s a.toNat]
  | .cas _ d a b _ _ _ => [.s d.toNat, .s a.toNat, .s b.toNat]
  | .vamo _ d a b _ _ => [.v d.toNat, .s a.toNat, .v b.toNat]
  | .fence _ _ _ => []
  | .tld _ _ a _ _ _ _ => [.s a.toNat]
  | .tlda _ _ a b p _ => [.s a.toNat, .s b.toNat] ++ (descReg th p b)
  | .tst _ _ a b p _ _ => [.s a.toNat, .s b.toNat] ++ (descReg th p b)
  | .mcall _ v q _ w p _ => ((List.range 8).map Dest.p ++ (if p = 1 then [.q q.toNat] else []) ++ (if w = 1 then [.v v.toNat] else []))
  | .mcallEngineStart _ => []
  | .mcallRetire _ => []
  | .routineStop _ _ => []
  | .msetp _ d a h _ => [.s a.toNat] ++ (if h = 1 then [.p d.toNat] else [])
  | .mgetp _ _ a => [.p a.toNat]
  | .mclaim _ _ a _ => [.s a.toNat]
  | .mrel _ a _ => [.s a.toNat]
  | .mzero _ _ a b p _ _ => [.s a.toNat] ++ (if p = 1 then [.s b.toNat] else []) ++ (descReg th p b)
  | .mnorm _ _ a b p _ => [.s a.toNat] ++ (if p = 1 then [.s b.toNat] else []) ++ (descReg th p b)
  | .mrdrow _ _ _ b _ _ => [.s b.toNat]
  | .mwrrow _ d _ b _ => [.v d.toNat, .s b.toNat]
  | .mcell _ a _ _ => [.s a.toNat]
  | .mcellPre _ _ => []
  | .mflow _ y _ a _ _ => (if y = 1 then [.s a.toNat] else [])
  | .mrout _ d a _ _ => [.s d.toNat, .s a.toNat]
  | .configCommandApply _ => []
  | .mtid _ a _ => [.s a.toNat]
  | .mtidr _ _ _ _ _ => []
  | .mdup _ _ a b _ _ => [.s a.toNat, .s b.toNat]
  | .tableCommandApply _ => []
  | .mcode _ a _ _ => [.s a.toNat]
  | .mcodeFixed _ => []
  | .codeTableFlip _ => []
  | .mpred _ d a b f => (predReads f.toNat d a b)
  | .mwait _ _ => []
  | .ysort _ _ a b _ _ => [.v a.toNat, .v b.toNat]
  | .ymerge _ _ a b _ _ _ => [.v a.toNat, .v (a + 1).toNat, .v b.toNat, .v (b + 1).toNat]
  | .ytopkInit _ a _ _ => [.s a.toNat]
  | .ytopkAdd _ a b k => [.v a.toNat, .v b.toNat, .m k.toNat]
  | .ytopkOut _ _ _ _ => []
  | .ysums _ _ a b _ y _ => (if y = 1 then [] else [.v a.toNat, .m b.toNat])
  | .yrank _ _ a _ _ => [.v a.toNat]
  | .ybkt _ _ a b k _ => [.v a.toNat, .v b.toNat, .m k.toNat]
  | .ycmpr _ _ a b => [.v a.toNat, .m b.toNat]
  | .yexpd _ d a b z => [.v a.toNat, .m b.toNat] ++ (if z = 1 then [] else [.v d.toNat])
  | .yhist _ d a b w k => [.v a.toNat, .v d.toNat, .m k.toNat] ++ (if w = 1 then [.v b.toNat] else [])
  | .yargx _ _ a k _ _ => [.v a.toNat, .m k.toNat]
  | .cstage _ a _ _ => [.s a.toNat]
  | .carrive _ a b => [.s a.toNat, .s b.toNat]
  | .csched _ a => [.s a.toNat]
  | .rpush _ _ a b => [.s a.toNat, .s b.toNat]
  | .rpushOpen _ _ a b => [.s a.toNat, .s b.toNat]
  | .rpushClose _ _ a => [.s a.toNat]
  | .rpop _ _ a _ => [.s a.toNat]
  | .rstat _ _ a _ => [.s a.toNat]
  | .ringDeliveryLand _ _ => []
  | .mqsend _ _ a b => [.s a.toNat, .v b.toNat]
  | .mqrecv _ _ a _ _ => [.s a.toNat]
  | .mqstat _ _ a => [.s a.toNat]
  | .queueEntryApply _ => []
  | .queueCreditReturn _ => []
  | .tsubmit _ _ a => [.s a.toNat]
  | .tsubmitRetry _ => []
  | .tsignal _ a => [.s a.toNat]
  | .launch _ a _ => [.s a.toNat]
  | .launchNb _ _ a _ => [.s a.toNat]
  | .pendingLaunchDrain _ => []
  | .fred _ d a b => [.v d.toNat, .s a.toNat, .s b.toNat]
  | .sladd _ _ a b => [.s a.toNat, .s b.toNat]
  | .slsend _ _ => []
  | .slrecv _ _ a => [.s a.toNat]
  | .bbmark _ d a _ _ => [.s d.toNat, .s a.toNat]
  | .pwrq _ _ _ => []
  | .pwrres _ _ a => [.s a.toNat]
  | .pwrresRel _ _ => []
  | .tlbi _ _ a b => [.s a.toNat, .s b.toNat]
  | .tlbiComplete _ => []
  | .selft _ _ a _ => [.s a.toNat]
  | .emptyBundle _ => []
  | .lineSkip => []
  | .lineFill _ => []
  | .asyncTrap _ => []
  | .yieldExpiry _ => []
  | .threadFree _ => []
  | .taskPlacement _ => []
  | .priorityAgeing _ _ => []
  | .reservationTaken _ => []
  | .readyQueueEntry _ => []
  | .stopLands _ => []
  | .stopRequestTimeout _ => []
  | .killRequeue _ _ => []
  | .checkpointWrite _ _ => []
  | .copyChunk _ _ => []
  | .copyEntryComplete _ _ => []
  | .copyEntryStop _ _ => []
  | .translationWalk _ => []
  | .packageReset _ => []
  | .attestationQuote _ => []
  | .keySlotWrite _ _ => []
  | .packetIngress _ => []
  | .hubRegisterWrite _ => []
  | .grantWrite _ => []
  | .energySample _ => []
  | .energyInterval => []
  | .selfTestVerdict _ _ => []
  | .blackBoxClear _ _ _ => []
  | .fatalHardwareEvent _ _ _ _ => []
  | .flitCrcFail _ _ => []
  | .laneOutOfService _ _ => []
  | .linkDown _ => []
  | .packetRoute _ _ => []
  | .escapeMove _ => []
  | .fabricPacketSend _ => []
  | .creditRequest _ => []
  | .creditGrant _ _ => []
  | .creditExpiry _ => []
  | .ackReceive _ _ => []
  | .writePlace _ => []
  | .fredApply _ => []
  | .tokenPlace _ => []
  | .flushComplete => []
  | .coordinatorGo => []
  | .harvestApply => []
  | .boundaryComplete => []
  | .stepSkew => []
  | .declareFailed _ => []
  | .failedNotice _ => []
  | .fixedLatencyWriteLands _ => []
  | .accessPerformsAtHome _ => []
  | .matrixCommandEngineApply _ => []
  | .dieEngineCommandApply _ => []
  | .thermalWarning _ _ => []
  | .systemCoreLineWriteback _ _ => []
  | .decodeCheckTrap _ _ _ => []

/-- The registers an operation writes (R52). -/
def writesOf (i : Instr) : List Dest :=
  match i with
  | .nop _ => []
  | .br _ _ _ => []
  | .jmp _ _ => []
  | .call _ _ _ => [.s 31]
  | .callr _ d _ => [.s d.toNat]
  | .ret _ _ => []
  | .loop _ _ _ _ => []
  | .loopr _ _ _ _ => []
  | .lbrk _ _ => []
  | .endThread _ => []
  | .yield _ _ => []
  | .await _ _ _ _ _ => []
  | .joinNew _ => []
  | .join _ _ _ _ => []
  | .leave _ => []
  | .bar _ => []
  | .fuse _ _ _ => []
  | .decouple _ => []
  | .rejoin _ d => [.s d.toNat]
  | .suspend _ d _ => [.s d.toNat]
  | .suspendComplete _ _ => []
  | .resume _ _ _ => []
  | .hamperLoadComplete _ _ => []
  | .hcopy _ d _ _ => [.s d.toNat]
  | .hcopyComplete _ _ => []
  | .hdiscard _ d _ => [.s d.toNat]
  | .trap _ _ _ => []
  | .gate _ _ => []
  | .rft _ _ => []
  | .rftN _ => []
  | .snapst _ _ _ _ => []
  | .snaprel _ => []
  | .step _ d _ _ => (stepDests d)
  | .add _ d _ _ _ => [.s d.toNat]
  | .addi _ d _ _ _ => [.s d.toNat]
  | .sub _ d _ _ _ => [.s d.toNat]
  | .mul _ d _ _ _ => [.s d.toNat]
  | .mulh _ d _ _ => [.s d.toNat]
  | .mulhu _ d _ _ => [.s d.toNat]
  | .div _ d _ _ => [.s d.toNat]
  | .divu _ d _ _ => [.s d.toNat]
  | .rem _ d _ _ => [.s d.toNat]
  | .remu _ d _ _ => [.s d.toNat]
  | .andS _ d _ _ => [.s d.toNat]
  | .andi _ d _ _ _ => [.s d.toNat]
  | .orS _ d _ _ => [.s d.toNat]
  | .ori _ d _ _ _ => [.s d.toNat]
  | .xorS _ d _ _ => [.s d.toNat]
  | .xori _ d _ _ _ => [.s d.toNat]
  | .andn _ d _ _ => [.s d.toNat]
  | .shl _ d _ _ => [.s d.toNat]
  | .shli _ d _ _ _ => [.s d.toNat]
  | .shr _ d _ _ => [.s d.toNat]
  | .shri _ d _ _ _ => [.s d.toNat]
  | .sar _ d _ _ => [.s d.toNat]
  | .sari _ d _ _ _ => [.s d.toNat]
  | .cmp _ d _ _ _ => [.g d.toNat]
  | .cmpi _ _ q _ _ _ => [.g q.toNat]
  | .sel _ d _ _ _ _ => [.s d.toNat]
  | .min _ d _ _ => [.s d.toNat]
  | .max _ d _ _ => [.s d.toNat]
  | .minu _ d _ _ => [.s d.toNat]
  | .maxu _ d _ _ => [.s d.toNat]
  | .clz _ d _ => [.s d.toNat]
  | .popc _ d _ => [.s d.toNat]
  | .bfx _ d _ _ _ => [.s d.toNat]
  | .bfi _ d _ _ _ => [.s d.toNat]
  | .li _ d _ _ => [.s d.toNat]
  | .lih _ d _ _ => [.s d.toNat]
  | .lea _ d _ _ _ => [.s d.toNat]
  | .addpc _ d _ _ => [.s d.toNat]
  | .gop _ d _ _ f => (if f = 9 then [.s d.toNat] else [.g d.toNat])
  | .movs _ d _ _ => [.s d.toNat]
  | .movz _ _ i kw => ([.sys (immU17 i kw)])
  | .fadd _ d _ _ _ => [.s d.toNat]
  | .fsub _ d _ _ _ => [.s d.toNat]
  | .fmul _ d _ _ _ => [.s d.toNat]
  | .fma _ d _ _ _ => [.s d.toNat]
  | .fmin _ d _ _ => [.s d.toNat]
  | .fmax _ d _ _ => [.s d.toNat]
  | .fcmp _ d _ _ _ => [.g d.toNat]
  | .fcvti _ d _ _ _ => [.s d.toNat]
  | .fcvtf _ d _ _ _ => [.s d.toNat]
  | .pairWord _ _ d _ _ _ x _ _ => ([.s d.toNat, .v x.toNat])
  | .vadd _ d _ _ _ _ _ _ => [.v d.toNat]
  | .vsub _ d _ _ _ _ _ _ => [.v d.toNat]
  | .vmul _ d _ _ _ _ _ => [.v d.toNat]
  | .vmulh _ d _ _ _ _ _ _ => [.v d.toNat]
  | .vmad _ d _ _ _ _ _ _ => [.v d.toNat]
  | .vand _ d _ _ _ _ _ => [.v d.toNat]
  | .vor _ d _ _ _ _ _ => [.v d.toNat]
  | .vxor _ d _ _ _ _ _ => [.v d.toNat]
  | .vshl _ d _ _ _ _ _ => [.v d.toNat]
  | .vshr _ d _ _ _ _ _ => [.v d.toNat]
  | .vsar _ d _ _ _ _ _ => [.v d.toNat]
  | .vmin _ d _ _ _ _ _ _ => [.v d.toNat]
  | .vmax _ d _ _ _ _ _ _ => [.v d.toNat]
  | .vabs _ d _ _ _ _ => [.v d.toNat]
  | .vcmp _ d _ _ _ _ _ => [.m d.toNat]
  | .vsel _ d _ _ _ _ => [.v d.toNat]
  | .vfadd _ d _ _ _ _ _ => [.v d.toNat]
  | .vfsub _ d _ _ _ _ _ => [.v d.toNat]
  | .vfmul _ d _ _ _ _ _ => [.v d.toNat]
  | .vfma _ d _ _ _ _ _ => [.v d.toNat]
  | .vfmin _ d _ _ _ _ => [.v d.toNat]
  | .vfmax _ d _ _ _ _ => [.v d.toNat]
  | .vfcmp _ d _ _ _ _ _ => [.m d.toNat]
  | .vrcp _ d _ _ _ => [.v d.toNat]
  | .vrsq _ d _ _ _ => [.v d.toNat]
  | .vexp2 _ d _ _ _ => [.v d.toNat]
  | .vlog2 _ d _ _ _ => [.v d.toNat]
  | .vcvt _ d _ _ _ _ => [.v d.toNat]
  | .vcvtWide _ d _ _ _ => [.v d.toNat]
  | .vqnt _ d _ _ _ _ _ => [.v d.toNat]
  | .vdqnt _ d _ _ _ _ _ => [.v d.toNat]
  | .vbsc _ d _ _ _ => [.v d.toNat]
  | .vperm _ d _ _ _ _ => [.v d.toNat]
  | .vbcast _ d _ _ _ _ _ => [.v d.toNat]
  | .vslide _ d _ _ _ => [.v d.toNat]
  | .vred _ d _ _ _ => [.v d.toNat]
  | .vscan _ d _ _ _ _ => [.v d.toNat]
  | .viota _ d _ _ _ => [.v d.toNat]
  | .vmop _ d _ _ _ => [.m d.toNat]
  | .vmpopPopc _ d _ => [.s d.toNat]
  | .vmpopFfs _ d _ => [.s d.toNat]
  | .vmpopGet _ d _ => [.s d.toNat]
  | .vmpopSet _ d _ => [.m d.toNat]
  | .vrng _ d _ _ _ => [.v d.toNat]
  | .vprune _ d _ _ _ _ => [.v d.toNat]
  | .vnm _ d _ b _ _ => [.v d.toNat, .m b.toNat]
  | .vmovs _ d _ _ _ => [.s d.toNat]
  | .vins _ d _ _ => [.v d.toNat]
  | .ldB _ d _ _ _ => [.s d.toNat]
  | .ldH _ d _ _ _ => [.s d.toNat]
  | .ldW _ d _ _ _ => [.s d.toNat]
  | .ldD _ d _ _ _ => [.s d.toNat]
  | .lduB _ d _ _ _ => [.s d.toNat]
  | .lduH _ d _ _ _ => [.s d.toNat]
  | .lduW _ d _ _ _ => [.s d.toNat]
  | .stB _ _ _ _ _ => []
  | .stH _ _ _ _ _ => []
  | .stW _ _ _ _ _ => []
  | .stD _ _ _ _ _ => []
  | .ldv _ d _ _ _ => [.v d.toNat]
  | .stv _ _ _ _ _ => []
  | .ldvs _ d _ _ _ _ => [.v d.toNat]
  | .stvs _ _ _ _ _ => []
  | .ldvx _ d _ _ _ _ => [.v d.toNat]
  | .stvx _ _ _ _ _ => []
  | .lda _ d _ _ _ _ => [.s d.toNat]
  | .sta _ _ _ _ _ _ => []
  | .amo _ d _ _ _ _ _ => [.s d.toNat]
  | .cas _ d _ _ _ _ _ => [.s d.toNat]
  | .vamo _ d _ _ _ _ => [.v d.toNat]
  | .fence _ _ _ => []
  | .tld _ _ _ _ _ _ _ => []
  | .tlda _ _ _ _ _ _ => []
  | .tst _ _ _ _ _ _ _ => []
  | .mcall _ _ _ _ _ _ _ => []
  | .mcallEngineStart _ => []
  | .mcallRetire _ => []
  | .routineStop _ _ => []
  | .msetp _ d _ _ _ => [.p d.toNat]
  | .mgetp _ d _ => [.s d.toNat]
  | .mclaim _ d _ _ => [.g d.toNat]
  | .mrel _ _ _ => []
  | .mzero _ _ _ _ _ _ _ => []
  | .mnorm _ _ _ _ _ _ => []
  | .mrdrow _ d _ _ _ _ => [.v d.toNat]
  | .mwrrow _ _ _ _ _ => []
  | .mcell _ _ _ _ => []
  | .mcellPre _ _ => []
  | .mflow _ _ _ _ _ _ => []
  | .mrout _ _ _ _ _ => []
  | .configCommandApply _ => []
  | .mtid _ _ _ => []
  | .mtidr _ d _ _ _ => [.s d.toNat]
  | .mdup _ _ _ _ _ _ => []
  | .tableCommandApply _ => []
  | .mcode _ _ _ _ => []
  | .mcodeFixed _ => []
  | .codeTableFlip _ => []
  | .mpred _ d _ _ f => (if f = 1 then [.s d.toNat] else if f = 7 then [.g d.toNat] else [.q d.toNat])
  | .mwait _ _ => []
  | .ysort _ d _ _ _ _ => [.v d.toNat, .v (d + 1).toNat]
  | .ymerge _ d _ _ _ _ _ => [.v d.toNat, .v (d + 1).toNat]
  | .ytopkInit _ _ _ _ => []
  | .ytopkAdd _ _ _ _ => []
  | .ytopkOut _ d a _ => [.v d.toNat, .v (d + 1).toNat] ++ (if a = 0 then [] else [.s a.toNat, .s (a + 1).toNat])
  | .ysums _ d _ _ _ _ _ => [.s d.toNat, .s (d + 1).toNat]
  | .yrank _ d _ _ _ => [.v d.toNat]
  | .ybkt _ d _ _ _ _ => [.v d.toNat]
  | .ycmpr _ d _ _ => [.v d.toNat]
  | .yexpd _ d _ _ _ => [.v d.toNat]
  | .yhist _ d _ _ _ _ => [.v d.toNat]
  | .yargx _ d _ _ _ _ => [.s d.toNat]
  | .cstage _ _ _ _ => ([.sys 0x014])
  | .carrive _ _ _ => []
  | .csched _ _ => ([.sys 0x014])
  | .rpush _ d _ _ => [.g d.toNat]
  | .rpushOpen _ d _ _ => [.g d.toNat]
  | .rpushClose _ d _ => [.g d.toNat]
  | .rpop _ d _ k => [.s d.toNat, .g k.toNat]
  | .rstat _ d _ k => [.s d.toNat, .g k.toNat]
  | .ringDeliveryLand _ _ => []
  | .mqsend _ d _ _ => [.g d.toNat]
  | .mqrecv _ d a _ k => [.v d.toNat, .s a.toNat, .g k.toNat]
  | .mqstat _ d _ => [.s d.toNat]
  | .queueEntryApply _ => []
  | .queueCreditReturn _ => []
  | .tsubmit _ d _ => [.s d.toNat]
  | .tsubmitRetry _ => []
  | .tsignal _ _ => []
  | .launch _ _ _ => []
  | .launchNb _ d _ _ => [.g d.toNat]
  | .pendingLaunchDrain _ => []
  | .fred _ _ _ _ => []
  | .sladd _ d _ _ => ([.g (gField d)])
  | .slsend _ d => [.s d.toNat]
  | .slrecv _ d _ => [.s d.toNat]
  | .bbmark _ _ _ _ _ => []
  | .pwrq _ d _ => [.s d.toNat]
  | .pwrres _ d _ => ([.g (gField d)])
  | .pwrresRel _ d => ([.g (gField d)])
  | .tlbi _ d _ _ => ([.g (gField d)])
  | .tlbiComplete _ => []
  | .selft _ d _ _ => [.s d.toNat]
  | .emptyBundle _ => []
  | .lineSkip => []
  | .lineFill _ => []
  | .asyncTrap _ => []
  | .yieldExpiry _ => []
  | .threadFree _ => []
  | .taskPlacement _ => []
  | .priorityAgeing _ _ => []
  | .reservationTaken _ => []
  | .readyQueueEntry _ => []
  | .stopLands _ => []
  | .stopRequestTimeout _ => []
  | .killRequeue _ _ => []
  | .checkpointWrite _ _ => []
  | .copyChunk _ _ => []
  | .copyEntryComplete _ _ => []
  | .copyEntryStop _ _ => []
  | .translationWalk _ => []
  | .packageReset _ => []
  | .attestationQuote _ => []
  | .keySlotWrite _ _ => []
  | .packetIngress _ => []
  | .hubRegisterWrite _ => []
  | .grantWrite _ => []
  | .energySample _ => []
  | .energyInterval => []
  | .selfTestVerdict _ _ => []
  | .blackBoxClear _ _ _ => []
  | .fatalHardwareEvent _ _ _ _ => []
  | .flitCrcFail _ _ => []
  | .laneOutOfService _ _ => []
  | .linkDown _ => []
  | .packetRoute _ _ => []
  | .escapeMove _ => []
  | .fabricPacketSend _ => []
  | .creditRequest _ => []
  | .creditGrant _ _ => []
  | .creditExpiry _ => []
  | .ackReceive _ _ => []
  | .writePlace _ => []
  | .fredApply _ => []
  | .tokenPlace _ => []
  | .flushComplete => []
  | .coordinatorGo => []
  | .harvestApply => []
  | .boundaryComplete => []
  | .stepSkew => []
  | .declareFailed _ => []
  | .failedNotice _ => []
  | .fixedLatencyWriteLands _ => []
  | .accessPerformsAtHome _ => []
  | .matrixCommandEngineApply _ => []
  | .dieEngineCommandApply _ => []
  | .thermalWarning _ _ => []
  | .systemCoreLineWriteback _ _ => []
  | .decodeCheckTrap _ _ _ => []

/-- The guard of an operation (R39); an event has none. -/
def guardOfInstr (i : Instr) : Option Guard :=
  match i with
  | .nop gd => some gd
  | .br gd _ _ => some gd
  | .jmp gd _ => some gd
  | .call gd _ _ => some gd
  | .callr gd _ _ => some gd
  | .ret gd _ => some gd
  | .loop gd _ _ _ => some gd
  | .loopr gd _ _ _ => some gd
  | .lbrk gd _ => some gd
  | .endThread gd => some gd
  | .yield gd _ => some gd
  | .await gd _ _ _ _ => some gd
  | .joinNew gd => some gd
  | .join gd _ _ _ => some gd
  | .leave gd => some gd
  | .bar gd => some gd
  | .fuse gd _ _ => some gd
  | .decouple gd => some gd
  | .rejoin gd _ => some gd
  | .suspend gd _ _ => some gd
  | .suspendComplete _ _ => none
  | .resume gd _ _ => some gd
  | .hamperLoadComplete _ _ => none
  | .hcopy gd _ _ _ => some gd
  | .hcopyComplete _ _ => none
  | .hdiscard gd _ _ => some gd
  | .trap gd _ _ => some gd
  | .gate gd _ => some gd
  | .rft gd _ => some gd
  | .rftN gd => some gd
  | .snapst gd _ _ _ => some gd
  | .snaprel gd => some gd
  | .step gd _ _ _ => some gd
  | .add gd _ _ _ _ => some gd
  | .addi gd _ _ _ _ => some gd
  | .sub gd _ _ _ _ => some gd
  | .mul gd _ _ _ _ => some gd
  | .mulh gd _ _ _ => some gd
  | .mulhu gd _ _ _ => some gd
  | .div gd _ _ _ => some gd
  | .divu gd _ _ _ => some gd
  | .rem gd _ _ _ => some gd
  | .remu gd _ _ _ => some gd
  | .andS gd _ _ _ => some gd
  | .andi gd _ _ _ _ => some gd
  | .orS gd _ _ _ => some gd
  | .ori gd _ _ _ _ => some gd
  | .xorS gd _ _ _ => some gd
  | .xori gd _ _ _ _ => some gd
  | .andn gd _ _ _ => some gd
  | .shl gd _ _ _ => some gd
  | .shli gd _ _ _ _ => some gd
  | .shr gd _ _ _ => some gd
  | .shri gd _ _ _ _ => some gd
  | .sar gd _ _ _ => some gd
  | .sari gd _ _ _ _ => some gd
  | .cmp gd _ _ _ _ => some gd
  | .cmpi gd _ _ _ _ _ => some gd
  | .sel gd _ _ _ _ _ => some gd
  | .min gd _ _ _ => some gd
  | .max gd _ _ _ => some gd
  | .minu gd _ _ _ => some gd
  | .maxu gd _ _ _ => some gd
  | .clz gd _ _ => some gd
  | .popc gd _ _ => some gd
  | .bfx gd _ _ _ _ => some gd
  | .bfi gd _ _ _ _ => some gd
  | .li gd _ _ _ => some gd
  | .lih gd _ _ _ => some gd
  | .lea gd _ _ _ _ => some gd
  | .addpc gd _ _ _ => some gd
  | .gop gd _ _ _ _ => some gd
  | .movs gd _ _ _ => some gd
  | .movz gd _ _ _ => some gd
  | .fadd gd _ _ _ _ => some gd
  | .fsub gd _ _ _ _ => some gd
  | .fmul gd _ _ _ _ => some gd
  | .fma gd _ _ _ _ => some gd
  | .fmin gd _ _ _ => some gd
  | .fmax gd _ _ _ => some gd
  | .fcmp gd _ _ _ _ => some gd
  | .fcvti gd _ _ _ _ => some gd
  | .fcvtf gd _ _ _ _ => some gd
  | .pairWord gd _ _ _ _ _ _ _ _ => some gd
  | .vadd gd _ _ _ _ _ _ _ => some gd
  | .vsub gd _ _ _ _ _ _ _ => some gd
  | .vmul gd _ _ _ _ _ _ => some gd
  | .vmulh gd _ _ _ _ _ _ _ => some gd
  | .vmad gd _ _ _ _ _ _ _ => some gd
  | .vand gd _ _ _ _ _ _ => some gd
  | .vor gd _ _ _ _ _ _ => some gd
  | .vxor gd _ _ _ _ _ _ => some gd
  | .vshl gd _ _ _ _ _ _ => some gd
  | .vshr gd _ _ _ _ _ _ => some gd
  | .vsar gd _ _ _ _ _ _ => some gd
  | .vmin gd _ _ _ _ _ _ _ => some gd
  | .vmax gd _ _ _ _ _ _ _ => some gd
  | .vabs gd _ _ _ _ _ => some gd
  | .vcmp gd _ _ _ _ _ _ => some gd
  | .vsel gd _ _ _ _ _ => some gd
  | .vfadd gd _ _ _ _ _ _ => some gd
  | .vfsub gd _ _ _ _ _ _ => some gd
  | .vfmul gd _ _ _ _ _ _ => some gd
  | .vfma gd _ _ _ _ _ _ => some gd
  | .vfmin gd _ _ _ _ _ => some gd
  | .vfmax gd _ _ _ _ _ => some gd
  | .vfcmp gd _ _ _ _ _ _ => some gd
  | .vrcp gd _ _ _ _ => some gd
  | .vrsq gd _ _ _ _ => some gd
  | .vexp2 gd _ _ _ _ => some gd
  | .vlog2 gd _ _ _ _ => some gd
  | .vcvt gd _ _ _ _ _ => some gd
  | .vcvtWide gd _ _ _ _ => some gd
  | .vqnt gd _ _ _ _ _ _ => some gd
  | .vdqnt gd _ _ _ _ _ _ => some gd
  | .vbsc gd _ _ _ _ => some gd
  | .vperm gd _ _ _ _ _ => some gd
  | .vbcast gd _ _ _ _ _ _ => some gd
  | .vslide gd _ _ _ _ => some gd
  | .vred gd _ _ _ _ => some gd
  | .vscan gd _ _ _ _ _ => some gd
  | .viota gd _ _ _ _ => some gd
  | .vmop gd _ _ _ _ => some gd
  | .vmpopPopc gd _ _ => some gd
  | .vmpopFfs gd _ _ => some gd
  | .vmpopGet gd _ _ => some gd
  | .vmpopSet gd _ _ => some gd
  | .vrng gd _ _ _ _ => some gd
  | .vprune gd _ _ _ _ _ => some gd
  | .vnm gd _ _ _ _ _ => some gd
  | .vmovs gd _ _ _ _ => some gd
  | .vins gd _ _ _ => some gd
  | .ldB gd _ _ _ _ => some gd
  | .ldH gd _ _ _ _ => some gd
  | .ldW gd _ _ _ _ => some gd
  | .ldD gd _ _ _ _ => some gd
  | .lduB gd _ _ _ _ => some gd
  | .lduH gd _ _ _ _ => some gd
  | .lduW gd _ _ _ _ => some gd
  | .stB gd _ _ _ _ => some gd
  | .stH gd _ _ _ _ => some gd
  | .stW gd _ _ _ _ => some gd
  | .stD gd _ _ _ _ => some gd
  | .ldv gd _ _ _ _ => some gd
  | .stv gd _ _ _ _ => some gd
  | .ldvs gd _ _ _ _ _ => some gd
  | .stvs gd _ _ _ _ => some gd
  | .ldvx gd _ _ _ _ _ => some gd
  | .stvx gd _ _ _ _ => some gd
  | .lda gd _ _ _ _ _ => some gd
  | .sta gd _ _ _ _ _ => some gd
  | .amo gd _ _ _ _ _ _ => some gd
  | .cas gd _ _ _ _ _ _ => some gd
  | .vamo gd _ _ _ _ _ => some gd
  | .fence gd _ _ => some gd
  | .tld gd _ _ _ _ _ _ => some gd
  | .tlda gd _ _ _ _ _ => some gd
  | .tst gd _ _ _ _ _ _ => some gd
  | .mcall gd _ _ _ _ _ _ => some gd
  | .mcallEngineStart _ => none
  | .mcallRetire _ => none
  | .routineStop _ _ => none
  | .msetp gd _ _ _ _ => some gd
  | .mgetp gd _ _ => some gd
  | .mclaim gd _ _ _ => some gd
  | .mrel gd _ _ => some gd
  | .mzero gd _ _ _ _ _ _ => some gd
  | .mnorm gd _ _ _ _ _ => some gd
  | .mrdrow gd _ _ _ _ _ => some gd
  | .mwrrow gd _ _ _ _ => some gd
  | .mcell gd _ _ _ => some gd
  | .mcellPre gd _ => some gd
  | .mflow gd _ _ _ _ _ => some gd
  | .mrout gd _ _ _ _ => some gd
  | .configCommandApply _ => none
  | .mtid gd _ _ => some gd
  | .mtidr gd _ _ _ _ => some gd
  | .mdup gd _ _ _ _ _ => some gd
  | .tableCommandApply _ => none
  | .mcode gd _ _ _ => some gd
  | .mcodeFixed gd => some gd
  | .codeTableFlip _ => none
  | .mpred gd _ _ _ _ => some gd
  | .mwait gd _ => some gd
  | .ysort gd _ _ _ _ _ => some gd
  | .ymerge gd _ _ _ _ _ _ => some gd
  | .ytopkInit gd _ _ _ => some gd
  | .ytopkAdd gd _ _ _ => some gd
  | .ytopkOut gd _ _ _ => some gd
  | .ysums gd _ _ _ _ _ _ => some gd
  | .yrank gd _ _ _ _ => some gd
  | .ybkt gd _ _ _ _ _ => some gd
  | .ycmpr gd _ _ _ => some gd
  | .yexpd gd _ _ _ _ => some gd
  | .yhist gd _ _ _ _ _ => some gd
  | .yargx gd _ _ _ _ _ => some gd
  | .cstage gd _ _ _ => some gd
  | .carrive gd _ _ => some gd
  | .csched gd _ => some gd
  | .rpush gd _ _ _ => some gd
  | .rpushOpen gd _ _ _ => some gd
  | .rpushClose gd _ _ => some gd
  | .rpop gd _ _ _ => some gd
  | .rstat gd _ _ _ => some gd
  | .ringDeliveryLand _ _ => none
  | .mqsend gd _ _ _ => some gd
  | .mqrecv gd _ _ _ _ => some gd
  | .mqstat gd _ _ => some gd
  | .queueEntryApply _ => none
  | .queueCreditReturn _ => none
  | .tsubmit gd _ _ => some gd
  | .tsubmitRetry _ => none
  | .tsignal gd _ => some gd
  | .launch gd _ _ => some gd
  | .launchNb gd _ _ _ => some gd
  | .pendingLaunchDrain _ => none
  | .fred gd _ _ _ => some gd
  | .sladd gd _ _ _ => some gd
  | .slsend gd _ => some gd
  | .slrecv gd _ _ => some gd
  | .bbmark gd _ _ _ _ => some gd
  | .pwrq gd _ _ => some gd
  | .pwrres gd _ _ => some gd
  | .pwrresRel gd _ => some gd
  | .tlbi gd _ _ _ => some gd
  | .tlbiComplete _ => none
  | .selft gd _ _ _ => some gd
  | .emptyBundle _ => none
  | .lineSkip => none
  | .lineFill _ => none
  | .asyncTrap _ => none
  | .yieldExpiry _ => none
  | .threadFree _ => none
  | .taskPlacement _ => none
  | .priorityAgeing _ _ => none
  | .reservationTaken _ => none
  | .readyQueueEntry _ => none
  | .stopLands _ => none
  | .stopRequestTimeout _ => none
  | .killRequeue _ _ => none
  | .checkpointWrite _ _ => none
  | .copyChunk _ _ => none
  | .copyEntryComplete _ _ => none
  | .copyEntryStop _ _ => none
  | .translationWalk _ => none
  | .packageReset _ => none
  | .attestationQuote _ => none
  | .keySlotWrite _ _ => none
  | .packetIngress _ => none
  | .hubRegisterWrite _ => none
  | .grantWrite _ => none
  | .energySample _ => none
  | .energyInterval => none
  | .selfTestVerdict _ _ => none
  | .blackBoxClear _ _ _ => none
  | .fatalHardwareEvent _ _ _ _ => none
  | .flitCrcFail _ _ => none
  | .laneOutOfService _ _ => none
  | .linkDown _ => none
  | .packetRoute _ _ => none
  | .escapeMove _ => none
  | .fabricPacketSend _ => none
  | .creditRequest _ => none
  | .creditGrant _ _ => none
  | .creditExpiry _ => none
  | .ackReceive _ _ => none
  | .writePlace _ => none
  | .fredApply _ => none
  | .tokenPlace _ => none
  | .flushComplete => none
  | .coordinatorGo => none
  | .harvestApply => none
  | .boundaryComplete => none
  | .stepSkew => none
  | .declareFailed _ => none
  | .failedNotice _ => none
  | .fixedLatencyWriteLands _ => none
  | .accessPerformsAtHome _ => none
  | .matrixCommandEngineApply _ => none
  | .dieEngineCommandApply _ => none
  | .thermalWarning _ _ => none
  | .systemCoreLineWriteback _ _ => none
  | .decodeCheckTrap _ _ _ => none

end Sys2Proof.Machine
end

