-- ==== Sys2Proof/Machine/Issue.lean ====
section
/-! DEFINITION. The issue of one bundle: who may issue, fetch, the checks in the order of R49, the operations, and the machine after
the bundle (R21, R29 to R31, R49 to R55, R289, R290). -/

namespace Sys2Proof.Machine

open Sys2Proof

/-! ## Operations of a bundle -/

/-- The operation stands in the C slot. -/
def inC (i : Instr) : Bool := slotOf i == some .C

/-- The presence bit of an operation (Table 2-1); 7 where a bundle has none (R35). -/
def slotBit (i : Instr) : Nat :=
  match slotOf i with
  | some sl => sl.bit
  | none => 7

/-- One operation acts on thread `tid`, reading the registers of `src`. -/
def State.runOp (s : State) (tid src : Nat) (i : Instr) : State :=
  match exec i { s with cur := { s.cur with tid := tid, src := src, slot := slotBit i } } with
  | .next s' => s'
  | _ => s

/-- Operations act in order, up to the first that traps or is held. -/
def State.runOps (s : State) (tid src : Nat) : List Instr → State
  | [] => s
  | i :: is =>
    let s' := s.runOp tid src i
    if s'.cur.out = .ok then s'.runOps tid src is else s'

/-- A fold over the participants, up to the first that does not go well. -/
def State.eachPart (s : State) (f : State → Nat → State) : List Nat → State
  | [] => s
  | p :: ps =>
    let s' := f s p
    if s'.cur.out = .ok then s'.eachPart f ps else s'

/-- The operations of a bundle on its participants, ascending (R289): the C slot is tried first, since its traps come first (R49), and acts
last, since every slot reads the state before the bundle (R40); on the leader last of all, since every participant reads the leader's loops as
they stood (R102). -/
def State.runBundle (s : State) (lead : Nat) (parts : List Nat) (ops : List Instr) : State :=
  let cs := ops.filter inC
  let rest := ops.filter (fun i => !inC i)
  let s := s.eachPart (fun s p =>
    let tried := s.runOps p lead cs
    if tried.cur.out = .ok then s.runOps p p rest else tried) parts
  if s.cur.out = .ok then s.eachPart (fun s p => s.runOps p lead cs) parts.reverse else s

/-! ## Interlocks and the checks before execution -/

/-- An interlocked write of the register has not landed (R52); one that has come and waits to land counts. -/
def Thread.awaits (t : Thread) (d : Dest) : Bool := t.locked d || t.due.any (fun f => f.dest == d)

/-- A fixed-latency write of the register is in flight (R51). -/
def Thread.inFlight (t : Thread) (d : Dest) : Bool := t.flight.any (fun f => f.dest == d)

/-- The operation's guard is true for a thread (R39). -/
def Thread.acts (t : Thread) (i : Instr) : Bool :=
  match guardOfInstr i with
  | some gd => t.greg gd.reg.toNat != gd.neg
  | none => true

/-- The guard register an operation reads. -/
def guardRegs (i : Instr) : List Dest :=
  match guardOfInstr i with
  | some gd => [.g gd.reg.toNat]
  | none => []

/-- The thread whose registers an operation of participant `p` reads (R289). -/
def State.reader (s : State) (lead p : Nat) (i : Instr) : Thread := s.thread (if inC i then lead else p)

/-- An interlock holds an operation of participant `p` (R52). -/
def State.opLocked (s : State) (lead p : Nat) (i : Instr) : Bool :=
  let r := s.reader lead p i
  (guardRegs i).any r.awaits || (r.acts i && ((readsOf r i).any r.awaits || (writesOf i).any (s.thread p).awaits))

/-- The operation uses the load/store unit's issue position. -/
def usesUnit (i : Instr) : Bool :=
  match i with
  | .fred _ _ _ _ => true
  | .tlbi _ _ _ _ => true
  | _ => slotOf i == some .L

/-- An earlier store of participant `p` keeps an operation from the load/store unit (R272, R406). -/
def State.opBehind (s : State) (lead p : Nat) (i : Instr) : Bool :=
  usesUnit i && (s.reader lead p i).acts i && (s.thread p).memQ.any (fun a => a.holdsUnit s.cycle)

/-- STALL_SHORT (R55): a register the operation reads has a fixed-latency write pending. -/
def State.opShort (s : State) (lead p : Nat) (i : Instr) : Bool :=
  let r := s.reader lead p i
  r.ctl.stallchk == 1 && ((guardRegs i).any r.inFlight || (r.acts i && (readsOf r i).any r.inFlight))

/-- The engine that PRIVILEGED records for an operation a thread at T may not use, whatever its guard (R18, R39, Table 1-7). -/
def State.opDenied (s : State) (p : Nat) (i : Instr) : Option Nat :=
  if (s.thread p).atF then none
  else
    match i with
    | .rft _ _ => some 0
    | .rftN _ => some 0
    | .snapst _ _ _ _ => some 0
    | .snaprel _ => some 0
    | .tlbi _ _ _ _ => some 6
    | .selft _ _ _ _ => some 6
    | .movs _ _ n kw => match sysRegInfo (immU17 n kw) with | some r => if r.atT then none else some 0 | none => none
    | .movz _ _ n kw => match sysRegInfo (immU17 n kw) with | some r => if r.atT then none else some 0 | none => none
    | _ => none

/-- The C-slot instructions R289 does not allow in lock step. -/
def barredInLock (i : Instr) : Bool :=
  match i with
  | .join _ _ _ _ => true
  | .joinNew _ => true
  | .leave _ => true
  | .suspend _ _ _ => true
  | .resume _ _ _ => true
  | .hcopy _ _ _ _ => true
  | .hdiscard _ _ _ => true
  | .trap _ _ _ => true
  | .gate _ _ => true
  | .snapst _ _ _ _ => true
  | .snaprel _ => true
  | .rft _ _ => true
  | .rftN _ => true
  | .step _ _ _ _ => true
  | .fuse _ _ _ => true
  | _ => false

/-- A GATE, which is illegal at F whatever its guard (R255). -/
def isGate (i : Instr) : Bool :=
  match i with
  | .gate _ _ => true
  | _ => false

/-- The trap a participant's bundle takes by its encoding and the thread's level alone (R49): a GATE at F, or PRIVILEGED. -/
def State.levelTrap (s : State) (p : Nat) (ops : List Instr) : Option TrapInfo :=
  if (s.thread p).atF ∧ ops.any isGate then some (trapInfo .illegalOp 0 (BitVec.ofNat 64 (0x17 * 16)))
  else (ops.findSome? (s.opDenied p)).map (trapInfo .privileged)

/-- The engine that carries out a barred instruction: a STEP's is engine 7, and a hamper instruction's engine 6 (Table 1-7, R356, R411). -/
def barredEngine (i : Instr) : Nat :=
  match i with
  | .step _ _ _ _ => 7
  | .suspend _ _ _ => 6
  | .resume _ _ _ => 6
  | .hcopy _ _ _ _ => 6
  | .hdiscard _ _ _ => 6
  | _ => 5

/-- A C-slot instruction barred in lock step: the leader takes the trap (R289). -/
def State.lockTrap (s : State) (lead : Nat) (locked : Bool) (ops : List Instr) : Option TrapInfo :=
  if locked then (ops.find? (fun i => barredInLock i && (s.thread lead).acts i)).map (fun i => trapInfo .queueMisuse (barredEngine i) 0x14) else none

/-- The lowest participant whose bundle reads too early (R55). -/
def State.shortAt (s : State) (lead : Nat) (parts : List Nat) (ops : List Instr) : Option Nat := parts.find? (fun p => ops.any (s.opShort lead p))

/-- A participant stands no later than another in the order in which they are tried. -/
def upTo (parts : List Nat) (a b : Nat) : Bool := decide (parts.idxOf a ≤ parts.idxOf b)

/-! ## Traps at issue -/

/-- The byte an UNCORRECTABLE_MEMORY names, by its place. -/
def State.errorKey (s : State) (tid va : Nat) (fetch : Bool) : Option Nat :=
  let t := s.thread tid
  if fetch ∧ t.atF then some (storePlace (dieOf tid) va)
  else if fetch then (s.tlbFind (coreOf tid) t.dom va).map (fun l => l.pa + (va - l.va))
  else
    match s.locate tid t .read none 0 va with
    | .ok p => some p.key
    | _ => none

/-- The error a trap reports starts the test of its unit (R388). -/
def State.reportError (s : State) (tid : Nat) (i : TrapInfo) : State :=
  if i.cause = .uncorrectableMemory then
    match s.errorKey tid i.badaddr.toNat (i.engine == 0) with
    | some k => s.memError 0x0101 k tid (s.thread tid).dom.toNat
    | none => s
  else if i.cause = .engineDataError ∧ i.engine = 3 then s.startTest (3 * 2 ^ 20 + coreOf tid)
  else s

/-- A participant's bundle at `pc` traps at issue: the bundle has no effect, and the trap is taken; or the bundle is held while another thread's
snapshot masks the trap (R249), and its translations are made afresh. The second value says whether the trap was taken. -/
def State.trapAt (s : State) (tid : Nat) (pc : VAddr) (i : TrapInfo) : State × Bool :=
  let s := s.updThread tid (fun t => { t with walked := [] })
  if s.masked tid then (s, false) else ((s.reportError tid i).takeTrap tid i pc, true)

/-- A TLD has met an error of its slot, and no other thread's snapshot masks its trap: the slot is cleared, the test of the core's operand memory starts, and
the trap is taken (R190, R388). -/
def State.spoilAt (s : State) (tid slot : Nat) (i : TrapInfo) (pc : VAddr) : State :=
  let s := s.updThread tid (fun t => { t with walked := [] })
  ((s.clearSlot (coreOf tid) slot).startTest (2 * 2 ^ 20 + coreOf tid)).takeTrap tid i pc

/-! ## After the bundle -/

/-- Corrected errors of the words the bundle's accesses read (R166): each is reported, and its unit tested. -/
def State.noteCorrected (s : State) (tid : Nat) : State :=
  let t := s.thread tid
  if s.ecc = [] then s else s.corrected tid t.dom.toNat ((t.memQ.filter (fun a => a.ord == t.ord)).flatMap (fun a => a.op.reads))

/-- The bundle has issued for a participant (R34, R50): fetch moves to the C slot's target or falls through, and the next bundle waits for the
stall count, and two cycles more after a transfer. -/
def State.afterIssue (s : State) (p : Nat) : State :=
  let c := s.cur
  let s := match c.target with
    | some a => s.updThread p (fun t => { t with pc := a, edge := none })
    | none => s.fallThrough p c.pc c.next
  (s.updThread p (fun t =>
    { t with walked := [], ready := max t.ready (s.cycle + 1 + c.stall + (if c.transfer then 2 else 0)),
             back := if t.wait.isSome ∨ t.xwait.isSome then t.back else none })).noteCorrected p

/-- The bundle at `pc` issues, or traps, or is held: what it comes to, and whether it used the core's issue of the cycle. Of several participants
that trap, the lowest takes the trap (R289). A bundle that is held reads nothing in that cycle, so that STALL_SHORT comes after a hold, but before a
walk for an address that has been read (R49, R55; log entry 67). -/
def State.issueBundle (s : State) (lead : Nat) (parts : List Nat) (locked : Bool) (pc : VAddr) (b : Bundle) : State × Bool :=
  if parts.any (fun p => b.ops.any (fun i => s.opLocked lead p i || s.opBehind lead p i)) then (s, false)
  else
    let short := s.shortAt lead parts b.ops
    match parts.findSome? (fun p => (s.levelTrap p b.ops).map (fun i => (p, i))), s.lockTrap lead locked b.ops with
    | some (p, i), _ => s.trapAt p pc i
    | none, some i => s.trapAt lead pc (if short = some lead then trapInfo .stallShort 0 else i)
    | none, none =>
      let s0 := parts.foldl (fun s p => s.updThread p (fun t => { t with ord := t.ord + 1 }))
        { s with cur := ⟨lead, lead, pc, BitVec.ofNat 48 (pc.toNat + b.len), 0, b.stall, none, false, .ok⟩ }
      let s1 := s0.runBundle lead parts b.ops
      match (short.filter (fun p => s1.cur.out != .held && (s1.cur.out == .ok || upTo parts p s1.cur.tid))), s1.cur.out with
      | some p, _ => s.trapAt p pc (trapInfo .stallShort 0)
      | none, .ok => (parts.foldl State.afterIssue s1, true)
      | none, .trapped i => s.trapAt s1.cur.tid pc i
      | none, .spoiled o i => (s.spoilAt s1.cur.tid o i pc, true)
      | none, .held => (s.updThread s1.cur.tid (fun t => { t with walked := [] }), false)
      | none, .walk dom page => (s.wantWalk s1.cur.tid dom page, false)
      | none, .line va => (s.updThread s1.cur.tid (fun t => { t with want := some ((t.want.filter (fun w => w.1 == va)).getD (va, s.cycle + 320)) }), false)

/-! ## Fetch -/

/-- The line of the thread's fetch has just been used (R21). -/
def State.touchLine (s : State) (tid va : Nat) : State :=
  let t := s.thread tid
  if t.atF then s
  else s.updCore (coreOf tid) (fun c => { c with istore := c.istore.map (fun l =>
    if l.dom = t.dom ∧ l.va = va / 64 * 64 then { l with stamp := s.cycle } else l) })

/-- The line-skips that stand before the next bundle take no cycle (R36). -/
def State.skipLines (s : State) (tid : Nat) : Nat → State
  | 0 => s
  | n + 1 =>
    let t := s.thread tid
    match s.fetch tid t t.pc.toNat with
    | .bytes bs =>
      if leNat (bs.take 2) = 0x8000 then
        (match exec .lineSkip { s with cur := { s.cur with tid := tid, src := tid, pc := t.pc } } with
          | .next s' => s'
          | _ => s).skipLines tid n
      else s
    | _ => s

/-- A GATE at F in the C slot is the first ILLEGAL_OP of its bundle (R48, R255). -/
def gateFirst (bs : List Byte) : Bool :=
  let n := leNat bs
  (n.testBit 0) && (match decodeSlot .C (n / 2 ^ 16 % 2 ^ 32) none with | some (.gate _ _) => true | _ => false)

/-- The record of a bundle the decoder rejects (R37, R48). -/
def State.decodeTrap (s : State) (tid : Nat) (bs : List Byte) (e : DecodeError) : TrapInfo :=
  let gate : Bool := (s.thread tid).atF && (match e with | .illegalOp _ _ _ _ => gateFirst bs | _ => false)
  if gate then trapInfo .illegalOp 0 (BitVec.ofNat 64 (0x17 * 16)) else trapInfo e.cause e.engine.toNat e.estat

/-- The other participants follow the leader's program counter and loops (R288, R289). -/
def State.follow (s : State) (lead : Nat) (parts : List Nat) : State :=
  let l := s.thread lead
  (parts.filter (· != lead)).foldl (fun s p => s.updThread p (fun t => { t with pc := l.pc, loops := l.loops })) s

/-- Resident firmware acts for a thread, in place of a bundle at its program counter: it uses the core's issue of the cycle, or is held (R254, R260). -/
def State.runFirmware (s : State) (tid : Nat) (f : State → State) : State × Bool :=
  let pc := (s.thread tid).pc
  let s1 := f { s.updThread tid (fun t => { t with ord := t.ord + 1 }) with cur := ⟨tid, tid, pc, pc + 64, 7, 0, none, false, .ok⟩ }
  match s1.cur.out with
  | .ok => (s1.afterIssue tid, true)
  | .trapped i => s.trapAt tid pc i
  | _ => (s, false)

/-- A sequencer tries to issue its next bundle, alone or leading its set in lock step. -/
def State.tryIssue (s : State) (lead : Nat) (parts : List Nat) (locked : Bool) : State × Bool :=
  match s.resident lead with
  | some f => s.runFirmware lead f
  | none =>
  let s := (s.skipLines lead 4097).follow lead parts
  let t := s.thread lead
  match s.fetch lead t t.pc.toNat with
  | .walk page => (s.wantWalk lead t.dom page, false)
  | .fill line => (s.updThread lead (fun t => { t with want := some ((t.want.filter (fun w => w.1 == line)).getD (line, s.cycle + 320)) }), false)
  | .fault i => s.trapAt lead t.pc i
  | .bytes bs =>
    let s := s.touchLine lead t.pc.toNat
    match decodeBundle bs with
    | .error e => s.trapAt lead t.pc (s.decodeTrap lead bs e)
    | .ok b => if b.ops = [.lineSkip] then (s, false) else s.issueBundle lead parts locked t.pc b

/-! ## Who may issue (R29, R249, R263, R287, R288) -/

/-- The sequencer may issue: its thread is RUNNING or TRAPPED, its stall count has elapsed, no stop holds it, no pending fault waits for another
thread's snapshot, and the hub has applied its atomics (R314, Table 14-4). -/
def State.canRun (s : State) (tid : Nat) : Bool :=
  let t := s.thread tid
  let holds := match (s.core (coreOf tid)).snap with | some sn => sn.tid == tid | none => false
  (t.st == .running || t.st == .trapped) && !t.paused && decide (t.ready ≤ s.cycle) && !s.stopHolds tid && (t.faults == [] || holds) &&
    !(s.core (coreOf tid)).halted && decide ((s.core (coreOf tid)).openAt ≤ s.cycle) && !t.memQ.any (fun a => a.op.atHub)

/-- The set a core belongs to as a participant's core. -/
def State.setOfCore (s : State) (core : Nat) : Option FuseSet :=
  (s.cluster (core / 8)).sets.find? (fun f => f.parts.any (fun p => p.1 == core % 8))

/-- The participants a sequencer issues for, and whether in lock step; `none` where it may not issue. -/
def State.issuers (s : State) (tid : Nat) : Option (List Nat × Bool) :=
  if ¬ s.canRun tid then none
  else
    match s.setOfCore (coreOf tid) with
    | none => some ([tid], false)
    | some f =>
      let parts := f.inLock.map Prod.snd
      if ¬ f.parts.any (fun p => p.2 == tid) then none
      else if f.lock ∧ parts.contains tid then
        if parts.head? = some tid ∧ parts.all (fun p => s.canRun p && (s.thread p).st == .running && (s.thread p).faults == []) then some (parts, true)
        else none
      else if f.formed ∧ (s.thread tid).st = .running ∧ tget false f.high (coreOf tid % 8) then none
      else some ([tid], false)

/-! ## One cycle of a core -/

/-- The first sequencer of the round-robin order that traps or issues has the cycle's issue (R29); what it was, if any. -/
def State.tryEach (s : State) (core : Nat) : List Nat → State × Option Nat
  | [] => (s, none)
  | k :: ks =>
    match s.issuers (4 * core + k) with
    | none => s.tryEach core ks
    | some (parts, locked) =>
      let (s', used) := s.tryIssue (4 * core + k) parts locked
      if used then (parts.foldl (fun s p => s.updCore (coreOf p) (fun c => { c with last := p % 4 })) s', some k) else s'.tryEach core ks

/-- Sequencers of a core with a pending asynchronous fault. -/
def State.faulted (s : State) (core : Nat) : List Nat := (List.range 4).filter (fun k => (s.thread (4 * core + k)).faults != [])

/-- The asynchronous faults of a core's threads are delivered (R246). -/
def State.deliverAll (s : State) (core : Nat) : State :=
  (s.faulted core).foldl (fun s k =>
    match exec (.asyncTrap (4 * core + k)) s with
    | .next s' => s'
    | _ => s) s

/-- A core's cycle: its pending faults are delivered and one bundle issues. Of two sequencers that trap, the lower takes the snapshot (R249). -/
def State.issueCore (s : State) (core : Nat) : State :=
  let s := s.updCore core (fun c => { c with tried := s.cycle + 1 })
  let order := (List.range 4).map (fun i => ((s.core core).last + 1 + i) % 4)
  match (s.faulted core).head? with
  | none => (s.tryEach core order).1
  | some j =>
    let (s1, who) := s.tryEach core order
    let lower : Bool := match who with | some k => decide (k < j) && (s1.thread (4 * core + k)).st == .trapped | none => false
    if lower then s1.deliverAll core else ((s.deliverAll core).tryEach core order).1

/-- The cores that have not tried in this cycle and have a thread that may act, ascending. -/
def State.untried (s : State) : List Nat :=
  ((s.threads.filter (fun e =>
    (e.2.st == .running || e.2.st == .trapped || e.2.faults != []) && (decide (e.2.ready ≤ s.cycle) || e.2.faults != []) &&
      (s.core (coreOf e.1)).tried != s.cycle + 1)).map (fun e => coreOf e.1)).eraseDups

/-- The rank of an access in its bank's order within a cycle (R184, R306): updates of completion objects; atomics of the own core, and of the own die at its
shared memory; the other atomics; plain accesses. -/
def MemOp.rank (o : MemOp) : Nat :=
  match o, o.atomPlace with
  | .carrive _ _, _ => 0
  | _, none => 3
  | _, some p => match p.home with | .die false => 2 | .hbm => 2 | .peer _ => 2 | _ => 1

/-- Some word of a byte range lies in a unit. -/
def inUnit (u : Nat) (a : Nat × Nat × Bool) : Bool := (List.range ((a.1 % 4 + a.2.1 + 3) / 4)).any (fun i => unitOf (a.1 / 4 * 4 + 4 * i) == u)

/-- Two byte ranges reach one bank. -/
def sameBank (a b : Nat × Nat × Bool) : Bool := (List.range ((b.1 % 4 + b.2.1 + 3) / 4)).any (fun i => inUnit (unitOf (b.1 / 4 * 4 + 4 * i)) a)

/-- What a core comes to in this cycle: the accesses that it issues, and whether it issues a JOIN, one that traps GROUP included. -/
structure Turn where
  core : Nat
  ops : List MemOp
  joins : Bool

/-- The turn of a core, were it to issue now: a leader's with the accesses of every participant in lock step. -/
def State.issuing (s : State) (core : Nat) : Turn :=
  let s' := s.issueCore core
  let tids := (List.range 4).map (fun k => 4 * core + k)
  let parts := (((s.setOfCore core).map (fun f => f.parts.map Prod.snd)).getD []).filter (fun t => coreOf t != core)
  { core := core,
    ops := (tids ++ parts).flatMap (fun t => ((s'.thread t).memQ.filter (fun a => a.at_ == s.cycle && !(s.thread t).memQ.any (fun b => b.id == a.id))).map Access.op),
    joins := tids.any (fun t => ((s.thread t).grp.isNone && (s'.thread t).grp.isSome) ||
      ((s.thread t).st == .running && (s'.thread t).st == .trapped && (s'.thread t).ctl.cause == BitVec.ofNat 8 (causeCode .group))) }

/-- Some access of `xs` is checked before one of `ys` that reaches its bank (R306, R314). -/
def checkedBefore (xs ys : List MemOp) : Bool :=
  xs.any (fun x => ys.any (fun y => decide (x.rank < y.rank) && x.touches.any (fun a => y.touches.any (sameBank a))))

/-- One turn comes before another: JOINs apply in ascending $tid (R27), and otherwise accesses are checked in the order of their banks (R306, R314). Where
both rules meet, that of the JOINs stands (log entry 5). -/
def Turn.before (x y : Turn) : Bool := if x.joins && y.joins then decide (x.core < y.core) else checkedBefore x.ops y.ops

/-- The next core of the cycle: the lowest that has not tried, but after those whose turns come before its own. -/
def State.nextCore (s : State) : Option Nat :=
  match s.untried with
  | [] => none
  | [c] => some c
  | cs =>
    let all := cs.map s.issuing
    ((all.find? (fun x => !all.any (fun y => y.before x))).map Turn.core).orElse (fun _ => cs.head?)

end Sys2Proof.Machine
end

