-- ==== Sys2Proof/Machine/Cycle.lean ====
section
/-! DEFINITION. The end of a cycle: what the engines, the banks, the die engines and the hub do in it, in the order of R306, R271 and R333; log entry 5
gives the order where the spec leaves it open. Every event acts through its own instruction, which does nothing where it is not due. -/

namespace Sys2Proof.Machine

open Sys2Proof

/-- The meaning of an event, as dispatch names it. -/
abbrev Event := State → Host.Outcome State Fault Refusal

/-- An event acts. -/
def State.run (s : State) (e : Event) : State :=
  match e s with
  | .next s' => s'
  | _ => s

/-- An event acts on each entry of a queue of length `len`, in order; an entry that leaves gives its place to the next. -/
def State.sweep (s : State) (f : Nat → Event) (len : State → Nat) : Nat → Nat → State
  | 0, _ => s
  | fuel + 1, k =>
    if len s ≤ k then s
    else
      let s' := s.run (f k)
      s'.sweep f len fuel (if len s' < len s then k else k + 1)

def State.sweepAll (s : State) (f : Nat → Event) (len : State → Nat) : State := s.sweep f len (len s) 0

/-- The sequencers whose thread satisfies a condition, ascending. -/
def State.tidsWith (s : State) (p : Thread → Bool) : List Nat := (s.threads.filter (fun e => p e.2)).map Prod.fst

/-- An event acts on each thread that satisfies a condition. -/
def State.onThreads (s : State) (p : Thread → Bool) (f : Nat → Event) : State := (s.tidsWith p).foldl (fun s t => s.run (f t)) s

/-- An event acts on each die. -/
def State.onDies (s : State) (f : Nat → Event) : State := (s.run (f 0)).run (f 1)

/-! ## Groups and barriers -/

/-- The LEAVEs of the cycle, after its JOINs, and the barriers that are then complete (R27, R113). -/
def State.endGroups (s : State) (die : Nat) : State :=
  let d := s.die die
  let s := d.leaves.foldl State.groupLeave (if d.leaves = [] then s else s.updDie die (fun d => { d with leaves := [] }))
  ((s.die die).groups.filter (fun g => g.2.arrived != [])).foldl (fun s g => s.barrierTest die g.1) s

/-! ## The banks (R271, R306) -/

/-- The access is an atomic at its home, an LDA or STA or a lane of a VAMO among them (R312). -/
def MemOp.isAtomic (o : MemOp) : Bool := o.atomPlace.isSome
/-- An atomic of a thread of the bank's own die; one of a peer core's bank is then on its way. -/
def MemOp.isNear (o : MemOp) : Bool := o.atomPlace.any (fun p => match p.home with | .die same => same | .hbm => false | _ => true)
/-- An update of a completion object. -/
def MemOp.isArrive : MemOp → Bool
  | .carrive _ _ => true
  | _ => false

/-- An access that stands first satisfies a condition. -/
def Thread.headOp (t : Thread) (p : MemOp → Bool) : Bool := t.firsts.any (fun a => p a.op)

/-- The accesses of one thread that can perform and satisfy a condition, oldest first. -/
def State.performAll (s : State) (tid : Nat) (p : MemOp → Bool) : Nat → State
  | 0 => s
  | fuel + 1 =>
    if ¬ (s.thread tid).headOp p then s
    else
      let s' := s.performFirst tid p
      if (s'.thread tid).memQ.length < (s.thread tid).memQ.length then s'.performAll tid p fuel else s'

/-- Accesses that satisfy a condition perform, in ascending $tid order. -/
def State.perform (s : State) (p : MemOp → Bool) : State :=
  (s.tidsWith (fun t => t.headOp p)).foldl (fun s t => s.performAll t p (s.thread t).memQ.length) s

/-- The queue units whose next entry satisfies a condition process it, but those of the cores that have processed one in this cycle; and the cores
that now have (R271). -/
def State.queueUnits (s : State) (p : QEntry → Bool) (done : List Nat) : State × List Nat :=
  ((s.cores.filter (fun c => c.2.inq.any (fun q => q.2.ents != []) && !done.contains c.1)).map Prod.fst).foldl (fun (s, done) c =>
    match s.turn c with
    | some (_, e) => if p e then (s.run (execQueueEntryApply c), c :: done) else (s, done)
    | none => (s, done)) (s, done)

/-- The memory of the machine in one cycle: completion objects and AWAIT tests, atomics of the own die and the others, plain accesses, and the copy
engines' writes (R184, R271, R306). An update or atomic that stands behind a plain access of its thread comes to its bank in the cycle after it (log
entry 70). -/
def State.endBanks (s : State) : State :=
  let copies (d : Nat) (s : State) : Nat := (s.die d).copies.length
  let s := (List.range 2).foldl (fun s d => (s.fetchEntries d).sweepAll (execCopyEntryComplete d) (copies d)) s
  let s := { s with atoms := [] }.perform MemOp.isArrive
  let s := (s.tidsWith (fun t => t.waits != [])).foldl State.awaitTest s
  let s := (s.perform MemOp.isNear).perform MemOp.isAtomic
  let (s, done) := s.queueUnits (fun e => e.kind == 2) []
  let s := s.perform (fun o => !o.isAtomic && !o.isArrive)
  let (s, _) := s.queueUnits (fun e => e.kind != 2) done
  let s := (List.range 2).foldl (fun s d => (s.sweepAll (execCopyChunk d) (copies d)).sweepAll (execCopyEntryStop d) (copies d)) s
  let s := ((s.clusters.filter (fun c => c.2.deliveries != [])).map Prod.fst).foldl (fun s c =>
    s.sweepAll (execRingDeliveryLand c) (fun s => (s.cluster c).deliveries.length)) s
  ((s.cores.filter (fun c => c.2.back != [])).map Prod.fst).foldl (fun s c => s.run (execQueueCreditReturn c)) s

/-! ## The matrix engines -/

/-- The matrix commands of every thread retire, apply and start; a loaded code table becomes active (R83, R220 to R222). -/
def State.endMatrix (s : State) : State :=
  let busy (t : Thread) : Bool := t.mat.queue != []
  let s := s.onThreads busy execMcallRetire
  let s := s.onThreads busy execConfigCommandApply
  let s := s.onThreads busy execTableCommandApply
  let s := s.onThreads busy execMatrixCommandEngineApply
  let s := s.onThreads busy execMcallEngineStart
  ((s.cores.filter (fun c => c.2.arr.code.flip)).map Prod.fst).foldl (fun s c => s.run (execCodeTableFlip c)) s

/-! ## Tasks -/

/-- Stops land or time out; hampers are written, loaded and copied (R261, R341, R358 to R361). -/
def State.endStops (s : State) : State :=
  let asked (t : Thread) : Bool := t.stop.isSome
  let s := (s.onThreads asked execStopLands).onThreads asked execStopRequestTimeout
  (List.range 2).foldl (fun s d =>
    let s := s.sweepAll (execSuspendComplete d) (fun s => (s.die d).susp.length)
    let s := s.sweepAll (execCheckpointWrite d) (fun s => (s.die d).running.length)
    let s := s.sweepAll (execHamperLoadComplete d) (fun s => (s.die d).hloads.length)
    s.sweepAll (execHcopyComplete d) (fun s => (s.die d).hcopies.length)) s

/-- The SEQ of a thread's task, by which task completions of one cycle are ordered (R333). -/
def State.taskSeq (s : State) (tid : Nat) : Nat := (((s.thread tid).task.bind s.runOf).map RunTask.seq).getD 0

/-- Threads end, tasks complete, and the die engines apply their commands (R331, R333, R335). -/
def State.endTasks (s : State) : State :=
  let s := (stableSort (fun a b => decide (s.taskSeq a < s.taskSeq b)) (s.tidsWith (fun t => t.st == .retiring))).foldl
    (fun s t => s.run (execThreadFree t)) s
  let s := (List.range 2).foldl (fun s d => s.sweepAll (execKillRequeue d) (fun s => (s.die d).running.length)) s
  let s := s.onDies execDieEngineCommandApply
  let s := s.onThreads (fun t => t.xwait.isSome || t.inner != [] || t.st == .retiring) execTsubmitRetry
  let s := s.onDies execPendingLaunchDrain
  (List.range 2).foldl (fun s d =>
    let s := s.sweepAll (fun _ => execReadyQueueEntry d) (fun s => (s.die d).overflow.length)
    s.sweepAll (execPriorityAgeing d) (fun s => (s.die d).ready.length)) s

/-- The energy sample that is due, of which no agenda gave the energy, takes a free value (R383); the interval; and placements. -/
def State.endEnergy (s : State) : State :=
  let s :=
    if s.cycle < 1100 * (s.hub.energy.samples + 1) then s
    else
      let (n, s) := s.freeNat
      s.run (execEnergySample n)
  let s := s.run execEnergyInterval
  (s.onDies execReservationTaken).onDies execTaskPlacement

/-! ## The fabric -/

/-- The hub's fabric side in one cycle (R397 to R425). -/
def State.endFabric (s : State) : State :=
  let s := if s.hub.outq = [] then s else s.sweepAll execFabricPacketSend (fun s => s.hub.outq.length)
  let s := if s.fab.queues = [] then s else s.sweepAll execEscapeMove (fun s => s.fab.queues.length)
  let s := if s.fab.queues = [] ∧ s.fab.flits = [] ∧ s.fab.replay = [] then s else s.depart
  let s :=
    match s.loopback with
    | .next s' => s'
    | _ => s
  let rx (s : State) : Nat := s.fab.rxq.length
  let s := if s.fab.rxq = [] then s else ((s.sweepAll execFredApply rx).sweepAll execWritePlace rx).sweepAll execTokenPlace rx
  let s : State := (s.fab.credits.map Prod.fst).foldl (fun s d => s.sweepAll (fun _ => execCreditExpiry d) (fun s => (tget [] s.fab.credits d).length)) s
  let s := if s.fab.waiting = [] then s else s.grantCredits
  let s := ((s.run execFlushComplete).run execStepSkew).run execCoordinatorGo
  (s.run execHarvestApply).run execBoundaryComplete

/-! ## The cycle -/

/-- The cycle ends. Threads that a stop, a kill or a core's leaving service has retired leave their groups before their sequencers are free (R20), and
the account answers once every hold of the cycle has changed (R384); the writes of the cycle land last, in the order of R53. -/
def State.endCycle (s : State) : State :=
  let s := (s.endGroups 0).endGroups 1
  let s := s.endEnergy
  let s := s.onThreads (fun t => t.waits != []) execYieldExpiry
  let s := s.endBanks
  let s := s.endMatrix
  let s := (s.endStops.applySwaps 0).applySwaps 1
  let s := (s.endGroups 0).endGroups 1
  let s := s.endTasks.settleAcct
  let s := s.sweepAll execTlbiComplete (fun s => s.hub.tlbis.length)
  let s := s.onDies execTranslationWalk
  let s := s.onThreads (fun t => t.st == .ready || t.want.isSome) execLineFill
  let s := (s.clusters.map Prod.fst).foldl State.clusterEnd s
  let s := s.endFabric
  let s := ((s.flushMarks 0).flushMarks 1).boundaryTick
  let s := s.onThreads (fun t => t.flight != [] || t.due != [] || t.parked != []) execFixedLatencyWriteLands
  { s with cycle := s.cycle + 1 }

/-! ## The step -/

/-- The instruction is an event that comes from outside or that the machine applies; not an operation of a bundle, nor one of the readings of a
bundle itself. -/
def isEvent (i : Instr) : Bool :=
  match i with
  | .emptyBundle _ => false
  | .lineSkip => false
  | .decodeCheckTrap _ _ _ => false
  | _ => (slotOf i).isNone

/-- A packet that reaches a port of the hub in this cycle. -/
def arrivesAt (port : BitVec 1) (i : Instr) : Bool :=
  match i with
  | .packetIngress p => p.port == port
  | _ => false

/-- The next event of a cycle, and those left: the first of the agenda, but that a packet at port 1 lets the cycle's packets at port 0 go
first (R381). -/
def nextEvent (i : Instr) (rest : List Instr) : Instr × List Instr :=
  match if arrivesAt 1 i then rest.findIdx? (arrivesAt 0) else none with
  | some k => (nth i rest k, i :: delNth rest k)
  | none => (i, rest)

/-- One step: the next event of the agenda; or the issue of the next core of the cycle; or the end of the cycle (log entries 5 and 7). -/
def State.advance (s : State) : Host.Outcome State Fault Refusal :=
  match s.agenda with
  | i :: rest =>
    let s := { s with agenda := (nextEvent i rest).2 }
    if isEvent (nextEvent i rest).1 then exec (nextEvent i rest).1 s else .next s
  | [] =>
    match s.nextCore with
    | some c => .next (s.issueCore c)
    | none => .next s.endCycle

/-! ## One instruction placed -/

/-- An instruction that traps PRIVILEGED at T (R18). -/
def onlyAtF (i : Instr) : Bool :=
  match i with
  | .rft _ _ => true
  | .rftN _ => true
  | .snapst _ _ _ _ => true
  | .snaprel _ => true
  | .tlbi _ _ _ _ => true
  | .selft _ _ _ _ => true
  | _ => false

/-- The 64 bytes of a line that holds a one-word bundle (R33). -/
def wordLine (w : Nat) : List Byte :=
  match bestSlot w allSlots with
  | some (sl, _) => lineOf (oneSlotBytes sl w 0)
  | none => lineOf (oneSlotBytes .C w 0)

/-- The first sequencer runs, at T from a line that its core holds, or at F from the firmware store, and its next bundle is the word. -/
def State.placeWord (s : State) (w : Nat) : State :=
  let atF := match bestSlot w allSlots with | some (_, i) => onlyAtF i | none => false
  let va := if atF then 0 else 0x100000000
  let s := { s with agenda := [] }
  let s := if atF then s.putBytes (storePlace 0 0) (wordLine w) else s
  let s := s.updCore 0 (fun c =>
    { c with halted := false, snap := none, last := 3, tried := 0,
             istore := if atF then c.istore else ⟨0, va, BitVec.ofNat 512 (leNat (wordLine w)), s.cycle⟩ :: c.istore })
  let s := s.updCluster 0 (fun c => { c with sets := [] })
  s.updThread 0 (fun t =>
    { t with st := .running, pc := BitVec.ofNat 48 va, atF := atF, dom := 0, loops := [], ready := s.cycle, flight := [], locks := [], faults := [], stop := none, stop2 := none, walked := [] })

end Sys2Proof.Machine
end

