-- ==== Sys2Proof/Machine/Step.lean ====
section
/-! DEFINITION. The step of the machine, and the placing of one instruction where the next step fetches it (log entry 9). -/

namespace Sys2Proof.Machine

open Sys2Proof

/-- One step of the machine: State.advance. -/
def step (s : State) : Host.Outcome State Fault Refusal := s.advance

/-- A bare table word stands as the next bundle of the first sequencer: alone in a bundle of the slot decodeTableWord reads it in, in a line that its
core holds, or, for an instruction that T may not use, in the firmware store. -/
def State.withFetchWord (s : State) (_nbits w : Nat) : State := s.placeWord (w % 2 ^ 32)

end Sys2Proof.Machine
end

