-- ==== Sys2Proof/Safety.lean ====
section
/-! DEFINITION. Safety: what counts as a safe run, in the terms statements use. -/

namespace Sys2Proof

open Sys2Proof.Machine

/-- A run is safe when every step of it answers a next state: no step faults or is refused. -/
def Safe (s : State) : Prop := ∀ n, ∃ t, core.run n s = .next t

/-- The memory of a state is in canonical form. -/
abbrev MemOk (s : State) : Prop := Memory.wf s.mem = true

/-- The lanes of a masked vector result (R127): an active lane holds its result; the others hold 0 under Z, and keep the destination otherwise. -/
def MaskedLanes (s : State) (d : BitVec 5) (z : BitVec 1) (k : BitVec 3) (f : Nat → Word) (r : VecReg) : Prop :=
  ∀ i, i < 32 → lane r i = if (s.m k).getLsbD i = true then f i else if z = 1 then 0 else lane (s.v d) i

/-- The flags of the active lanes under a mask register, joined (R127). -/
def activeFlags (s : State) (k : BitVec 3) (f : Nat → Fp.Flags) : Fp.Flags := joinFlags ((onesBelow 32 (s.m k).toNat).map f)

/-- c is the smallest block scale code whose value is at least amax / M, for the largest magnitude amax of a block of finite lanes and the largest
finite value M of the format, or the largest finite code (R140). -/
def SmallestScale (f : Nat) (xs : List Word) (c : Nat) : Prop :=
  c ≤ 0xFFE ∧
  ∀ m e, Fp.f32 (BitVec.ofNat 32 (xs.foldl (fun a x => Max.max a (x.toNat % 2 ^ 31)) 0)) = .fin false m e →
    (c = 0xFFE ∨ ∃ n k, Fp.ue8m4 c = some (n, k) ∧ ltDyadic (n * (fmtMax f).1) (k + (fmtMax f).2) m e = false) ∧
    ∀ c', c' < c → ∀ n k, Fp.ue8m4 c' = some (n, k) → ltDyadic (n * (fmtMax f).1) (k + (fmtMax f).2) m e = true

/-- The active lanes of a mask register, in lane order. -/
def activeLanes (s : State) (k : BitVec 3) : List Nat := (List.range 32).filter (fun i => (s.m k).getLsbD i)

/-- Two states that differ in their threads alone. -/
def ThreadsOnly (s t : State) : Prop := t = { s with threads := t.threads }

/-- Every thread but the one in issue is unchanged. -/
def OthersKept (s t : State) : Prop := ∀ k, k ≠ s.cur.tid → t.thread k = s.thread k

/-- No synchronisation operation of an earlier bundle of the thread waits to perform. -/
abbrev NoOlderSync (s : State) : Prop := s.me.memQ.all (fun x => !x.sync || x.ord == s.me.ord) = true

/-- The interlocks of the destinations of an operation in issue (R52): those of registers that do not discard their writes. -/
def newLocks (s : State) (dests : List Dest) : List Lock :=
  (dests.filter (fun d => !d.discards)).map (fun d => ⟨d, s.me.nextId, s.me.ord, s.cur.slot, false⟩)

/-- An access of the thread in issue has passed its checks and waits to perform (R169), its destinations interlocked (R52): nothing changes but its
thread's queue, locks and earliest next issue, and the conflict tags. -/
def Queued (s t : State) (op : MemOp) (lat : Nat) (dests : List Dest) (sync : Bool) (rel : Nat) : Prop :=
  t = { s with threads := t.threads, tags := t.tags } ∧ OthersKept s t ∧ s.me.ready ≤ t.me.ready ∧
  t.me = { s.me with
    nextId := s.me.nextId + 1, ready := t.me.ready, locks := s.me.locks ++ newLocks s dests,
    memQ := s.me.memQ ++ [⟨s.me.nextId, s.cycle, s.cycle + lat - 1, s.me.ord, op, sync, rel⟩] }

/-- The next access of a thread to perform is this one (R169, R308, R311): of its oldest access and its oldest store into a window, the first that can. -/
abbrev Performs (s : State) (tid : Nat) (a : Access) : Prop := (s.thread tid).firsts.find? (s.canPerform tid) = some a

/-- Nothing but the result of a command is on its way to a register, and the record of a trap has not taken that result's place (R52, R258). -/
abbrev SoleWriter (t : Thread) (id : Nat) (d : Dest) : Prop :=
  { t with locks := t.locks.filter (fun l => !(l.id == id && l.dest == d)) }.writing d = false ∧ ∀ l ∈ t.locks, l.id = id → l.dest = d → l.void = false

/-- A command of the thread in issue has joined its matrix queue (R220): behind the others, or from a handler ahead of the failing command of a halted queue (R222); its
destinations are interlocked, and nothing else changes but its core's issue order; an MCALL of lock step is a part of a gang (R292). -/
def MatQueued (s t : State) (op : MatOp) (foot : Nat) (dests : List Dest) (gang : Option (List Nat × Nat) := none) : Prop :=
  t = { s with threads := t.threads, cores := t.cores } ∧ OthersKept s t ∧
  t.core (coreOf s.cur.tid) = { s.core (coreOf s.cur.tid) with arr := { (s.core (coreOf s.cur.tid)).arr with ord := (s.core (coreOf s.cur.tid)).arr.ord + 1 } } ∧
  (∀ k, k ≠ coreOf s.cur.tid → t.core k = s.core k) ∧
  ∃ c : MatCmd, c.op = op ∧ c.st = .queued ∧ c.image = some [] ∧ c.wide = foot ∧ c.num = s.me.mat.next ∧ c.id = s.me.nextId ∧ c.issued = s.cycle ∧ c.org = s.origin ∧ c.gang = gang ∧
    t.me = { s.me with
      nextId := s.me.nextId + 1, locks := s.me.locks ++ newLocks s dests,
      mat := { s.me.mat with
        next := (s.me.mat.next + 1) % 2 ^ 32,
        queue := if s.me.mat.halted = true then s.me.mat.queue.takeWhile (fun d => !d.isFailed) ++ [c] ++ s.me.mat.queue.dropWhile (fun d => !d.isFailed)
                 else s.me.mat.queue ++ [c] } }

/-- A command with an image has joined the matrix queue of the thread in issue, and the read of n bytes from offset ea of its scratchpad waits to perform (R433). -/
def ImageQueued (s t : State) (op : MatOp) (ea n : Nat) : Prop :=
  t = { s with threads := t.threads, cores := t.cores, tags := t.tags } ∧ OthersKept s t ∧ t.me.regs = s.me.regs ∧
  (∃ e : Access, t.me.memQ = s.me.memQ ++ [e] ∧ e.op = .image s.me.mat.next (padPlace (coreOf s.cur.tid) ea) n ∧ e.ready = s.cycle + 2) ∧
  ∃ c : MatCmd, c.op = op ∧ c.st = .queued ∧ c.image = none ∧ c.num = s.me.mat.next ∧ c.issued = s.cycle ∧
    (s.me.mat.halted = false → t.me.mat.queue = s.me.mat.queue ++ [c])

/-- The bytes n from offset ea of the own scratchpad pass the checks of a read of an engine (R165 to R168, R177, R433). -/
def PadReadable (s : State) (engine ea n : Nat) : Prop :=
  ea + n ≤ 0x100000 ∧ NoOlderSync s ∧ ∃ ps, s.checkAll s.cur.tid s.me ⟨.read, false, none, engine⟩ 1 (piecesOf ea n) = .ok ps

/-- The rows of a tile transfer lie in the scratchpad, no synchronisation operation of an earlier bundle waits, and every check of them passes (R177, R186 to R188). -/
def RowsAdmitted (s : State) (k : AccKind) (rows : List (Nat × Nat)) : Prop :=
  (∀ p ∈ rows, p.1 + p.2 ≤ 0x100000) ∧ NoOlderSync s ∧ ∃ ps, s.checkAll s.cur.tid s.me ⟨k, false, none, 3⟩ 1 (rows.flatMap (fun p => piecesOf p.1 p.2)) = .ok ps

/-- The thread in issue has trapped: it is at F in the handler of the cause, whose record is filled, and its registers, loops and memory are as they were. -/
def Trapped (s t : State) (i : TrapInfo) : Prop :=
  t.me.st = .trapped ∧ t.me.atF = true ∧ t.me.pc = BitVec.ofNat 48 (64 * causeCode i.cause) ∧ t.me.ctl.cause = BitVec.ofNat 8 (causeCode i.cause) ∧
  t.me.ctl.engine = i.engine ∧ t.me.ctl.estat = i.estat ∧ t.me.ctl.badaddr = i.badaddr ∧ t.me.ctl.cmdidx = i.cmdidx ∧ t.me.ctl.xpc = s.cur.pc ∧
  t.me.regs = s.me.regs ∧ t.me.loops = s.me.loops ∧ t.me.ctl.fstat = s.me.ctl.fstat ∧ t.me.grp = s.me.grp ∧ t.me.sel = s.me.sel ∧
  t.me.memQ = s.me.memQ ∧ t.me.mat = s.me.mat ∧ t.me.flight = [] ∧ t.mem = s.mem ∧ t.tags = s.tags ∧ t.hub = s.hub ∧ t.dies = s.dies

/-- No other access or trap of the core stands in the way of a trap. -/
abbrev SnapFree (s : State) : Prop := (s.core (coreOf s.cur.tid)).snap = none

/-- Nothing of a state but its threads, and of those only thread tid. -/
def OneThread (s t : State) (tid : Nat) : Prop := t = { s with threads := t.threads } ∧ ∀ k, k ≠ tid → t.thread k = s.thread k

/-- The bytes of memory outside n bytes from key are unchanged. -/
def KeptOutside (s t : State) (key n : Nat) : Prop := ∀ k, (k < key ∨ key + n ≤ k) → t.byteAt k = s.byteAt k

/-- A command of the thread in issue is on its way to its die's engine (R331): it reaches the engine after `delay` cycles, its destinations are interlocked, and nothing else
changes but whether the thread waits. -/
def EngineTold (s t : State) (op : DieOp) (delay : Nat) (dests : List Dest) (waits : Bool) : Prop :=
  t = { s with threads := t.threads, dies := t.dies } ∧ OthersKept s t ∧
  t.die (dieOf s.cur.tid) = { s.die (dieOf s.cur.tid) with
    cmds := (s.die (dieOf s.cur.tid)).cmds ++ [⟨s.origin, s.me.nextId, s.cycle + delay, op⟩] } ∧
  (∀ k, k ≠ dieOf s.cur.tid → t.die k = s.die k) ∧
  let told : Thread := { s.me with nextId := s.me.nextId + 1, locks := s.me.locks ++ newLocks s dests }
  t.me = if waits = true then told.park (s.cur.pc, s.me.loops) none (some s.me.nextId) else told

/-- A running thread with no wait registered. -/
def Unwaiting (t : Thread) : Prop := t.st = .running ∧ t.wait = none ∧ t.xwait = none ∧ t.inner = [] ∧ t.paused = false

/-- A command of the energy account, of thread, interlock and register as given, waits for the end of the cycle (R382). -/
def AccountTold (s t : State) (op : AcctOp) (d : Dest) (r : Nat) : Prop :=
  t = { s with threads := t.threads, hub := { s.hub with acct := s.hub.acct ++ [⟨s.cur.tid, s.me.born, s.me.nextId, r, op⟩] } } ∧ OthersKept s t ∧
  t.me = { s.me with
    nextId := s.me.nextId + 1, locks := s.me.locks ++ newLocks s [d] }

/-- An instruction of the S, V or Y slot, or a pair word: it acts on its thread's registers alone. -/
def OnRegisters (i : Instr) : Prop := slotOf i = some .S ∨ slotOf i = some .P ∨ slotOf i = some .V ∨ slotOf i = some .Y

/-- It may set $fstat or advance the thread's generator: floating-point and saturating operations, conversions, sums, random numbers and MOVZ (R13, R74 to R78, R84). -/
def flagsOrDraws (i : Instr) : Bool :=
  match i with
  | .movz _ _ _ _ => true
  | .fadd _ _ _ _ _ => true
  | .fsub _ _ _ _ _ => true
  | .fmul _ _ _ _ _ => true
  | .fma _ _ _ _ _ => true
  | .fmin _ _ _ _ => true
  | .fmax _ _ _ _ => true
  | .fcmp _ _ _ _ _ => true
  | .fcvti _ _ _ _ _ => true
  | .fcvtf _ _ _ _ _ => true
  | .pairWord _ _ _ _ _ _ _ _ _ => true
  | .vadd _ _ _ _ _ _ _ _ => true
  | .vsub _ _ _ _ _ _ _ _ => true
  | .vmad _ _ _ _ _ _ _ _ => true
  | .vfadd _ _ _ _ _ _ _ => true
  | .vfsub _ _ _ _ _ _ _ => true
  | .vfmul _ _ _ _ _ _ _ => true
  | .vfma _ _ _ _ _ _ _ => true
  | .vfmin _ _ _ _ _ _ => true
  | .vfmax _ _ _ _ _ _ => true
  | .vfcmp _ _ _ _ _ _ _ => true
  | .vrcp _ _ _ _ _ => true
  | .vrsq _ _ _ _ _ => true
  | .vexp2 _ _ _ _ _ => true
  | .vlog2 _ _ _ _ _ => true
  | .vcvt _ _ _ _ _ _ => true
  | .vcvtWide _ _ _ _ _ => true
  | .vqnt _ _ _ _ _ _ _ => true
  | .vdqnt _ _ _ _ _ _ _ => true
  | .vbsc _ _ _ _ _ => true
  | .vred _ _ _ _ _ => true
  | .vscan _ _ _ _ _ _ => true
  | .vrng _ _ _ _ _ => true
  | .vprune _ _ _ _ _ _ => true
  | .ytopkOut _ _ _ _ => true
  | .ysums _ _ _ _ _ _ _ => true
  | _ => false

/-- It changes the select state (R154, R155). -/
def changesSelect (i : Instr) : Bool :=
  match i with
  | .ytopkInit _ _ _ _ => true
  | .ytopkAdd _ _ _ _ => true
  | _ => false

end Sys2Proof
end

