-- ==== Sys2Proof/Certificates/Slice0/Obligations.lean ====
section
/-! DEFINITION. Obligations: the statements for the provers. Each says what an instruction or the machine does, by the rule of the spec its docstring
names. A result with fixed latency is stated as `s.post d v lat`: v is on its way to d and lands at the end of the cycle lat - 1 after issue;
Obligations.ResultLands says what that is. -/

open Sys2Proof Sys2Proof.Machine

/-! ## Results with fixed latency -/

/-- R12, R51 to R53: a result joins the writes in flight of the thread in issue, to land at the end of cycle t + L - 1; it changes nothing else of the machine; and when
no other write of the thread is on its way, the register reads the value after the landing. A write to s0, g0 or m0 is discarded.
An interlocked result that is known at issue lands at the end of its cycle, or once the earlier writes of its register have landed.
R39: an operation whose guard is false changes no state, whatever the operation: the checks that come before the guard, of the level of a privileged operation or
system register and of a GATE at F (R18, R39, R255), are the hypotheses. -/
def Obligations.ResultsAndGuards : Prop :=
  (∀ (s : State) (d : Dest) (v lat : Nat),
     (d.discards = true → s.post d v lat = s) ∧
     (d.discards = false →
       (s.post d v lat).me.flight = s.me.flight ++ [⟨d, v, s.cycle + lat - 1, s.me.ord, s.cur.slot⟩] ∧
       (s.post d v lat).me = { s.me with flight := (s.post d v lat).me.flight } ∧
       (∀ k, k ≠ s.cur.tid → (s.post d v lat).thread k = s.thread k) ∧
       s.post d v lat = { s with threads := (s.post d v lat).threads } ∧
       (s.me.flight = [] → s.me.due = [] → ∀ r : Nat, d = .s r → v < 2 ^ 64 →
         ((s.post d v lat).me.landDue (s.cycle + lat - 1)).sreg r = BitVec.ofNat 64 v ∧
         (1 < lat → ((s.post d v lat).me.landDue (s.cycle + lat - 2)).sreg r = s.me.sreg r))) ∧
     (d.discards = true → s.postVar d v = s) ∧
     (d.discards = false →
       (s.postVar d v).me = { s.me with due := s.me.due ++ [⟨d, v, s.cycle, s.me.ord, s.cur.slot⟩] } ∧ ThreadsOnly s (s.postVar d v) ∧ OthersKept s (s.postVar d v) ∧
       (s.me.flight = [] → s.me.due = [] → s.me.snapped = [] → s.me.parked = [] → ∀ r : Nat, d = .s r → v < 2 ^ 64 →
         ((s.postVar d v).me.landDue s.cycle).sreg r = BitVec.ofNat 64 v))) ∧
  (∀ (s : State) (i : Instr) (gd : Guard), guardOfInstr i = some gd → s.guard gd = false → s.opDenied s.cur.tid i = none →
     (isGate i = true → s.me.atF = false) → exec i s = .next s)

/-! ## The S slot -/

/-- R115: the integer arithmetic instructions wrap modulo 2^64; the second operand of ADD, SUB and MUL is s[b] or, with NB = 1, the loop index n[b].
R116: division truncates toward zero and never traps; the remainder has the dividend's sign, and dividend = quotient x divisor + remainder; a
zero divisor gives all ones and the dividend; DIV of -2^63 by -1 gives -2^63 and REM 0. -/
def Obligations.IntegerArithmetic : Prop :=
  (∀ (s : State) (gd : Guard) (d a b : BitVec 5), s.guard gd = true →
     (∀ k : BitVec 1,
       let y : DWord := if k = 1 then (s.src.nreg b.toNat).setWidth 64 else s.s b
       exec (.add gd d a b k) s = .next (s.postS d (s.s a + y) 1) ∧
       exec (.sub gd d a b k) s = .next (s.postS d (s.s a - y) 1) ∧
       exec (.mul gd d a b k) s = .next (s.postS d (s.s a * y) 3)) ∧
     (∀ (im : BitVec 12), exec (.addi gd d a im none) s = .next (s.postS d (s.s a + im.signExtend 64) 1) ∧
       ∀ kw : BitVec 32, exec (.addi gd d a im (some kw)) s = .next (s.postS d (s.s a + kw.signExtend 64) 1)) ∧
     exec (.mulh gd d a b) s = .next (s.postS d (BitVec.ofInt 64 ((s.s a).toInt * (s.s b).toInt / 2 ^ 64)) 3) ∧
     exec (.mulhu gd d a b) s = .next (s.postS d (BitVec.ofNat 64 ((s.s a).toNat * (s.s b).toNat / 2 ^ 64)) 3)) ∧
  (∀ (s : State) (gd : Guard) (d a b : BitVec 5), s.guard gd = true →
     ∃ q r qu ru : DWord,
       exec (.div gd d a b) s = .next (s.postS d q 20) ∧ exec (.rem gd d a b) s = .next (s.postS d r 20) ∧
       exec (.divu gd d a b) s = .next (s.postS d qu 20) ∧ exec (.remu gd d a b) s = .next (s.postS d ru 20) ∧
       s.s a = q * s.s b + r ∧ s.s a = qu * s.s b + ru ∧
       (s.s b = 0 → q = BitVec.allOnes 64 ∧ r = s.s a ∧ qu = BitVec.allOnes 64 ∧ ru = s.s a) ∧
       (s.s b ≠ 0 → qu.toNat = (s.s a).toNat / (s.s b).toNat ∧ ru.toNat = (s.s a).toNat % (s.s b).toNat ∧
         r.toInt = (s.s a).toInt.tmod (s.s b).toInt ∧
         (¬ (s.s a = BitVec.intMin 64 ∧ s.s b = -1) → q.toInt = (s.s a).toInt.tdiv (s.s b).toInt) ∧
         (s.s a = BitVec.intMin 64 ∧ s.s b = -1 → q = BitVec.intMin 64 ∧ r = 0)))

/-- R117: logic and shifts; a shift amount is taken modulo 64.
R117, Table 4-8: comparisons, selection, minimum and maximum, and counts. -/
def Obligations.ScalarLogicAndComparisons : Prop :=
  (∀ (s : State) (gd : Guard) (d a b : BitVec 5) (im : BitVec 12) (kw : Option (BitVec 32)), s.guard gd = true →
     exec (.andS gd d a b) s = .next (s.postS d (s.s a &&& s.s b) 1) ∧
     exec (.orS gd d a b) s = .next (s.postS d (s.s a ||| s.s b) 1) ∧
     exec (.xorS gd d a b) s = .next (s.postS d (s.s a ^^^ s.s b) 1) ∧
     exec (.andn gd d a b) s = .next (s.postS d (s.s a &&& ~~~(s.s b)) 1) ∧
     exec (.andi gd d a im kw) s = .next (s.postS d (s.s a &&& immS12 im kw) 1) ∧
     exec (.ori gd d a im kw) s = .next (s.postS d (s.s a ||| immZ12 im kw) 1) ∧
     exec (.xori gd d a im kw) s = .next (s.postS d (s.s a ^^^ immZ12 im kw) 1) ∧
     exec (.shl gd d a b) s = .next (s.postS d (s.s a <<< ((s.s b).toNat % 64)) 1) ∧
     exec (.shr gd d a b) s = .next (s.postS d (s.s a >>> ((s.s b).toNat % 64)) 1) ∧
     exec (.sar gd d a b) s = .next (s.postS d ((s.s a).sshiftRight ((s.s b).toNat % 64)) 1) ∧
     exec (.shli gd d a im kw) s = .next (s.postS d (s.s a <<< (immU12 im kw % 64)) 1) ∧
     exec (.shri gd d a im kw) s = .next (s.postS d (s.s a >>> (immU12 im kw % 64)) 1) ∧
     exec (.sari gd d a im kw) s = .next (s.postS d ((s.s a).sshiftRight (immU12 im kw % 64)) 1)) ∧
  (∀ (s : State) (gd : Guard) (d a b : BitVec 5), s.guard gd = true →
     (∀ c : BitVec 3, exec (.cmp gd d a b c) s = .next (s.postG d
       (match c.toNat with
         | 0 => s.s a == s.s b
         | 1 => s.s a != s.s b
         | 2 => decide ((s.s a).toInt < (s.s b).toInt)
         | 3 => decide ((s.s b).toInt ≤ (s.s a).toInt)
         | 4 => decide ((s.s a).toNat < (s.s b).toNat)
         | _ => decide ((s.s b).toNat ≤ (s.s a).toNat)) 1)) ∧
     (∀ (c : BitVec 2) (q : BitVec 3) (im : BitVec 12) (kw : Option (BitVec 32)), exec (.cmpi gd c q a im kw) s = .next (s.postG q
       (match c.toNat with
         | 0 => s.s a == immS12 im kw
         | 1 => s.s a != immS12 im kw
         | 2 => decide ((s.s a).toInt < (immS12 im kw).toInt)
         | _ => decide ((immS12 im kw).toInt ≤ (s.s a).toInt)) 1)) ∧
     (∀ (x : BitVec 1) (k : BitVec 3), exec (.sel gd d a b x k) s = .next (s.postS d (if (s.g k ^^ decide (x = 1)) = true then s.s a else s.s b) 1)) ∧
     (∃ lo hi lou hiu : DWord,
       exec (.min gd d a b) s = .next (s.postS d lo 1) ∧ exec (.max gd d a b) s = .next (s.postS d hi 1) ∧
       exec (.minu gd d a b) s = .next (s.postS d lou 1) ∧ exec (.maxu gd d a b) s = .next (s.postS d hiu 1) ∧
       lo.toInt = Min.min (s.s a).toInt (s.s b).toInt ∧ hi.toInt = Max.max (s.s a).toInt (s.s b).toInt ∧
       lou.toNat = Min.min (s.s a).toNat (s.s b).toNat ∧ hiu.toNat = Max.max (s.s a).toNat (s.s b).toNat) ∧
     (∃ n : Nat, exec (.clz gd d a) s = .next (s.postS d (BitVec.ofNat 64 n) 1) ∧ n ≤ 64 ∧
       (∀ i, i < n → (s.s a).getLsbD (63 - i) = false) ∧ (n < 64 → (s.s a).getLsbD (63 - n) = true)) ∧
     exec (.popc gd d a) s = .next (s.postS d (BitVec.ofNat 64 ((List.range 64).filter (fun i => (s.s a).getLsbD i)).length) 1))

/-- R118, R119: bit fields, constants and addresses; LEA and ADDPC wrap modulo 2^48. -/
def Obligations.FieldsAndConstants : Prop :=
  ∀ (s : State) (gd : Guard) (d a : BitVec 5), s.guard gd = true →
    (∀ (im : BitVec 12) (kw : Option (BitVec 32)),
      let f : Nat := (match kw with | none => im.toNat | some k => k.toNat % 2 ^ 12)
      let sx : Bool := (match kw with | none => false | some k => k.getLsbD 12)
      let lo := f % 64
      let w := f / 64 + 1
      lo + w ≤ 64 →
      (∃ r : DWord, exec (.bfx gd d a im kw) s = .next (s.postS d r 1) ∧
        ∀ i, i < 64 → r.getLsbD i = (if i < w then (s.s a).getLsbD (lo + i) else sx && (s.s a).getLsbD (lo + w - 1))) ∧
      (∃ r : DWord, exec (.bfi gd d a im kw) s = .next (s.postS d r 1) ∧
        ∀ i, i < 64 → r.getLsbD i = (if lo ≤ i ∧ i < lo + w then (s.s a).getLsbD (i - lo) else (s.s d).getLsbD i))) ∧
    (∀ (im : BitVec 17), exec (.li gd d im none) s = .next (s.postS d (im.signExtend 64) 1) ∧
      (∀ kw : BitVec 32, exec (.li gd d im (some kw)) s = .next (s.postS d (kw.signExtend 64) 1)) ∧
      (∀ kw : Option (BitVec 32), ∃ r : DWord, exec (.lih gd d im kw) s = .next (s.postS d r 1) ∧
        r.toNat % 2 ^ 32 = (s.s d).toNat % 2 ^ 32 ∧ r.toNat / 2 ^ 32 = (immS17 im kw).toNat % 2 ^ 32) ∧
      (∀ kw : Option (BitVec 32), exec (.addpc gd d im kw) s =
        .next (s.postS d (BitVec.ofNat 64 ((s.cur.pc.toNat + (immS17 im kw).toNat) % 2 ^ 48)) 1))) ∧
    (∀ (im : BitVec 12) (kw : Option (BitVec 32)), exec (.lea gd d a im kw) s =
      .next (s.postS d (BitVec.ofNat 64 (((s.s a).toNat + (immS12 im kw).toNat) % 2 ^ 48)) 1))

/-- R120, Table 4-9: GOP computes on guards; `.test` and `.get` cross between a guard and a scalar register.
R13, R14, R121: MOVS reads a system register, zero-extended; MOVZ writes one, and clears flags of $fstat where its operand is 1; a value with a
reserved bit traps ILLEGAL_OP and a register the level may not reach traps PRIVILEGED whatever the guard: both leave the register as it is. The trap
forms are stated for a core whose snapshot is free. Once it has landed, the value written is what is read; the registers that name the thread and its place read R11's
numbers, and $priv reads the domain and the level.
That a flag, and a MOVZ to $fstat, acts at issue is log entry 18. -/
def Obligations.GuardsAndSystemRegisters : Prop :=
  (∀ (s : State) (gd : Guard) (d a b : BitVec 5), s.guard gd = true →
     exec (.gop gd d a b 0) s = .next (s.postG d (s.g a && s.g b) 1) ∧
     exec (.gop gd d a b 1) s = .next (s.postG d (s.g a || s.g b) 1) ∧
     exec (.gop gd d a b 2) s = .next (s.postG d (s.g a ^^ s.g b) 1) ∧
     exec (.gop gd d a b 3) s = .next (s.postG d (s.g a && !s.g b) 1) ∧
     exec (.gop gd d a b 4) s = .next (s.postG d (s.g a || !s.g b) 1) ∧
     exec (.gop gd d a b 5) s = .next (s.postG d (!(s.g a && s.g b)) 1) ∧
     exec (.gop gd d a b 6) s = .next (s.postG d (!(s.g a || s.g b)) 1) ∧
     exec (.gop gd d a b 7) s = .next (s.postG d (!(s.g a ^^ s.g b)) 1) ∧
     exec (.gop gd d a b 8) s = .next (s.postG d (decide (s.s a ≠ 0)) 1) ∧
     exec (.gop gd d a b 9) s = .next (s.postS d (if s.g a = true then 1 else 0) 1)) ∧
  (∀ (s : State) (gd : Guard) (d : BitVec 5) (im : BitVec 17) (kw : Option (BitVec 32)) (r : SysRegInfo),
     let n := immU17 im kw
     sysRegInfo n = some r →
     (s.guard gd = true → (r.atT = true ∨ s.me.atF = true) →
       exec (.movs gd d im kw) s = .next (s.postS d (s.sysRead n) 2) ∧
       (movzOk n = true → movzReserved n (s.s d) = false → n ≠ 0x011 → exec (.movz gd d im kw) s = .next (s.post (.sys n) (s.s d).toNat 1)) ∧
       (movzReserved n (s.s d) = false → n = 0x011 → ∃ t, exec (.movz gd d im kw) s = .next t ∧
         t.me = { s.me with ctl := { s.me.ctl with fstat := s.me.ctl.fstat &&& ~~~((s.s d).setWidth 6) } } ∧
         t = { s with threads := t.threads } ∧ ∀ k, k ≠ s.cur.tid → t.thread k = s.thread k) ∧
       (movzOk n = true → movzReserved n (s.s d) = true → (s.core (coreOf s.cur.tid)).snap = none → ∃ t, exec (.movz gd d im kw) s = .next t ∧
         t.me.ctl.cause = 0x02#8 ∧ t.me.regs = s.me.regs ∧ t.me.ctl.round = s.me.ctl.round ∧ t.me.ctl.fstat = s.me.ctl.fstat ∧
         t.me.ctl.stallchk = s.me.ctl.stallchk ∧ t.me.ctl.cmask = s.me.ctl.cmask)) ∧
     (r.atT = false → s.me.atF = false → (s.core (coreOf s.cur.tid)).snap = none →
       (∃ t, exec (.movs gd d im kw) s = .next t ∧ t.me.ctl.cause = 0x03#8 ∧ t.me.regs = s.me.regs) ∧
       (∃ t, exec (.movz gd d im kw) s = .next t ∧ t.me.ctl.cause = 0x03#8 ∧ t.me.regs = s.me.regs)) ∧
     (∀ x, movzOk n = true → movzReserved n x = false → n ≠ 0x011 → n < 0x030 → s.cur.src = s.cur.tid → (s.updMe (fun t => t.land (.sys n) x.toNat)).sysRead n = x) ∧
     (n = 0x000 → s.sysRead n = BitVec.ofNat 64 s.cur.src) ∧ (n = 0x001 → s.sysRead n = BitVec.ofNat 64 (s.cur.src / 4 % 8)) ∧
     (n = 0x002 → s.sysRead n = BitVec.ofNat 64 (s.cur.src / 32 % 32)) ∧ (n = 0x003 → s.sysRead n = BitVec.ofNat 64 (s.cur.src / 1024)) ∧
     (n = 0x006 → s.sysRead n = BitVec.ofNat 64 (s.src.dom.toNat + (if s.src.atF = true then 128 else 0))) ∧
     (n = 0x011 → s.sysRead n = s.src.ctl.fstat.setWidth 64))

/-- R74, R75, R77: the modes of n results under a rounding code. RST takes n values, the 16-bit quarters of ceil(n/4) draws, the lowest first; no other mode
draws.
R76: a draw of the thread generator, xoshiro256**, and its next state. -/
def Obligations.RoundingAndGenerator : Prop :=
  (∀ (s : State) (n : Nat),
     (∀ code, code ≠ 5 → s.modes code n = (fun _ => modeOf code 0, s)) ∧
     (∀ i, i < n →
       let x := nth 0 (s.draws64 ((n + 3) / 4)).1 (i / 4)
       (s.modes 5 n).1 i = .rst (x.toNat / 2 ^ (16 * (i % 4)) % 2 ^ 16)) ∧
     (s.modes 5 n).2 = (s.draws64 ((n + 3) / 4)).2 ∧
     (s.draws64 ((n + 3) / 4)).1.length = (n + 3) / 4) ∧
  (∀ (t : Thread),
     let s0 := tget 0 t.regs.seed 0
     let s1 := tget 0 t.regs.seed 1
     let s2 := tget 0 t.regs.seed 2
     let s3 := tget 0 t.regs.seed 3
     let u := t.draw.2
     t.draw.1 = ((s1 * 5).rotateLeft 7) * 9 ∧
     tget 0 u.regs.seed 0 = s0 ^^^ s1 ^^^ s3 ∧
     tget 0 u.regs.seed 1 = s0 ^^^ s1 ^^^ s2 ∧
     tget 0 u.regs.seed 2 = s0 ^^^ s2 ^^^ (s1 <<< 17) ∧
     tget 0 u.regs.seed 3 = (s1 ^^^ s3).rotateLeft 45 ∧
     u = { t with regs := { t.regs with seed := u.regs.seed } })

/-- R84, R122, R123: scalar FP32 arithmetic: the exact sum, difference, product or multiply-add rounded once in the instruction's mode, the flags joined to
$fstat, and the result zero-extended.
R84, R122, R124: minimum, maximum and comparison without rounding, and the conversions with 64-bit integers.
That a flag, and a MOVZ to $fstat, acts at issue is log entry 18. -/
def Obligations.ScalarFloat : Prop :=
  (∀ (s : State) (gd : Guard) (d a b : BitVec 5) (r : BitVec 4), s.guard gd = true →
     let md := (s.modes (s.roundCode4 r) 1).1 0
     let t := (s.modes (s.roundCode4 r) 1).2
     let x := Fp.f32 ((s.s a).setWidth 32)
     let y := Fp.f32 ((s.s b).setWidth 32)
     let z := Fp.f32 ((s.s d).setWidth 32)
     let done (v : Fp.Num × Fp.Flags) (fl : Fp.Flags) : State :=
       (t.flags (fl ||| v.2 ||| (Fp.fp32.round md v.1).2)).postS d ((BitVec.ofNat 32 (Fp.fp32.round md v.1).1).setWidth 64) 4
     exec (.fadd gd d a b r) s = .next (done (Fp.add md.isRdn x y) 0) ∧
     exec (.fsub gd d a b r) s = .next (done (Fp.add md.isRdn x y.negate) 0) ∧
     exec (.fmul gd d a b r) s = .next (done (Fp.mul x y) 0) ∧
     exec (.fma gd d a b r) s = .next (done (Fp.add md.isRdn (Fp.mul x y).1 z) (Fp.mul x y).2)) ∧
  (∀ (s : State) (gd : Guard) (d a b : BitVec 5), s.guard gd = true →
     let wx : Word := (s.s a).setWidth 32
     let wy : Word := (s.s b).setWidth 32
     let x := Fp.f32 wx
     let y := Fp.f32 wy
     let sig : Fp.Flags := if (x.isSnan || y.isSnan) = true then Fp.NV else 0
     let pick (small : Bool) : Word :=
       if (x.isNan && y.isNan) = true then 0x7FC00000#32 else if x.isNan = true then wy else if y.isNan = true then wx
       else if small = true then (if Fp.ltSigned y x = true then wy else wx) else (if Fp.ltSigned x y = true then wy else wx)
     exec (.fmin gd d a b) s = .next ((s.flags sig).postS d ((pick true).setWidth 64) 2) ∧
     exec (.fmax gd d a b) s = .next ((s.flags sig).postS d ((pick false).setWidth 64) 2) ∧
     (∀ c : BitVec 3, exec (.fcmp gd d a b c) s =
       .next ((s.flags (Fp.fcmp c.toNat wx wy).2).postG d (Fp.fcmp c.toNat wx wy).1 2)) ∧
     (∀ (u : BitVec 1) (r : BitVec 4),
       let md := (s.modes (s.roundCode4 r) 1).1 0
       let t := (s.modes (s.roundCode4 r) 1).2
       let lo : Int := if u = 1 then 0 else -(2 ^ 63)
       let hi : Int := if u = 1 then 2 ^ 64 - 1 else 2 ^ 63 - 1
       exec (.fcvti gd d a u r) s =
         .next ((t.flags (Fp.roundInt lo hi md x).2).postS d (BitVec.ofInt 64 (Fp.roundInt lo hi md x).1) 3) ∧
       (let f := Fp.fp32.round md (Fp.ofInt (if u = 1 then ((s.s a).toNat : Int) else (s.s a).toInt))
        exec (.fcvtf gd d a u r) s = .next ((t.flags f.2).postS d ((BitVec.ofNat 32 f.1).setWidth 64) 3))))

/-- R69, R70, R72 to R74: a value between the codes c and c + 1 of a format of Table 3-1 rounds to one of them as its mode says, with NX, and UF below the smallest normal; from
the largest finite value on it overflows by Table 3-4, with OF and NX; and to an integer likewise, saturating with SAT.
R69, R70: rounding is exact: the FP32, BF16 and FP16 code of a finite value that the format holds is the code it came from, in every mode and without a flag. -/
def Obligations.RoundingIsExact : Prop :=
  (∀ (md : Fp.Mode) (neg : Bool) (num den : Nat),
     let up (c r d : Nat) : Prop :=
       match md with
       | .rne => d < 2 * r ∨ (2 * r = d ∧ c % 2 = 1)
       | .rtz => False
       | .rup => neg = false
       | .rdn => neg = true
       | .rod => c % 2 = 0
       | .rst u => u < r * 65536 / d
     let toInf : Prop := md = .rne ∨ (md = .rup ∧ neg = false) ∨ (md = .rdn ∧ neg = true)
     (∀ (F : Fp.Fmt) (c m : Nat) (e : Int), (F = Fp.fp32 ∨ ∃ n, Fp.fmtOf n = some F) → F.decode c = .fin false m e → c ≤ F.maxCode →
       let a := num * 2 ^ (-e).toNat
       let b := den * 2 ^ e.toNat
       let sg := if neg = true then 2 ^ (F.exp + F.frac) else 0
       let flow : Nat × Fp.Flags := (sg + (if F.spec = .ieee ∧ toInf then F.infCode else F.maxCode), Fp.OF ||| Fp.NX)
       0 < b →
       (m * b < a → a < (m + 1) * b →
         (¬ up c (a - m * b) b → F.roundQ md neg num den = (sg + c, Fp.NX ||| (if c < 2 ^ F.frac then Fp.UF else 0))) ∧
         (up c (a - m * b) b → c < F.maxCode →
           F.roundQ md neg num den = (sg + (c + 1), Fp.NX ||| (if c + 1 < 2 ^ F.frac then Fp.UF else 0))) ∧
         (up c (a - m * b) b → c = F.maxCode → F.roundQ md neg num den = flow)) ∧
       (c = F.maxCode → (m + 1) * b ≤ a → F.roundQ md neg num den = flow)) ∧
     (∀ (F : Fp.Fmt) (n : Nat) (k : Int), F.round md (.fin neg n k) = F.roundQ md neg (n * 2 ^ k.toNat) (2 ^ (-k).toNat)) ∧
     (∀ (lo hi : Int) (n r d : Nat), 0 < r → r < d →
       let v (k : Nat) : Int := if neg = true then -(k : Int) else k
       let fits (x : Int) : Int × Fp.Flags := if x < lo then (lo, Fp.OF ||| Fp.NX ||| Fp.SAT) else if hi < x then (hi, Fp.OF ||| Fp.NX ||| Fp.SAT) else (x, Fp.NX)
       (¬ up n r d → Fp.roundIntQ lo hi md neg (n * d + r) d = fits (v n)) ∧
       (up n r d → Fp.roundIntQ lo hi md neg (n * d + r) d = fits (v (n + 1))))) ∧
  (∀ (md : Fp.Mode) (c : Nat),
     (c % 2 ^ 31 < 0x7F800000 → c < 2 ^ 32 → Fp.fp32.round md (Fp.fp32.decode c) = (c, 0)) ∧
     (c % 2 ^ 15 < 0x7F80 → c < 2 ^ 16 → Fp.bf16.round md (Fp.bf16.decode c) = (c, 0)) ∧
     (c % 2 ^ 15 < 0x7C00 → c < 2 ^ 16 → Fp.fp16.round md (Fp.fp16.decode c) = (c, 0)))

/-! ## The V slot -/

/-- R127, R131: integer lanes under a mask: VADD, VSUB and VMAD are exact and then wrap, or saturate as INT32 or UINT32 and set SAT; VMUL and VMULH give the low and
the high half of the product. The second operand is v[b], or s[b][31:0] in every lane when SB = 1.
R127, R131, R132, R134: logic, shifts, minimum, maximum and absolute value of lanes, and selection by a mask register.
That a flag, and a MOVZ to $fstat, acts at issue is log entry 18. -/
def Obligations.VectorIntegers : Prop :=
  (∀ (s : State) (gd : Guard) (d a b : BitVec 5) (e : BitVec 1) (z : BitVec 1) (k : BitVec 3), s.guard gd = true →
     let x (i : Nat) : Word := lane (s.v a) i
     let y (i : Nat) : Word := if e = 1 then (s.s b).setWidth 32 else lane (s.v b) i
     (∀ sf : BitVec 2, sf ≠ 3 →
       let rd (w : Word) : Int := if sf = 2 then (w.toNat : Int) else w.toInt
       let lo : Int := if sf = 2 then 0 else -(2 ^ 31)
       let hi : Int := if sf = 2 then 2 ^ 32 - 1 else 2 ^ 31 - 1
       let lands (exact : Nat → Int) (lat : Nat) (t : Host.Outcome State Fault Refusal) : Prop :=
         ∃ r : VecReg, MaskedLanes s d z k (fun i => if sf = 0 then BitVec.ofInt 32 (exact i) else BitVec.ofInt 32 (Max.max lo (Min.min hi (exact i)))) r ∧
           t = .next ((s.flags (activeFlags s k (fun i => if sf ≠ 0 ∧ (exact i < lo ∨ hi < exact i) then Fp.SAT else 0))).postV d r lat)
       lands (fun i => rd (x i) + rd (y i)) 2 (exec (.vadd gd d a b e sf z k) s) ∧
       lands (fun i => rd (x i) - rd (y i)) 2 (exec (.vsub gd d a b e sf z k) s) ∧
       lands (fun i => rd (lane (s.v d) i) + rd (x i) * rd (y i)) 4 (exec (.vmad gd d a b e sf z k) s)) ∧
     (∃ r : VecReg, MaskedLanes s d z k (fun i => x i * y i) r ∧ exec (.vmul gd d a b e z k) s = .next ((s.flags 0).postV d r 4)) ∧
     (∃ r : VecReg, MaskedLanes s d z k (fun i => BitVec.ofInt 32 ((x i).toInt * (y i).toInt / 2 ^ 32)) r ∧
       exec (.vmulh gd d a b e 0 z k) s = .next ((s.flags 0).postV d r 4)) ∧
     (∃ r : VecReg, MaskedLanes s d z k (fun i => BitVec.ofNat 32 ((x i).toNat * (y i).toNat / 2 ^ 32)) r ∧
       exec (.vmulh gd d a b e 1 z k) s = .next ((s.flags 0).postV d r 4))) ∧
  (∀ (s : State) (gd : Guard) (d a b : BitVec 5) (e : BitVec 1) (z : BitVec 1) (k : BitVec 3), s.guard gd = true →
     let x (i : Nat) : Word := lane (s.v a) i
     let y (i : Nat) : Word := if e = 1 then (s.s b).setWidth 32 else lane (s.v b) i
     let lands (f : Nat → Word) (fl : Fp.Flags) (t : Host.Outcome State Fault Refusal) : Prop :=
       ∃ r : VecReg, MaskedLanes s d z k f r ∧ t = .next ((s.flags fl).postV d r 2)
     lands (fun i => x i &&& y i) 0 (exec (.vand gd d a b e z k) s) ∧
     lands (fun i => x i ||| y i) 0 (exec (.vor gd d a b e z k) s) ∧
     lands (fun i => x i ^^^ y i) 0 (exec (.vxor gd d a b e z k) s) ∧
     lands (fun i => x i <<< ((y i).toNat % 32)) 0 (exec (.vshl gd d a b e z k) s) ∧
     lands (fun i => x i >>> ((y i).toNat % 32)) 0 (exec (.vshr gd d a b e z k) s) ∧
     lands (fun i => (x i).sshiftRight ((y i).toNat % 32)) 0 (exec (.vsar gd d a b e z k) s) ∧
     lands (fun i => BitVec.ofInt 32 (Min.min (x i).toInt (y i).toInt)) 0 (exec (.vmin gd d a b e 0 z k) s) ∧
     lands (fun i => BitVec.ofNat 32 (Min.min (x i).toNat (y i).toNat)) 0 (exec (.vmin gd d a b e 1 z k) s) ∧
     lands (fun i => BitVec.ofInt 32 (Max.max (x i).toInt (y i).toInt)) 0 (exec (.vmax gd d a b e 0 z k) s) ∧
     lands (fun i => BitVec.ofNat 32 (Max.max (x i).toNat (y i).toNat)) 0 (exec (.vmax gd d a b e 1 z k) s) ∧
     lands (fun i => BitVec.ofInt 32 (Min.min (2 ^ 31 - 1) ((x i).toInt.natAbs : Int)))
       (activeFlags s k (fun i => if x i = 0x80000000#32 then Fp.SAT else 0)) (exec (.vabs gd d a 0 z k) s) ∧
     lands (fun i => if (Fp.f32 (x i)).isNan = true then 0x7FC00000#32 else x i &&& 0x7FFFFFFF#32)
       (activeFlags s k (fun i => if (Fp.f32 (x i)).isSnan = true then Fp.NV else 0)) (exec (.vabs gd d a 1 z k) s) ∧
     (∀ (c : BitVec 1) (q : BitVec 3), ∃ r : VecReg, exec (.vsel gd d a b c q) s = .next (s.postV d r 2) ∧
       ∀ i, i < 32 → lane r i = if ((s.m q).getLsbD i ^^ decide (c = 1)) = true then lane (s.v a) i else lane (s.v b) i))

/-- R133, R135, R136: comparisons into mask registers, functions of mask registers, and their moves to and from scalar registers.
That a flag, and a MOVZ to $fstat, acts at issue is log entry 18. -/
def Obligations.MaskRegisters : Prop :=
  ∀ (s : State) (gd : Guard) (d a b : BitVec 5), s.guard gd = true →
    (∀ (c : BitVec 3) (z : BitVec 1) (k : BitVec 3), ∃ r : Word,
      exec (.vcmp gd d a b c z k) s = .next ((s.flags 0).postM d r 2) ∧
      ∀ i, i < 32 → r.getLsbD i =
        if (s.m k).getLsbD i = true then
          (match c.toNat with
            | 0 => lane (s.v a) i == lane (s.v b) i
            | 1 => lane (s.v a) i != lane (s.v b) i
            | 2 => decide ((lane (s.v a) i).toInt < (lane (s.v b) i).toInt)
            | 3 => decide ((lane (s.v b) i).toInt ≤ (lane (s.v a) i).toInt)
            | 4 => decide ((lane (s.v a) i).toNat < (lane (s.v b) i).toNat)
            | _ => decide ((lane (s.v b) i).toNat ≤ (lane (s.v a) i).toNat))
        else if z = 1 then false else (s.m d).getLsbD i) ∧
    (∀ (c : BitVec 3) (z : BitVec 1) (k : BitVec 3), ∃ r : Word,
      exec (.vfcmp gd d a b c z k) s =
        .next ((s.flags (activeFlags s k (fun i => (Fp.fcmp c.toNat (lane (s.v a) i) (lane (s.v b) i)).2))).postM d r 3) ∧
      ∀ i, i < 32 → r.getLsbD i =
        if (s.m k).getLsbD i = true then (Fp.fcmp c.toNat (lane (s.v a) i) (lane (s.v b) i)).1
        else if z = 1 then false else (s.m d).getLsbD i) ∧
    exec (.vmop gd d a b 0) s = .next (s.postM d (s.m a &&& s.m b) 2) ∧
    exec (.vmop gd d a b 1) s = .next (s.postM d (s.m a ||| s.m b) 2) ∧
    exec (.vmop gd d a b 2) s = .next (s.postM d (s.m a ^^^ s.m b) 2) ∧
    exec (.vmop gd d a b 3) s = .next (s.postM d (s.m a &&& ~~~(s.m b)) 2) ∧
    exec (.vmop gd d a b 4) s = .next (s.postM d (s.m a ||| ~~~(s.m b)) 2) ∧
    exec (.vmop gd d a b 5) s = .next (s.postM d (~~~(s.m a &&& s.m b)) 2) ∧
    exec (.vmop gd d a b 6) s = .next (s.postM d (~~~(s.m a ||| s.m b)) 2) ∧
    exec (.vmop gd d a b 7) s = .next (s.postM d (~~~(s.m a ^^^ s.m b)) 2) ∧
    (∃ r : Word, exec (.vmop gd d a b 8) s = .next (s.postM d r 2) ∧
      ∀ i, i < 32 → (r.getLsbD i = true ↔ ((s.m a).getLsbD i = true ∧ ∀ j, j < i → (s.m a).getLsbD j = false))) ∧
    exec (.vmpopPopc gd d a) s = .next (s.postS d (BitVec.ofNat 64 ((List.range 32).filter (fun i => (s.m a).getLsbD i)).length) 2) ∧
    (∃ n : Nat, exec (.vmpopFfs gd d a) s = .next (s.postS d (BitVec.ofNat 64 n) 2) ∧ n ≤ 32 ∧
      (∀ i, i < n → (s.m a).getLsbD i = false) ∧ (n < 32 → (s.m a).getLsbD n = true)) ∧
    exec (.vmpopGet gd d a) s = .next (s.postS d ((s.m a).setWidth 64) 2) ∧
    exec (.vmpopSet gd d a) s = .next (s.postM d ((s.s a).setWidth 32) 2)

/-- R137, R138: FP32 lanes: each active lane is the exact result rounded once in its own mode, and raises its own flags; the approximations have the
latency 8 and the result of their table of special operands.
R138, Table 5-5a: the approximations of an FP32 lane: their special operands, their exact cases and range limits; 1/x and 1/sqrt(x) are one of the two values that bracket
the exact result, in units of 2^-149.
Which of the two bracketing values an approximation gives is a free value (log entry 3). That a flag, and a MOVZ to $fstat, acts at issue is log entry 18. -/
def Obligations.VectorFloat : Prop :=
  (∀ (s : State) (gd : Guard) (d a b : BitVec 5) (rm : BitVec 3) (z : BitVec 1) (k : BitVec 3), s.guard gd = true →
     let md (i : Nat) : Fp.Mode := (s.modes (s.roundCode3 rm) 32).1 i
     let t := (s.modes (s.roundCode3 rm) 32).2
     let lands (u : State) (f : Nat → Word × Fp.Flags) (lat : Nat) (o : Host.Outcome State Fault Refusal) : Prop :=
       ∃ r : VecReg, MaskedLanes u d z k (fun i => (f i).1) r ∧ o = .next ((u.flags (activeFlags u k (fun i => (f i).2))).postV d r lat)
     lands t (fun i => Fp.fadd (md i) (lane (s.v a) i) (lane (s.v b) i)) 5 (exec (.vfadd gd d a b rm z k) s) ∧
     lands t (fun i => Fp.fsub (md i) (lane (s.v a) i) (lane (s.v b) i)) 5 (exec (.vfsub gd d a b rm z k) s) ∧
     lands t (fun i => Fp.fmul (md i) (lane (s.v a) i) (lane (s.v b) i)) 5 (exec (.vfmul gd d a b rm z k) s) ∧
     lands t (fun i => Fp.fma (md i) (lane (s.v a) i) (lane (s.v b) i) (lane (s.v d) i)) 5 (exec (.vfma gd d a b rm z k) s) ∧
     lands s (fun i => Fp.fminmax false (lane (s.v a) i) (lane (s.v b) i)) 3 (exec (.vfmin gd d a b z k) s) ∧
     lands s (fun i => Fp.fminmax true (lane (s.v a) i) (lane (s.v b) i)) 3 (exec (.vfmax gd d a b z k) s) ∧
     lands s (fun i => Fp.approx 0 (lane (s.v a) i)) 8 (exec (.vrcp gd d a z k) s) ∧
     lands s (fun i => Fp.approx 1 (lane (s.v a) i)) 8 (exec (.vrsq gd d a z k) s) ∧
     lands s (fun i => Fp.approx 2 (lane (s.v a) i)) 8 (exec (.vexp2 gd d a z k) s) ∧
     lands s (fun i => Fp.approx 3 (lane (s.v a) i)) 8 (exec (.vlog2 gd d a z k) s)) ∧
  (let units (c : Nat) : Nat := match Fp.fp32.decode c with | .fin _ m e => m * 2 ^ (e + 149).toNat | _ => 0
   let nan : Word := 0x7FC00000#32
   let inf : Word := 0x7F800000#32
   let ninf : Word := 0xFF800000#32
   (∀ (x : Word) (op : Nat), (Fp.f32 x).isNan = true → Fp.approx op x = (nan, if (Fp.f32 x).isSnan = true then Fp.NV else 0)) ∧
   Fp.approx 0 0 = (inf, Fp.DZ) ∧ Fp.approx 0 0x80000000#32 = (ninf, Fp.DZ) ∧ Fp.approx 0 inf = (0, 0) ∧ Fp.approx 0 ninf = (0x80000000#32, 0) ∧
   Fp.approx 1 0 = (inf, Fp.DZ) ∧ Fp.approx 1 0x80000000#32 = (ninf, Fp.DZ) ∧ Fp.approx 1 inf = (0, 0) ∧ Fp.approx 1 ninf = (nan, Fp.NV) ∧
   Fp.approx 2 0 = (0x3F800000#32, 0) ∧ Fp.approx 2 0x80000000#32 = (0x3F800000#32, 0) ∧ Fp.approx 2 inf = (inf, 0) ∧ Fp.approx 2 ninf = (0, 0) ∧
   Fp.approx 3 0 = (ninf, Fp.DZ) ∧ Fp.approx 3 0x80000000#32 = (ninf, Fp.DZ) ∧ Fp.approx 3 inf = (inf, 0) ∧ Fp.approx 3 ninf = (nan, Fp.NV) ∧
   (∀ (x : Word) (m : Nat) (e : Int), Fp.f32 x = .fin true m e → m ≠ 0 → Fp.approx 1 x = (nan, Fp.NV) ∧ Fp.approx 3 x = (nan, Fp.NV)) ∧
   (∀ (x : Word) (neg : Bool) (m : Nat) (e : Int), Fp.f32 x = .fin neg m e → m ≠ 0 →
     let X := m * 2 ^ (e + 149).toNat
     let c := (Fp.approx 0 x).1.toNat % 2 ^ 31
     (Fp.approx 0 x).1.getLsbD 31 = neg ∧
     (X < 2 ^ 21 → c = 0x7F800000 ∧ (Fp.approx 0 x).2 = Fp.OF ||| Fp.NX) ∧
     (2 ^ 21 < X → c < 0x7F800000 ∧ (units c * X = 2 ^ 298 ∨ (units (c - 1) * X < 2 ^ 298 ∧ 2 ^ 298 < units (c + 1) * X)) ∧
       (((Fp.approx 0 x).2 &&& Fp.NX = 0) ↔ units c * X = 2 ^ 298)) ∧
     (neg = false →
       let r := (Fp.approx 1 x).1.toNat
       r < 0x7F800000 ∧ (units r * units r * X = 2 ^ 447 ∨ (units (r - 1) * units (r - 1) * X < 2 ^ 447 ∧ 2 ^ 447 < units (r + 1) * units (r + 1) * X)) ∧
       (((Fp.approx 1 x).2 &&& Fp.NX = 0) ↔ units r * units r * X = 2 ^ 447)) ∧
     (neg = false → 2 ^ 156 ≤ X → Fp.approx 2 x = (inf, Fp.OF ||| Fp.NX)) ∧
     (neg = true → 150 * 2 ^ 149 < X → Fp.approx 2 x = (0, Fp.UF ||| Fp.NX))) ∧
   (∀ n : Int, -126 ≤ n → n ≤ 127 →
     Fp.approx 2 (Fp.ofIntF .rne n).1 = (BitVec.ofNat 32 ((n + 127).toNat * 2 ^ 23), 0) ∧
     Fp.approx 3 (BitVec.ofNat 32 ((n + 127).toNat * 2 ^ 23)) = ((Fp.ofIntF .rne n).1, 0)))

/-- R139: VCVT packs 32 elements into part p of v[d] and keeps the other bits, or widens part p of v[a] exactly to 32 lanes; `.fi` and `.if` convert whole lanes
between FP32 and INT32. Each element is rounded or saturated as its format says.
R140: the block scale VBSC chooses, and quantisation and dequantisation by block scales. A block is all lanes, or with H = 1 each half.
That a flag, and a MOVZ to $fstat, acts at issue is log entry 18. -/
def Obligations.FormatsAndBlockScales : Prop :=
  (∀ (s : State) (gd : Guard) (d a p : BitVec 5) (rm : BitVec 3) (f : BitVec 4), s.guard gd = true →
     let u := if vcvtRounds f = true then (s.modes (s.roundCode3 rm) 32).2 else s
     let md (i : Nat) : Fp.Mode := if vcvtRounds f = true then (s.modes (s.roundCode3 rm) 32).1 i else .rne
     let w := fmtWidth f
     let x (i : Nat) : Word := lane (s.v a) i
     (f.toNat < 12 → 32 * w * p.toNat + 32 * w ≤ 1024 → ∃ r : VecReg,
       exec (.vcvt gd d a p rm f) s =
         .next ((u.flags (joinFlags ((List.range 32).map (fun i => (packElem f.toNat (md i) (x i)).2)))).postV d r 6) ∧
       r.toNat / 2 ^ (32 * w * p.toNat) % 2 ^ (32 * w) = packBits w ((List.range 32).map (fun i => (packElem f.toNat (md i) (x i)).1)) % 2 ^ (32 * w) ∧
       ∀ i, i < 32 * w * p.toNat ∨ 32 * w * p.toNat + 32 * w ≤ i → r.getLsbD i = (s.v d).getLsbD i) ∧
     (f = 12 → ∃ r : VecReg,
       exec (.vcvt gd d a p rm f) s = .next ((u.flags (joinFlags ((List.range 32).map (fun i => (Fp.toInt false 32 (md i) (x i)).2)))).postV d r 6) ∧
       ∀ i, i < 32 → lane r i = BitVec.ofNat 32 (Fp.toInt false 32 (md i) (x i)).1) ∧
     (f = 13 → ∃ r : VecReg,
       exec (.vcvt gd d a p rm f) s = .next ((u.flags (joinFlags ((List.range 32).map (fun i => (Fp.ofIntF (md i) (x i).toInt).2)))).postV d r 6) ∧
       ∀ i, i < 32 → lane r i = (Fp.ofIntF (md i) (x i).toInt).1) ∧
     (∃ r : VecReg,
       let el (i : Nat) : Nat := (s.v a).toNat / 2 ^ (32 * w * p.toNat + w * i) % 2 ^ w
       exec (.vcvtWide gd d a p f) s = .next ((s.flags (joinFlags ((List.range 32).map (fun i => (wideElem f.toNat (el i)).2)))).postV d r 6) ∧
       ∀ i, i < 32 → lane r i = (wideElem f.toNat (el i)).1)) ∧
  (∀ (s : State) (gd : Guard) (d a b : BitVec 5) (rm : BitVec 3) (f : BitVec 3), s.guard gd = true →
     let fc := f.toNat + 2
     let w := fmtWidth (BitVec.ofNat 4 fc)
     let u := (s.modes (s.roundCode3 rm) 32).2
     let md := (s.modes (s.roundCode3 rm) 32).1
     let xs := (List.range 32).map (lane (s.v a))
     let finite (l : List Word) : Bool := l.all (fun x => !(Fp.f32 x).isNan && decide (x.toNat % 2 ^ 31 ≠ 0x7F800000))
     (finite xs = true → ∃ c0 : Nat, SmallestScale fc xs c0 ∧
       exec (.vbsc gd d a 0 f) s = .next ((s.flags 0).postV d (BitVec.ofNat 1024 c0) 6)) ∧
     (finite xs = false → exec (.vbsc gd d a 0 f) s = .next ((s.flags Fp.NV).postV d (BitVec.ofNat 1024 0xFFF) 6)) ∧
     (finite xs = true → ∃ c0 c1 : Nat, SmallestScale fc (xs.take 16) c0 ∧ SmallestScale fc (xs.drop 16) c1 ∧
       exec (.vbsc gd d a 1 f) s = .next ((s.flags 0).postV d (BitVec.ofNat 1024 (c0 + c1 * 2 ^ 32)) 6)) ∧
     (∀ h : BitVec 1,
       let code (i : Nat) : Nat := (lane (s.v b) (if h = 1 ∧ 16 ≤ i then 1 else 0)).toNat % 2 ^ 12
       let q (i : Nat) := quantElem fc (md i) (lane (s.v a) i) (Fp.ue8m4 (code i))
       exec (.vqnt gd d a b rm h f) s = .next ((u.flags (joinFlags ((List.range 32).map (fun i => (q i).2)))).postV d
         (BitVec.ofNat 1024 (packBits w ((List.range 32).map (fun i => (q i).1)))) 6) ∧
       (let y (i : Nat) := scaled (fc == 7 || fc == 8) (elemNum fc ((s.v a).toNat / 2 ^ (w * i) % 2 ^ w)) (Fp.ue8m4 (code i))
        ∃ r : VecReg, exec (.vdqnt gd d a b rm h f) s =
           .next ((u.flags (joinFlags ((List.range 32).map (fun i => (y i).2 ||| (Fp.fp32.round (md i) (y i).1).2)))).postV d r 6) ∧
         ∀ i, i < 32 → lane r i = BitVec.ofNat 32 (Fp.fp32.round (md i) (y i).1).1)))

/-- R141: permutation, broadcast, slide and rotation, index vectors, and moves of a lane to and from a scalar register. -/
def Obligations.MovingLanes : Prop :=
  ∀ (s : State) (gd : Guard) (d a b : BitVec 5), s.guard gd = true →
    (∀ (z : BitVec 1) (k : BitVec 3),
      (∃ r : VecReg, MaskedLanes s d z k (fun i => lane (s.v a) ((lane (s.v b) i).toNat % 32)) r ∧
        exec (.vperm gd d a b z k) s = .next ((s.flags 0).postV d r 2)) ∧
      (∃ r : VecReg, MaskedLanes s d z k (fun _ => (s.s a).setWidth 32) r ∧
        exec (.vbcast gd d a b 0 z k) s = .next ((s.flags 0).postV d r 2)) ∧
      (∃ r : VecReg, MaskedLanes s d z k (fun _ => lane (s.v a) b.toNat) r ∧
        exec (.vbcast gd d a b 1 z k) s = .next ((s.flags 0).postV d r 2))) ∧
    (∀ n : BitVec 6,
      (∃ r : VecReg, exec (.vslide gd d a 0 n) s = .next (s.postV d r 2) ∧
        ∀ i : Nat, i < 32 → lane r i = if 0 ≤ (i : Int) + n.toInt ∧ (i : Int) + n.toInt < 32 then lane (s.v a) ((i : Int) + n.toInt).toNat else 0) ∧
      (∃ r : VecReg, exec (.vslide gd d a 1 n) s = .next (s.postV d r 2) ∧
        ∀ i : Nat, i < 32 → lane r i = lane (s.v a) (((i : Int) + n.toInt) % 32).toNat)) ∧
    (∀ (im : BitVec 12) (kw : Option (BitVec 32)), ∃ r : VecReg, exec (.viota gd d a im kw) s = .next (s.postV d r 2) ∧
      ∀ i, i < 32 → lane r i = (s.s a).setWidth 32 + BitVec.ofNat 32 i * (immS12 im kw).setWidth 32) ∧
    (∀ l : BitVec 5,
      exec (.vmovs gd d a 0 l) s = .next (s.postS d ((lane (s.v a) l.toNat).signExtend 64) 2) ∧
      exec (.vmovs gd d a 1 l) s = .next (s.postS d ((lane (s.v a) l.toNat).setWidth 64) 2) ∧
      ∃ r : VecReg, exec (.vins gd d a l) s = .next (s.postV d r 2) ∧
        ∀ i, i < 32 → lane r i = if i = l.toNat then (s.s a).setWidth 32 else lane (s.v d) i)

/-- R142: reductions of the active lanes into lane 0, the other lanes 0: sum, least, greatest, and, or, exclusive or, and for FP32 the exact sum rounded once.
R142: VSCAN gives each active lane the reduction of the active lanes up to it, or with X = 1 of those before it; the other lanes keep the destination.
A sum of no lane under RDN, and .fmin and .fmax over several lanes, follow log entries 27 and 28. That a flag, and a MOVZ to $fstat, acts at issue is log entry 18. -/
def Obligations.ReductionsAndScans : Prop :=
  (∀ (s : State) (gd : Guard) (d a : BitVec 5) (k : BitVec 3), s.guard gd = true →
     let xs := (activeLanes s k).map (lane (s.v a))
     let lands (p : BitVec 4) (x : Word) : Prop := exec (.vred gd d a p k) s = .next ((s.flags 0).postV d (BitVec.ofNat 1024 x.toNat) 6)
     (∃ x : Word, lands 0 x ∧ x = xs.foldr (· + ·) 0) ∧
     (∃ x : Word, lands 1 x ∧ (xs ≠ [] → x ∈ xs ∧ ∀ y ∈ xs, x.toInt ≤ y.toInt) ∧ (xs = [] → x = 0x7FFFFFFF#32)) ∧
     (∃ x : Word, lands 2 x ∧ (xs ≠ [] → x ∈ xs ∧ ∀ y ∈ xs, y.toInt ≤ x.toInt) ∧ (xs = [] → x = 0x80000000#32)) ∧
     (∃ x : Word, lands 3 x ∧ (xs ≠ [] → x ∈ xs ∧ ∀ y ∈ xs, x.toNat ≤ y.toNat) ∧ (xs = [] → x = 0xFFFFFFFF#32)) ∧
     (∃ x : Word, lands 4 x ∧ (xs ≠ [] → x ∈ xs ∧ ∀ y ∈ xs, y.toNat ≤ x.toNat) ∧ (xs = [] → x = 0)) ∧
     (∃ x : Word, lands 5 x ∧ ∀ i, i < 32 → (x.getLsbD i = true ↔ ∀ y ∈ xs, y.getLsbD i = true)) ∧
     (∃ x : Word, lands 6 x ∧ ∀ i, i < 32 → (x.getLsbD i = true ↔ ∃ y ∈ xs, y.getLsbD i = true)) ∧
     (∃ x : Word, lands 7 x ∧ x = xs.foldr (· ^^^ ·) 0) ∧
     (let md := (s.modes s.src.ctl.round.toNat 1).1 0
      let u := (s.modes s.src.ctl.round.toNat 1).2
      let v := (xs.foldl Fp.SumAcc.push Fp.SumAcc.zero).vred md
      exec (.vred gd d a 8 k) s = .next ((u.flags v.2).postV d (BitVec.ofNat 1024 v.1.toNat) 6)) ∧
     exec (.vred gd d a 9 k) s = .next ((s.flags (foldMinMax false xs).2).postV d (BitVec.ofNat 1024 (foldMinMax false xs).1.toNat) 6) ∧
     exec (.vred gd d a 10 k) s = .next ((s.flags (foldMinMax true xs).2).postV d (BitVec.ofNat 1024 (foldMinMax true xs).1.toNat) 6)) ∧
  (∀ (s : State) (gd : Guard) (d a : BitVec 5) (x : BitVec 1) (p : BitVec 4) (k : BitVec 3), s.guard gd = true →
     let u := if p = 8 then (s.modes s.src.ctl.round.toNat 32).2 else s
     let md (i : Nat) : Fp.Mode := if p = 8 then (s.modes s.src.ctl.round.toNat 32).1 i else .rne
     let v (i : Nat) := reduceLanes p.toNat (md i) (((activeLanes s k).filter (fun j => decide (j < i ∨ (x = 0 ∧ j = i)))).map (lane (s.v a)))
     ∃ r : VecReg, MaskedLanes u d 0 k (fun i => (v i).1) r ∧
       exec (.vscan gd d a x p k) s = .next ((u.flags (activeFlags u k (fun i => (v i).2))).postV d r 6))

/-- R143, R144, R145: random lanes from the thread generator, pruning by a threshold, and the N largest magnitudes of each 16 lanes.
That a flag, and a MOVZ to $fstat, acts at issue is log entry 18. -/
def Obligations.RandomAndSparse : Prop :=
  ∀ (s : State) (gd : Guard) (d a b : BitVec 5), s.guard gd = true →
    (∀ (z : BitVec 1) (k : BitVec 3),
      (∃ r : VecReg, MaskedLanes (s.draws64 16).2 d z k
          (fun i => BitVec.ofNat 32 ((nth 0 (s.draws64 16).1 (i / 2)).toNat / 2 ^ (32 * (i % 2)))) r ∧
        exec (.vrng gd d 0 z k) s = .next (((s.draws64 16).2.flags 0).postV d r 3)) ∧
      (∃ r : VecReg, MaskedLanes (s.draws16 32).2 d z k (fun i => BitVec.ofNat 32 (nth 0 (s.draws16 32).1 i)) r ∧
        exec (.vrng gd d 1 z k) s = .next (((s.draws16 32).2.flags 0).postV d r 3)) ∧
      (∃ r : VecReg, MaskedLanes (s.draws64 16).2 d z k
          (fun i => unitFloat ((nth 0 (s.draws64 16).1 (i / 2)).toNat / 2 ^ (32 * (i % 2)) % 2 ^ 32)) r ∧
        exec (.vrng gd d 2 z k) s = .next (((s.draws64 16).2.flags 0).postV d r 3)) ∧
      (let p (i : Nat) := pruneLane ((s.s b).setWidth 32) (lane (s.v a) i) (nth 0 (s.draws16 32).1 i)
       ∃ r : VecReg, MaskedLanes (s.draws16 32).2 d z k (fun i => (p i).1) r ∧
        exec (.vprune gd d a b z k) s =
          .next (((s.draws16 32).2.flags (activeFlags (s.draws16 32).2 k (fun i => (p i).2))).postV d r 6))) ∧
    (∀ (tau x : Word) (u m n : Nat) (e f : Int) (neg : Bool),
      Fp.f32 tau = .fin false m e → m ≠ 0 → Fp.f32 x = .fin neg n f →
        (pruneLane tau x u).2 = 0 ∧
        (ltDyadic n f m e = false → (pruneLane tau x u).1 = x) ∧
        (ltDyadic n f m e = true → (pruneLane tau x u).1 =
          if u < n * 2 ^ (f - Min.min e f).toNat * 65536 / (m * 2 ^ (e - Min.min e f).toNat)
          then BitVec.ofNat 32 (tau.toNat + (if neg = true then 2 ^ 31 else 0)) else 0)) ∧
    (∀ (i : BitVec 1) (sf : BitVec 2), ∃ (r : VecReg) (q : Word),
      exec (.vnm gd d a b i sf) s = .next ((s.postV d r 6).postM b q 6) ∧
      (∀ j, j < 32 → lane r j = nth 0 (((List.range 32).filter (fun n => q.getLsbD n)).map (lane (s.v a))) j) ∧
      ∀ base, base = 0 ∨ base = 16 →
        (((List.range 16).map (base + ·)).filter (fun n => q.getLsbD n)).length = 2 ^ (sf.toNat + 1) ∧
        ∀ j l, base ≤ j → j < base + 16 → base ≤ l → l < base + 16 → q.getLsbD j = true → q.getLsbD l = false →
          nmMagnitude (i == 1) (lane (s.v a) l) < nmMagnitude (i == 1) (lane (s.v a) j) ∨
          (nmMagnitude (i == 1) (lane (s.v a) l) = nmMagnitude (i == 1) (lane (s.v a) j) ∧ j < l))

/-- R44, R45: the pair word acts as its scalar half in slot S and then its vector half in slot V, each the full form of Table 2-6 with FN = 0, under one guard. -/
def Obligations.PairWord : Prop :=
  ∀ (s : State) (gd : Guard) (sop vop : BitVec 4) (d a b x y z : BitVec 3), s.guard gd = true →
    let g0 : Guard := ⟨false, 0⟩
    let d' : BitVec 5 := d.setWidth 5
    let a' : BitVec 5 := a.setWidth 5
    let b' : BitVec 5 := b.setWidth 5
    let x' : BitVec 5 := x.setWidth 5
    let y' : BitVec 5 := y.setWidth 5
    let z' : BitVec 5 := z.setWidth 5
    let full : Instr := match sop.toNat with
      | 0 => .add g0 d' a' b' 0 | 1 => .sub g0 d' a' b' 0 | 2 => .andS g0 d' a' b' | 3 => .orS g0 d' a' b' | 4 => .xorS g0 d' a' b'
      | 5 => .andn g0 d' a' b' | 6 => .shl g0 d' a' b' | 7 => .shr g0 d' a' b' | 8 => .sar g0 d' a' b' | 9 => .min g0 d' a' b'
      | 10 => .max g0 d' a' b' | 11 => .minu g0 d' a' b' | 12 => .maxu g0 d' a' b' | 13 => .mul g0 d' a' b' 0
      | 14 => .addi g0 d' a' (b.signExtend 12) none | _ => .shli g0 d' a' (b.setWidth 12) none
    let vec : Instr := match vop.toNat with
      | 0 => .vadd g0 x' y' z' 0 0 0 0 | 1 => .vsub g0 x' y' z' 0 0 0 0 | 2 => .vmul g0 x' y' z' 0 0 0 | 3 => .vand g0 x' y' z' 0 0 0
      | 4 => .vor g0 x' y' z' 0 0 0 | 5 => .vxor g0 x' y' z' 0 0 0 | 6 => .vshl g0 x' y' z' 0 0 0 | 7 => .vshr g0 x' y' z' 0 0 0
      | 8 => .vsar g0 x' y' z' 0 0 0 | 9 => .vmin g0 x' y' z' 0 0 0 0 | 10 => .vmax g0 x' y' z' 0 0 0 0 | 11 => .vfadd g0 x' y' z' 0 0 0
      | 12 => .vfsub g0 x' y' z' 0 0 0 | 13 => .vfmul g0 x' y' z' 0 0 0 | 14 => .vfmin g0 x' y' z' 0 0 | _ => .vfmax g0 x' y' z' 0 0
    ∃ u t : State, exec full (s.inSlot 1) = .next u ∧ exec vec (u.inSlot 2) = .next t ∧
      exec (.pairWord gd sop d a b vop x y z) s = .next (t.inSlot s.cur.slot)

/-! ## The Y slot -/

/-- R146, Table 6-1: the order of keys: INT32, UINT32, and FP32 with -0 below +0 and every NaN equal and above all others.
R147, R151, R152, R153: YSORT, YMERGE and YRANK give the one permutation of their entries that is in order and keeps the input order of equals; the
payloads move with their keys. -/
def Obligations.KeyOrderAndSorting : Prop :=
  (∀ (x y : Word),
     (keyOrd 0 x < keyOrd 0 y ↔ x.toInt < y.toInt) ∧
     (keyOrd 1 x < keyOrd 1 y ↔ x.toNat < y.toNat) ∧
     ((Fp.f32 x).isNan = true → (Fp.f32 y).isNan = true → keyOrd 2 x = keyOrd 2 y) ∧
     ((Fp.f32 x).isNan = false → (Fp.f32 y).isNan = true → keyOrd 2 x < keyOrd 2 y) ∧
     ((Fp.f32 x).isNan = false → (Fp.f32 y).isNan = false → (keyOrd 2 x < keyOrd 2 y ↔ Fp.ltSigned (Fp.f32 x) (Fp.f32 y) = true))) ∧
  (∀ (s : State) (gd : Guard) (d a b : BitVec 5) (x : BitVec 1) (kt : BitVec 2), s.guard gd = true →
     let ordered (key : Nat → Word) (p : List Nat) : Prop :=
       ∀ i j, i < j → j < p.length →
         keyBefore kt.toNat (x == 1) (key (nth 0 p i)) (key (nth 0 p j)) = true ∨
         (keyBefore kt.toNat (x == 1) (key (nth 0 p j)) (key (nth 0 p i)) = false ∧ nth 0 p i < nth 0 p j)
     (∃ p : List Nat, p.Perm (List.range 32) ∧ ordered (lane (s.v a)) p ∧
       (∃ q r : VecReg, exec (.ysort gd d a b x kt) s = .next ((s.postV d q 8).postV (d + 1) r 8) ∧
         ∀ i, i < 32 → lane q i = lane (s.v a) (nth 0 p i) ∧ lane r i = lane (s.v b) (nth 0 p i)) ∧
       (∃ q : VecReg, exec (.yrank gd d a x kt) s = .next (s.postV d q 8) ∧
         ∀ i, i < 32 → lane q (nth 0 p i) = BitVec.ofNat 32 i)) ∧
     (let key (i : Nat) : Word := if i < 32 then lane (s.v a) i else lane (s.v b) (i - 32)
      let pay (i : Nat) : Word := if i < 32 then lane (s.v (a + 1)) i else lane (s.v (b + 1)) (i - 32)
      ∃ p : List Nat, p.Perm (List.range 64) ∧ ordered key p ∧
       ∀ h : BitVec 1, ∃ q r : VecReg, exec (.ymerge gd d a b h x kt) s = .next ((s.postV d q 8).postV (d + 1) r 8) ∧
         ∀ i, i < 32 → lane q i = key (nth 0 p (32 * h.toNat + i)) ∧ lane r i = pay (nth 0 p (32 * h.toNat + i))))

/-- R148, R154 to R156: the running top-k. INIT opens the state and takes its capacity, or traps INDEX_RANGE; ADD offers the active lanes in ascending order, and
has no effect on a closed state; OUT reads a part of the selection and changes nothing of it, and reads a closed one as empty with both sums 0.
R147, R155: an offer to a state in rank order keeps the best K of the live entries and the offered one, in rank order with the earlier arrival first among
equals, and the key that gives way joins LEFT.
That the flags of OUT are set at issue is log entry 18. -/
def Obligations.RunningTopK : Prop :=
  (∀ (s : State) (gd : Guard) (d a b : BitVec 5), s.guard gd = true →
     (∀ (x : BitVec 1) (kt : BitVec 2),
       (1 ≤ (s.s a).toNat → (s.s a).toNat ≤ 64 → ∃ t, exec (.ytopkInit gd a x kt) s = .next t ∧ ThreadsOnly s t ∧ OthersKept s t ∧
         t.me = { s.me with sel := { isOpen := true, kt := kt, d := x == 1, k := (s.s a).setWidth 7, count := 0, seq := 0, entries := [],
                                     left := 0, leftNan := false, leftSnan := false, leftPinf := false, leftNinf := false } }) ∧
       ((s.s a).toNat = 0 ∨ 64 < (s.s a).toNat → (s.core (coreOf s.cur.tid)).snap = none → ∃ t, exec (.ytopkInit gd a x kt) s = .next t ∧
         t.me.sel = s.me.sel ∧ t.me.ctl.cause = 0x22#8 ∧ t.me.ctl.estat = s.s a ∧ t.me.ctl.engine = 2#3)) ∧
     (∀ k : BitVec 3,
       (s.src.sel.isOpen = false → exec (.ytopkAdd gd a b k) s = .next s) ∧
       (s.src.sel.isOpen = true → ∃ t, exec (.ytopkAdd gd a b k) s = .next t ∧ ThreadsOnly s t ∧ OthersKept s t ∧
         t.me = { s.me with sel := (activeLanes s k).foldl (fun sel i => sel.offer (lane (s.v a) i) (lane (s.v b) i)) s.me.sel })) ∧
     (∃ (q r : VecReg) (u : State), u = ((s.postV d q 6).postV (d + 1) r 6) ∧
       (∀ j, j < 32 → lane q j = (if s.src.sel.isOpen = true then (s.src.sel.entries[32 * b.toNat + j]?).map SelEntry.key else none).getD 0 ∧
         lane r j = (if s.src.sel.isOpen = true then (s.src.sel.entries[32 * b.toNat + j]?).map SelEntry.index else none).getD 0xFFFFFFFF#32) ∧
       (a = 0 → exec (.ytopkOut gd d a b) s = .next u) ∧
       (a ≠ 0 → s.src.sel.isOpen = true → exec (.ytopkOut gd d a b) s =
         .next (u.postSums a s.src.sel.kt.toNat s.src.ctl.round.toNat 6 s.src.sel.kept s.src.sel.leftSum)) ∧
       (a ≠ 0 → s.src.sel.isOpen = false → exec (.ytopkOut gd d a b) s = .next ((u.postS a 0 6).postS (a + 1) 0 6)))) ∧
  (∀ (sel : Sel) (key index : Word),
     let rank (e f : SelEntry) : Bool := keyBefore sel.kt.toNat (!sel.d) e.key f.key
     let better (e f : SelEntry) : Bool := rank e f || (!rank f e && decide (e.arrival < f.arrival))
     let all := stableSort better (sel.entries ++ [⟨key, index, sel.seq⟩])
     1 ≤ sel.k.toNat → sel.k.toNat ≤ 64 → sel.entries.length = sel.count.toNat → sel.count.toNat ≤ sel.k.toNat →
     sel.entries.Pairwise (fun e f => better f e = false) →
       (sel.offer key index).entries = all.take sel.k.toNat ∧
       (sel.offer key index).entries.length = (sel.offer key index).count.toNat ∧
       (sel.offer key index).count.toNat ≤ sel.k.toNat ∧
       (sel.offer key index).entries.Pairwise (fun e f => better f e = false) ∧
       (sel.offer key index).seq = sel.seq + 1 ∧
       (∀ e, all.drop sel.k.toNat = [e] → (sel.offer key index).leftSum =
         let x := KeySum.push sel.kt.toNat sel.leftSum e.key
         { x with sum := Max.max (-(2 ^ 319 - 1)) (Min.min (2 ^ 319 - 1) x.sum) }) ∧
       (all.drop sel.k.toNat = [] → (sel.offer key index).leftSum = sel.leftSum))

/-- R157, R158: the two sums YSUMS writes: of the selected lanes and of the others, or of KEPT and LEFT; each exact and rounded or saturated once; those of a
closed state are 0.
R159 to R162: bucket counts, histograms, compaction and expansion by a mask, and the extreme key with the lowest lane that holds it.
That the flags of YSUMS are set at issue is log entry 18. -/
def Obligations.SumsAndCounts : Prop :=
  ((∀ (s : State) (gd : Guard) (d a b : BitVec 5) (rm : BitVec 3) (kt : BitVec 2), s.guard gd = true →
     (let pick (on : Bool) : List Word := ((List.range 32).filter (fun i => (s.m b).getLsbD i == on)).map (lane (s.v a))
      exec (.ysums gd d a b rm 0 kt) s = .next (s.postSums d kt.toNat (s.roundCode3 rm) 4 (keySum kt.toNat (pick true)) (keySum kt.toNat (pick false)))) ∧
     (s.src.sel.isOpen = true → exec (.ysums gd d a b rm 1 kt) s =
       .next (s.postSums d s.src.sel.kt.toNat (s.roundCode3 rm) 4 s.src.sel.kept s.src.sel.leftSum)) ∧
     (s.src.sel.isOpen = false → exec (.ysums gd d a b rm 1 kt) s = .next ((s.postS d 0 4).postS (d + 1) 0 4))) ∧
   (∀ (s : State) (d : BitVec 5) (code lat : Nat) (p q : KeySum) (kt : Nat), kt < 2 →
     s.postSums d kt code lat p q =
       ((s.flags ((p.result kt .rne).2 ||| (q.result kt .rne).2)).postS d (p.result kt .rne).1 lat).postS (d + 1) (q.result kt .rne).1 lat) ∧
   (∀ (s : State) (d : BitVec 5) (code lat : Nat) (p q : KeySum),
     let m := s.modes code 2
     s.postSums d 2 code lat p q =
       ((m.2.flags ((p.result 2 (m.1 0)).2 ||| (q.result 2 (m.1 1)).2)).postS d (p.result 2 (m.1 0)).1 lat).postS (d + 1) (q.result 2 (m.1 1)).1 lat) ∧
   (∀ (xs : List Word) (md : Fp.Mode),
     let n : Int := (xs.map BitVec.toInt).sum
     let u : Int := (xs.map (fun x => (x.toNat : Int))).sum
     ((keySum 0 xs).result 0 md).1 = BitVec.ofInt 64 (Max.max (-(2 ^ 63)) (Min.min (2 ^ 63 - 1) n)) ∧
     (((keySum 0 xs).result 0 md).2 = if n < -(2 ^ 63) ∨ 2 ^ 63 - 1 < n then Fp.SAT else 0) ∧
     ((keySum 1 xs).result 1 md).1 = BitVec.ofInt 64 (Min.min (2 ^ 64 - 1) u) ∧
     (((keySum 1 xs).result 1 md).2 = if 2 ^ 64 - 1 < u then Fp.SAT else 0) ∧
     ((xs.any (fun x => (Fp.f32 x).isNan)) = true → ((keySum 2 xs).result 2 md) =
       (0x7FC00000#64, if xs.any (fun x => (Fp.f32 x).isSnan) = true then Fp.NV else 0)) ∧
     ((keySum 2 []).result 2 md) = ((if md.isRdn = true then 0x80000000#64 else 0), 0))) ∧
  (∀ (s : State) (gd : Guard) (d a b : BitVec 5) (k : BitVec 3), s.guard gd = true →
     (∀ kt : BitVec 2, ∃ r : VecReg, exec (.ybkt gd d a b k kt) s = .next (s.postV d r 6) ∧
       ∀ i, i < 32 → lane r i = BitVec.ofNat 32
         ((activeLanes s k).filter (fun j => decide (keyOrd kt.toNat (lane (s.v b) j) ≤ keyOrd kt.toNat (lane (s.v a) i)))).length) ∧
     (∃ r : VecReg, exec (.yhist gd d a b 0 k) s = .next (s.postV d r 6) ∧
       ∀ n, n < 32 → lane r n = lane (s.v d) n +
         BitVec.ofNat 32 ((activeLanes s k).filter (fun i => decide ((lane (s.v a) i).toNat = n))).length) ∧
     (∃ r : VecReg, exec (.yhist gd d a b 1 k) s = .next (s.postV d r 6) ∧
       ∀ n, n < 32 → lane r n = lane (s.v d) n +
         (((activeLanes s k).filter (fun i => decide ((lane (s.v a) i).toNat = n))).map (lane (s.v b))).foldr (· + ·) 0) ∧
     (∃ r : VecReg, exec (.ycmpr gd d a b) s = .next (s.postV d r 4) ∧
       ∀ i, i < 32 → lane r i = nth 0 (((List.range 32).filter (fun j => (s.m b).getLsbD j)).map (lane (s.v a))) i) ∧
     (∀ z : BitVec 1, ∃ r : VecReg, exec (.yexpd gd d a b z) s = .next (s.postV d r 4) ∧
       ∀ i, i < 32 → lane r i =
         if (s.m b).getLsbD i = true then lane (s.v a) ((List.range i).filter (fun j => (s.m b).getLsbD j)).length
         else if z = 1 then 0 else lane (s.v d) i) ∧
     (∀ (x : BitVec 1) (kt : BitVec 2),
       (activeLanes s k = [] → exec (.yargx gd d a k x kt) s = .next (s.postS d 0x20 4)) ∧
       (activeLanes s k ≠ [] → ∃ i, i ∈ activeLanes s k ∧
         exec (.yargx gd d a k x kt) s = .next (s.postS d ((lane (s.v a) i).setWidth 64 <<< 32 ||| BitVec.ofNat 64 i) 4) ∧
         ∀ j ∈ activeLanes s k,
           (if x = 0 then keyOrd kt.toNat (lane (s.v a) j) ≤ keyOrd kt.toNat (lane (s.v a) i)
             else keyOrd kt.toNat (lane (s.v a) i) ≤ keyOrd kt.toNat (lane (s.v a) j)) ∧
           (keyOrd kt.toNat (lane (s.v a) j) = keyOrd kt.toNat (lane (s.v a) i) → i ≤ j))))

/-! ## The C slot -/

/-- R50, R95, R97, R104: transfers. BR and CALL go to PC + 2 x offset, JMP, CALLR and RET to the low 48 bits of a register, which traps MISALIGNED when it is odd; CALL
and CALLR link NEXT and the loop depth with L = 1; RET pops the loops above the link's depth, and traps LOOP_STACK with 4 when it is greater than the depth. NOP has no effect. -/
def Obligations.TransfersAndNop : Prop :=
  ∀ (s : State) (gd : Guard) (d a : BitVec 5), s.guard gd = true →
    let goes (u : State) (x : VAddr) : State := { u with cur := { u.cur with target := some x, transfer := true } }
    let x : VAddr := (s.s a).setWidth 48
    let link : DWord := BitVec.ofNat 64 (s.cur.next.toNat + s.src.loops.length * 2 ^ 48)
    exec (.nop gd) s = .next s ∧
    (∀ (o : BitVec 21),
      exec (.br gd o none) s = .next (goes s (s.cur.pc + 2 * o.signExtend 48)) ∧
      exec (.call gd o none) s = .next (goes (s.postS 31 link 1) (s.cur.pc + 2 * o.signExtend 48)) ∧
      ∀ kw : BitVec 32,
        exec (.br gd o (some kw)) s = .next (goes s (s.cur.pc + 2 * kw.signExtend 48)) ∧
        exec (.call gd o (some kw)) s = .next (goes (s.postS 31 link 1) (s.cur.pc + 2 * kw.signExtend 48))) ∧
    (x.getLsbD 0 = false →
      exec (.jmp gd a) s = .next (goes s x) ∧
      exec (.callr gd d a) s = .next (goes (s.postS d link 1) x) ∧
      (let depth := (s.s a).toNat / 2 ^ 48 % 8
       depth ≤ s.src.loops.length → ∃ t u, exec (.ret gd a) s = .next t ∧ t = goes u x ∧ ThreadsOnly s u ∧ OthersKept s u ∧
         u.me = { s.me with loops := s.me.loops.drop (s.src.loops.length - depth) }) ∧
      (let depth := (s.s a).toNat / 2 ^ 48 % 8
       s.src.loops.length < depth → (s.core (coreOf s.cur.tid)).snap = none → ∃ t, exec (.ret gd a) s = .next t ∧
         t.me.ctl.cause = 0x06#8 ∧ t.me.ctl.estat = 4 ∧ t.me.ctl.engine = 0 ∧ t.me.loops = s.me.loops ∧ t.me.regs = s.me.regs)) ∧
    (x.getLsbD 0 = true → (s.core (coreOf s.cur.tid)).snap = none →
      ∀ i, i = .jmp gd a ∨ i = .callr gd d a ∨ i = .ret gd a → ∃ t, exec i s = .next t ∧
        t.me.ctl.cause = 0x05#8 ∧ t.me.ctl.badaddr = x ∧ t.me.ctl.engine = 0 ∧ t.me.loops = s.me.loops ∧ t.me.regs = s.me.regs)

/-- R98, R99, R101, R102: LOOP and LOOPR push a loop whose body starts at NEXT, or skip the body when the count is 0; LBRK leaves the innermost k + 1 loops; each
LOOP_STACK condition of Table 4-5 records its sub-code and leaves the loops.
R101, R102: LBRK leaves the innermost k + 1 loops and continues after the last bundle of the outermost of them; with fewer loops it traps.
R36, R100: fetch leaves a bundle by fall-through: only the innermost loop is tested; a loop with iterations left goes back to its start with its index one higher, and
a loop without is popped and the next tested if it ends there too. LINE_SKIP leaves its header so, toward the start of the next line. -/
def Obligations.CountedLoops : Prop :=
  (∀ (s : State) (gd : Guard) (bl c : Nat) (i : Instr), s.guard gd = true →
     ((∃ (l : BitVec 10) (im : BitVec 12) (kw : Option (BitVec 32)), i = .loop gd l im kw ∧ bl = l.toNat ∧ c = immU12 im kw) ∨
      (∃ (h a l : BitVec 5), i = .loopr gd h a l ∧ bl = h.toNat * 32 + l.toNat ∧ c = (s.s a).toNat)) →
     let e : VAddr := s.cur.next + BitVec.ofNat 48 (2 * bl)
     let nested : Prop := ∃ l ls, s.src.loops = l :: ls ∧ l.start ≤ s.cur.pc ∧ s.cur.pc ≤ l.last ∧ l.last < e
     let trapsWith (n : DWord) : Prop := (s.core (coreOf s.cur.tid)).snap = none → ∃ t, exec i s = .next t ∧
       t.me.ctl.cause = 0x06#8 ∧ t.me.ctl.estat = n ∧ t.me.ctl.engine = 0 ∧ t.me.loops = s.me.loops
     (6 ≤ s.src.loops.length → trapsWith 1) ∧
     (s.src.loops.length < 6 → nested → trapsWith 5) ∧
     (s.src.loops.length < 6 → ¬ nested → 0xFFFFFFFF < c → trapsWith 3) ∧
     (s.src.loops.length < 6 → ¬ nested → 1 ≤ c → c ≤ 0xFFFFFFFF → ∃ t, exec i s = .next t ∧ ThreadsOnly s t ∧ OthersKept s t ∧
       t.me = { s.me with loops := ⟨s.cur.next, e, BitVec.ofNat 32 c, 0⟩ :: s.me.loops }) ∧
     (s.src.loops.length < 6 → ¬ nested → c = 0 → ∀ bs, s.fetch s.cur.src s.src e.toNat = .bytes bs →
       exec i s = .next { s with cur := { s.cur with target := some (BitVec.ofNat 48 (e.toNat + headerSize e.toNat bs)), transfer := true } })) ∧
  (∀ (s : State) (gd : Guard) (k : BitVec 5), s.guard gd = true →
     (∀ l bs, s.src.loops[k.toNat]? = some l → s.fetch s.cur.src s.src l.last.toNat = .bytes bs →
       ∃ t, exec (.lbrk gd k) s = .next t ∧ t = { s with threads := t.threads, cur := t.cur } ∧ OthersKept s t ∧
         t.me = { s.me with loops := s.me.loops.drop (k.toNat + 1) } ∧
         t.cur = { s.cur with target := some (BitVec.ofNat 48 (l.last.toNat + headerSize l.last.toNat bs)), transfer := true }) ∧
     (s.src.loops.length ≤ k.toNat → (s.core (coreOf s.cur.tid)).snap = none → ∃ t, exec (.lbrk gd k) s = .next t ∧
       t.me.ctl.cause = 0x06#8 ∧ t.me.ctl.estat = 2 ∧ t.me.ctl.engine = 0 ∧ t.me.loops = s.me.loops)) ∧
  (∀ (s : State) (tid : Nat) (pc next : VAddr) (l : LoopEntry) (ls : List LoopEntry),
     ((s.thread tid).loops = [] → ((s.fallThrough tid pc next).thread tid).pc = next ∧ ((s.fallThrough tid pc next).thread tid).loops = []) ∧
     ((s.thread tid).loops = l :: ls →
       (l.last ≠ pc → ((s.fallThrough tid pc next).thread tid).pc = next ∧ ((s.fallThrough tid pc next).thread tid).loops = l :: ls) ∧
       (l.last = pc → 1 < l.remaining.toNat →
         ((s.fallThrough tid pc next).thread tid).pc = l.start ∧
         ((s.fallThrough tid pc next).thread tid).loops = { l with remaining := l.remaining - 1, index := l.index + 1 } :: ls) ∧
       (l.last = pc → l.remaining.toNat ≤ 1 →
         let u := s.updThread tid (fun t => { t with loops := ls })
         ((s.fallThrough tid pc next).thread tid).pc = ((u.fallThrough tid pc next).thread tid).pc ∧
         ((s.fallThrough tid pc next).thread tid).loops = ((u.fallThrough tid pc next).thread tid).loops)) ∧
     exec .lineSkip s = .next (s.fallThrough s.cur.tid s.cur.pc (BitVec.ofNat 48 ((s.cur.pc.toNat / 64 + 1) * 64))) ∧
     (∀ n : BitVec 4, exec (.emptyBundle n) s = .next { s with cur := { s.cur with stall := n.toNat } }))

/-- R19, R24, R105, R106: END puts the thread into RETIRING with its loops discarded, once its earlier accesses have performed; YIELD makes it wait until the end of the
min(s[a], 1048575)-th cycle after its issue, and then it runs again, or has its wait complete while it is TRAPPED, as its live snapshot then says. A handler waits in
TRAPPED, above the waits registered before it, and goes on when its own is over (log entry 81).
That both wait for the earlier accesses of the thread is log entry 11, and how a handler waits is log entry 81. -/
def Obligations.EndAndYield : Prop :=
  ∀ (s : State) (gd : Guard) (a : BitVec 5), s.guard gd = true →
    (s.drained = true →
      (∃ t, exec (.endThread gd) s = .next t ∧ t.me.st = .retiring ∧ t.me.loops = [] ∧ t.me.wait = none ∧ t.me.regs = s.me.regs ∧
        t.mem = s.mem ∧ t.hub = s.hub ∧ OthersKept s t ∧
        (s.me.grp.isSome = true → s.cur.tid ∈ (t.die (dieOf s.cur.tid)).leaves) ∧
        (∀ r ∈ (t.cluster (clusterOf s.cur.tid)).rings, r.2.owner = s.cur.tid → r.2.st ≠ 1)) ∧
      (let w : Wait := .yield (s.cycle + Min.min (s.s a).toNat 1048575)
       ∃ t, exec (.yield gd a) s = .next t ∧ ThreadsOnly s t ∧ OthersKept s t ∧
        t.me = s.me.park (s.cur.pc, s.me.loops) (some w) none ∧
        (Unwaiting s.me → t.me = { s.me with st := .waiting, wait := some w, back := some (s.me.back.getD (s.cur.pc, s.me.loops)) }) ∧
        (s.me.st = .trapped → s.me.paused = false → t.me = { s.me with inner := ⟨some w, none, (s.cur.pc, s.me.loops)⟩ :: s.me.inner, paused := true }))) ∧
    (s.drained = false → exec (.endThread gd) s = .next { s with cur := { s.cur with out := .held } } ∧
      exec (.yield gd a) s = .next { s with cur := { s.cur with out := .held } }) ∧
    (∀ tid u, (s.thread tid).wait = some (.yield u) → (s.thread tid).inner = [] →
      (s.cycle < u → exec (.yieldExpiry tid) s = .next s) ∧
      (u ≤ s.cycle → (s.thread tid).xwait = none → (s.thread tid).st = .waiting →
        ∃ t, exec (.yieldExpiry tid) s = .next t ∧ ThreadsOnly s t ∧ (∀ k, k ≠ tid → t.thread k = s.thread k) ∧
          t.thread tid = { s.thread tid with
            st := .running, wait := none, back := none, ready := Max.max (s.thread tid).ready (s.cycle + 1) }) ∧
      (u ≤ s.cycle → (s.thread tid).xwait = none → (s.thread tid).st = .trapped →
        ∃ t, exec (.yieldExpiry tid) s = .next t ∧ t.thread tid = { s.thread tid with wait := none, wdone := true } ∧ (∀ k, k ≠ tid → t.thread k = s.thread k) ∧
          ∀ sn, (s.core (coreOf tid)).snap = some sn → sn.tid = tid → sn.retSt = .waiting → (t.core (coreOf tid)).snap = some { sn with wdone := true })) ∧
    (∀ tid u p ps, (s.thread tid).inner = p :: ps → (s.thread tid).paused = true → (s.thread tid).st = .trapped → p.wait = some (.yield u) → p.xwait = none →
      u ≤ s.cycle → ∃ t, exec (.yieldExpiry tid) s = .next t ∧ (t.thread tid).st = .trapped ∧ (t.thread tid).paused = false ∧ (t.thread tid).inner.length = ps.length ∧
        (t.thread tid).ready = Max.max (s.thread tid).ready (s.cycle + 1) ∧ (t.thread tid).regs = (s.thread tid).regs ∧
        (∀ w, (s.thread tid).wait = some w → w.elapsed s.cycle = false → (t.thread tid).wait = some w) ∧ ∀ k, k ≠ tid → t.thread k = s.thread k)

/-- R25, R27, R110, R111: JOIN in its create and enter forms and LEAVE, with the GROUP sub-codes in their order. A LEAVE is recorded for the end of the cycle, at which
the member and its arrival leave the table: the last one frees the entry, and where every remaining member has arrived, the barrier is complete.
R113, R310: BAR is a release of scope .die; a thread in no group passes; a member's arrival is recorded and it waits; the barrier completes when every current member
has arrived: each waiting member runs again and the next barrier is open, no arrival recorded; the group's members and domain, the other groups and the other threads are kept.
That BAR, JOIN and LEAVE wait for the earlier accesses of the thread is log entry 11, and how a handler waits is log entry 81. -/
def Obligations.GroupsAndBarriers : Prop :=
  (∀ (s : State) (gd : Guard) (a : BitVec 5) (im : BitVec 12) (kw : Option (BitVec 32)), s.guard gd = true → s.drained = true →
     let die := dieOf s.cur.tid
     let n := (s.s a + immS12 im kw).toNat
     let free (g : Nat) : Prop := ∀ e ∈ (s.die die).groups, e.1 ≠ g
     let trapsWith (i : Instr) (sub : DWord) : Prop := (s.core (coreOf s.cur.tid)).snap = none → ∃ t, exec i s = .next t ∧
       t.me.ctl.cause = 0x10#8 ∧ t.me.ctl.estat = sub ∧ t.me.grp = s.me.grp ∧ (t.die die).groups = (s.die die).groups
     (s.me.grp = none →
       (∀ g, g < 512 → free g → (∀ h, h < g → ¬ free h) → ∃ t, exec (.joinNew gd) s = .next t ∧
         t.me = { s.me with grp := some (g, 0) } ∧ tget ⟨0, [], []⟩ (t.die die).groups g = ⟨s.me.dom, [(0, s.cur.tid)], []⟩ ∧ OthersKept s t) ∧
       ((∀ g, g < 512 → ¬ free g) → trapsWith (.joinNew gd) 4) ∧
       (511 < n → trapsWith (.join gd a im kw) 6) ∧
       (n ≤ 511 → free n → trapsWith (.join gd a im kw) 5) ∧
       (∀ e, n ≤ 511 → (s.die die).groups.find? (fun e => e.1 == n) = some e →
         let used (m : Nat) : Prop := ∃ x ∈ e.2.members, x.1 = m
         ((∀ m, m < 64 → used m) → trapsWith (.join gd a im kw) 3) ∧
         (∀ m, m < 64 → ¬ used m → (∀ k, k < m → used k) →
           (e.2.dom ≠ s.me.dom → trapsWith (.join gd a im kw) 7) ∧
           (e.2.dom = s.me.dom → ∃ t, exec (.join gd a im kw) s = .next t ∧ t.me = { s.me with grp := some (n, m) } ∧ OthersKept s t ∧
             tget e.2 (t.die die).groups n = { e.2 with members := tset e.2.members m s.cur.tid })))) ∧
     (s.me.grp.isSome = true → trapsWith (.joinNew gd) 1 ∧ trapsWith (.join gd a im kw) 1 ∧
       ∃ t, exec (.leave gd) s = .next t ∧ t.threads = s.threads ∧ t = { s with dies := t.dies } ∧
         t.die die = { s.die die with leaves := (t.die die).leaves } ∧ s.cur.tid ∈ (t.die die).leaves) ∧
     (s.me.grp = none → trapsWith (.leave gd) 2) ∧
     (∀ tid g m e, dieOf tid = die → (s.die die).leaves = [tid] → (s.thread tid).grp = some (g, m) → (s.die die).groups.find? (fun e => e.1 == g) = some e →
       (∀ x ∈ (s.die die).groups, x.1 ≠ g → x.2.arrived = []) →
       let t := s.endGroups die
       let ms := tdel e.2.members m
       let here := e.2.arrived.filter (· != tid)
       (t.thread tid).grp = none ∧ (t.die die).leaves = [] ∧ t.mem = s.mem ∧ t.hub = s.hub ∧ (∀ k, k ≠ tid → (∀ x ∈ ms, x.2 ≠ k) → t.thread k = s.thread k) ∧
       (ms = [] → (t.die die).groups = tdel (s.die die).groups g) ∧
       (ms ≠ [] → tget e.2 (t.die die).groups g = { e.2 with members := ms, arrived := if ms.all (fun x => here.contains x.2) = true then [] else here } ∧
         ∀ h, h ≠ g → (t.die die).groups.find? (fun x => x.1 == h) = (s.die die).groups.find? (fun x => x.1 == h)))) ∧
  (∀ (s : State) (gd : Guard), s.guard gd = true → s.drained = true →
     (s.me.grp = none → ∃ t, exec (.bar gd) s = .next t ∧ ThreadsOnly s t ∧ OthersKept s t ∧ t.me = s.me.release 3) ∧
     (∀ g m, s.me.grp = some (g, m) → ∃ t, exec (.bar gd) s = .next t ∧ OthersKept s t ∧
       t.me = (s.me.release 3).park (s.cur.pc, s.me.loops) (some .bar) none ∧
       (Unwaiting s.me → t.me = { s.me.release 3 with st := .waiting, wait := some .bar, back := some (s.me.back.getD (s.cur.pc, s.me.loops)) }) ∧
       (t.die (dieOf s.cur.tid)).groups = (s.die (dieOf s.cur.tid)).groups.map (fun e =>
         if e.1 = g then (e.1, { e.2 with arrived := s.cur.tid :: e.2.arrived }) else e)) ∧
     (∀ die g e, (s.die die).groups.find? (fun e => e.1 == g) = some e → e.2.members ≠ [] →
       ((∃ m ∈ e.2.members, m.2 ∉ e.2.arrived) → s.barrierTest die g = s) ∧
       ((∀ m ∈ e.2.members, m.2 ∈ e.2.arrived) →
         let t := s.barrierTest die g
         t.die die = { s.die die with groups := tset (s.die die).groups g { e.2 with arrived := [] } } ∧ (∀ k, k ≠ die → t.die k = s.die k) ∧
         tget e.2 (t.die die).groups g = { e.2 with arrived := [] } ∧
         (∀ h, h ≠ g → (t.die die).groups.find? (fun x => x.1 == h) = (s.die die).groups.find? (fun x => x.1 == h)) ∧
         (∀ k, (∀ m ∈ e.2.members, m.2 ≠ k) → t.thread k = s.thread k) ∧ t.mem = s.mem ∧ t.hub = s.hub ∧
         ((e.2.members.map Prod.snd).Nodup → ∀ m ∈ e.2.members, (s.thread m.2).wait = some .bar → (s.thread m.2).inner = [] →
           (s.thread m.2).xwait = none → (t.thread m.2).wait = none ∧ (t.thread m.2).grp = (s.thread m.2).grp ∧
           ((s.thread m.2).st = .waiting → (t.thread m.2).st = .running) ∧
           ((s.thread m.2).st = .trapped → (t.thread m.2).st = .trapped ∧ (t.thread m.2).wdone = true)))))

/-! ## Memory -/

/-- R165, R267, R297, R299, R403, R405, Table 14-1: where an aligned piece of an access goes: the ranges of the address map in their places, and the traps of the
holes, of reserved offsets, of denied blocks of die memory and of windows. -/
def Obligations.AddressMap : Prop :=
  ∀ (s : State) (tid : Nat) (t : Thread) (k : AccKind) (engine va : Nat),
    let core := coreOf tid
    let denied (sub : Nat) : Located := .fault (mapFault sub 0 k engine va)
    let shut (off : Nat) : Prop := t.atF = false ∧ 0xF6000 ≤ off
    (va < 0x100000 → shut va → s.locate tid t k none engine va = denied 0x15) ∧
    (va < 0x100000 → ¬ shut va → s.locate tid t k none engine va = .ok ⟨2 ^ 41 + core * 2 ^ 20 + va, .own, true, 0⟩) ∧
    (∀ c off, c < 8 → off < 0x100000 → va = 0x100000 + c * 0x100000 + off →
      (shut off → s.locate tid t k none engine va = denied 0x15) ∧
      (¬ shut off → s.locate tid t k none engine va =
        .ok ⟨2 ^ 41 + (core / 8 * 8 + c) * 2 ^ 20 + off, if core / 8 * 8 + c = core then .own else .peer (core / 8 * 8 + c), true, 0⟩)) ∧
    (∀ d off, d < 2 → off < 0x4000000 → va = 0x10000000 + (if d = dieOf tid then 0 else 0x4000000) + off → dieOf tid < 2 →
      let e := (s.ownEntry d (off / 65536)).toNat
      let refuses : Prop := t.atF = false ∧ (e % 64 ≠ t.dom.toNat ∨ (k.reads = true ∧ e / 64 % 2 = 0) ∨ (k.writes = true ∧ e / 128 % 2 = 0))
      (refuses → s.locate tid t k none engine va = denied 0x14) ∧
      (¬ refuses → s.locate tid t k none engine va = .ok ⟨2 ^ 40 + d * 2 ^ 26 + off, .die (d == dieOf tid), true, 0⟩)) ∧
    (∀ w off, w < 16 → off < 0x100000 → va = 0x1000000 + w * 0x100000 + off →
      let win := (tget 0 t.regs.win w)
      (win.getLsbD 0 = false → s.locate tid t k none engine va = denied 0x16) ∧
      (win.getLsbD 0 = true → k = .write → t.atF = false → t.dom ≠ s.hub.pod.dom → s.locate tid t k none engine va = denied 0x17) ∧
      (win.getLsbD 0 = true → k = .write → (t.atF = true ∨ t.dom = s.hub.pod.dom) → ¬ shut off →
        s.locate tid t k none engine va = .ok ⟨off, .window w, false, 0⟩) ∧
      (win.getLsbD 0 = true → k ≠ .write → ¬ shut off →
        s.locate tid t k none engine va = .fault (trapInfo .windowLoad engine 0 (BitVec.ofNat 48 va))) ∧
      (win.getLsbD 0 = true → shut off → s.locate tid t k none engine va = denied 0x15 ∨ k = .write ∧ t.dom ≠ s.hub.pod.dom) ∧
      (∀ sc, win.getLsbD 0 = true → ¬ shut off →
        s.locate tid t k (some sc) engine va = .fault (trapInfo .windowLoad engine 0 (BitVec.ofNat 48 va)))) ∧
    ((0x900000 ≤ va ∧ va < 0x1000000) ∨ (0x2000000 ≤ va ∧ va < 0x10000000) ∨ (0x18000000 ≤ va ∧ va < 0x100000000) →
      s.locate tid t k none engine va = denied 0x13) ∧
    (∀ l, 0x100000000 ≤ va → s.tlbFind core t.dom va = some l →
      s.locate tid t k none engine va =
        (match l.denies k with
          | some sub => .fault (mapFault sub (if l.size = 0x200000 then 2 else 3) k engine va)
          | none => .ok ⟨l.pa + (va - l.va), .hbm, l.chk, l.key.toNat⟩)) ∧
    (∀ n, va % n ≠ 0 → ∀ a, s.checkPiece tid t a n va n = .error (.fault (trapInfo .misaligned a.engine 0 (BitVec.ofNat 48 va))))

/-- R177, R178: scalar loads at the 48-bit sum of base and offset: checked at issue, then waiting to perform with their register interlocked; a failing check traps, and
a wait holds the bundle.
R177, R178, R405, R406: scalar stores of the low n bytes: checked at issue, then waiting to perform; through a window as one packet of 4-byte units; a byte or
halfword store to a window traps MISALIGNED.
R312 to R316: the check of an access against the tag of its granule, and the record it leaves. Of the records of other threads, the writer's first, the first with an open
region at the level of the two threads that shares a unit with the access, where one of them writes and not both are atomics, traps MEMORY_CONFLICT; without one, an
overflow mark that the access meets traps MEMORY_CONFLICT_UNCERTAIN, unless $cmask masks it. A record holds the thread, the units written and read, whether atomics alone made it,
and the thread's release counters.
That the checks are made at issue, and when an access can perform, are log entries 6 and 11. -/
def Obligations.ScalarAccesses : Prop :=
  (∀ (s : State) (gd : Guard) (d b : BitVec 5) (im : BitVec 12) (kw : Option (BitVec 32)) (i : Instr) (n : Nat) (sgn : Bool),
     s.guard gd = true →
     (i, n, sgn) ∈ [(.ldB gd d b im kw, 1, true), (.ldH gd d b im kw, 2, true), (.ldW gd d b im kw, 4, true), (.ldD gd d b im kw, 8, false),
       (.lduB gd d b im kw, 1, false), (.lduH gd d b im kw, 2, false), (.lduW gd d b im kw, 4, false)] →
     NoOlderSync s →
     let va := ((s.s b).toNat + (immS12 im kw).toNat) % 2 ^ 48
     (∀ p, s.checkAll s.cur.tid s.me .load n [(va, n)] = .ok [p] →
       ∃ t, exec i s = .next t ∧ Queued s t (.ld (.s d.toNat) p n sgn) (loadLatency [p]) [.s d.toNat] false 0 ∧ t.tags = (s.recordAll s.cur.tid s.me .load [(p, n)]).tags) ∧
     (∀ f, s.checkAll s.cur.tid s.me .load n [(va, n)] = .error (.fault f) → SnapFree s → ∃ t, exec i s = .next t ∧ Trapped s t f) ∧
     (s.checkAll s.cur.tid s.me .load n [(va, n)] = .error .wait → exec i s = .next { s with cur := { s.cur with out := .held } })) ∧
  (∀ (s : State) (gd : Guard) (d b : BitVec 5) (im : BitVec 12) (kw : Option (BitVec 32)) (i : Instr) (n : Nat),
     s.guard gd = true →
     (i, n) ∈ [(.stB gd d b im kw, 1), (.stH gd d b im kw, 2), (.stW gd d b im kw, 4), (.stD gd d b im kw, 8)] →
     NoOlderSync s →
     let va := ((s.s b).toNat + (immS12 im kw).toNat) % 2 ^ 48
     let v := (s.s d).toNat % 2 ^ (8 * n)
     (∀ p, s.checkAll s.cur.tid s.me .store n [(va, n)] = .ok [p] →
       (p.window? = none → ∃ t, exec i s = .next t ∧ Queued s t (.st p n v) (storeLatency [p]) [] false 0 ∧ t.tags = (s.recordAll s.cur.tid s.me .store [(p, n)]).tags) ∧
       (∀ k, 4 ≤ n → p.window? = some k → p.key % n = 0 → ∃ t pkt, exec i s = .next t ∧
         Queued s t (.packets s.origin [(k, BitVec.ofNat 48 va, pkt)]) 1 [] false 0 ∧
         pkt.type = 1 ∧ pkt.off.toNat = p.key / 128 * 128 % 2 ^ 20 ∧ pkt.dst.toNat = (tget 0 s.me.regs.win k).toNat / 2 % 2 ^ 11 ∧ pkt.dom = s.me.dom ∧
         ∀ j, j < n / 4 → pkt.umask.getLsbD (p.key % 128 / 4 + j) = true ∧
           nth 0 pkt.data (p.key % 128 / 4 + j) = BitVec.ofNat 32 (v / 2 ^ (32 * j)))) ∧
     (n < 4 → 0x1000000 ≤ va → va < 0x2000000 → SnapFree s →
       ∃ t, exec i s = .next t ∧ Trapped s t (trapInfo .misaligned 3 0 (BitVec.ofNat 48 va))) ∧
     (∀ f, (n < 4 → va < 0x1000000 ∨ 0x2000000 ≤ va) → s.checkAll s.cur.tid s.me .store n [(va, n)] = .error (.fault f) → SnapFree s →
       ∃ t, exec i s = .next t ∧ Trapped s t f)) ∧
  ((∀ (s : State) (tid : Nat) (t : Thread) (a : Acc) (align va n : Nat) (p : Place),
     va % align = 0 → s.locate tid t a.perm a.scope a.engine va = .ok p → p.checked = true → p.home ≠ .hbm → s.rangeBusy tid p n a.kind = false →
     s.heldByOther tid p n a.kind.writes = false →
     let wr := a.kind.writes
     let mask := unitMask p.key n
     let tag := s.purge p.home.wide (s.tagAt (p.key / 64))
     let recs := tag.others tid t.seen
     let clash (r : Rec) : Prop := r.hits mask wr a.atom ≠ 0 ∧ r.age (s.thread r.tid).rel (levelOf r.tid tid) = .opened
     let answer := s.checkPiece tid t a align va n
     (∀ xs r ys, recs = xs ++ r :: ys → clash r → (∀ x ∈ xs, ¬ clash x) →
       answer = .error (.fault (conflictInfo .memoryConflict a.engine va p.key (r.hits mask wr a.atom) r.tid (mask &&& r.wr != 0) wr 0))) ∧
     ((∀ r ∈ recs, ¬ clash r) →
       (∀ i, answer = .error (.fault i) → i.cause ≠ .memoryConflict) ∧
       (t.ctl.cmask.getLsbD 0 = false → ((wr = true ∧ tag.lr = true) ∨ mask &&& tag.lw ≠ 0 ∨ (a.atom = false ∧ tag.la = true)) →
         ∃ i, answer = .error (.fault i) ∧ i.cause = .memoryConflictUncertain ∧ i.estat.getLsbD 13 = false) ∧
       ((t.ctl.cmask = 3 ∨ tag.lr = false ∧ tag.la = false ∧ tag.lw = 0 ∧ ∀ r ∈ recs, r.hits mask wr a.atom = 0) → s.ecc = [] → s.hub.dead = [] → answer = .ok p))) ∧
   (∀ (r : Rec) (mask : BitVec 16) (wr atom : Bool) (i : Nat),
     (r.hits mask wr atom).getLsbD i = true ↔ (atom && r.atom) = false ∧ mask.getLsbD i = true ∧ (r.wr.getLsbD i = true ∨ (wr = true ∧ r.rd.getLsbD i = true))) ∧
   (∀ (c : Cause) (engine va key tid src : Nat) (u : BitVec 16) (wrote wr : Bool), tid < 2 ^ 11 → src < 2 →
     let e := (conflictInfo c engine va key u tid wrote wr src).estat
     e.toNat % 2 ^ 11 = tid ∧ e.getLsbD 11 = wrote ∧ e.getLsbD 12 = wr ∧ e.toNat / 2 ^ 13 = src) ∧
   (∀ (s : State) (tid : Nat) (cmask : BitVec 2) (cnt : List Nat) (wide key n : Nat) (rd wr atom : Bool),
     let mask := unitMask key n
     let tag := (s.purge wide (s.tagAt (key / 64))).clearMarks cmask mask wr atom
     let u := s.tagRecord tid cmask cnt none wide key n rd wr atom
     u = { s with tags := u.tags } ∧
     tget .empty u.tags (key / 64) = { tag.record ⟨tid, if wr = true then mask else 0, if rd = true then mask else 0, atom, cnt, none, none⟩ with lost := 0 } ∧
     ∀ g, g ≠ key / 64 → tget .empty u.tags g = tget .empty s.tags g) ∧
   (∀ (t : Tag) (a : Rec),
     let lose (t : Tag) (x : Rec) (u : Tag) : Prop :=
       u.la = (t.la || x.atom) ∧ u.lr = (t.lr || (!x.atom && x.rd != 0)) ∧ u.lw = (if x.atom = true then t.lw else t.lw ||| x.wr)
     ((∀ x ∈ t.writer.toList ++ t.readers, x.tid ≠ a.tid) →
       (a.wr ≠ 0 → t.writer = none → t.record a = { t with writer := some a }) ∧
       (∀ x, a.wr ≠ 0 → t.writer = some x → t.readers.length < 2 → t.record a = { t with writer := some a, readers := t.readers ++ [x] }) ∧
       (∀ x, a.wr ≠ 0 → t.writer = some x → 2 ≤ t.readers.length → (t.record a).writer = some a ∧ (t.record a).readers = t.readers ∧ lose t x (t.record a)) ∧
       (a.wr = 0 → t.readers.length < 2 → t.record a = { t with readers := t.readers ++ [a] }) ∧
       (a.wr = 0 → 2 ≤ t.readers.length → (t.record a).writer = t.writer ∧ (t.record a).readers = t.readers ∧ lose t a (t.record a))) ∧
     (∀ x, t.writer = some x → x.tid = a.tid → x.popped = none →
       t.record a = { t with writer := some { a with wr := x.wr ||| a.wr, rd := x.rd ||| a.rd, atom := x.atom && a.atom, popped := none } })))

/-- R5, R51 to R53, R166, R169, R308, R311: the oldest access of a thread performs when it can: a load lands the bytes at its place, sign- or zero-extended, and changes no
memory; a store to a scratchpad or die memory changes exactly its bytes, but bytes of queue entries ignore it, and read-only bytes of a dispatch context any value but 0
(log entry 82); with none that can perform, nothing happens.
R374: a store to HBM with the key of its page: reading with that key gives the stored bytes, and every other byte reads with it as before.
R180, R182, R308: vector accesses perform: a load takes the word at each lane's place; a store puts the lanes in ascending order, so that of two lanes at one place the
higher prevails; other lanes and other bytes are unchanged.
What a byte reads as under another key is a free value (log entry 4). That a load, a racing one too, takes the bytes standing at its home is log entry 14, and the order in which accesses perform is log entry 11. Which bytes of a dispatch context keep their values is log entry 82. -/
def Obligations.AccessesPerform : Prop :=
  (∀ (s : State) (tid : Nat) (a : Access),
     let rest := (s.thread tid).memQ.filter (fun b => b.id != a.id)
     ((s.thread tid).firsts.find? (s.canPerform tid) = none → exec (.accessPerformsAtHome tid) s = .next s) ∧
     (∀ bs, (s.thread tid).memQ = a :: bs → s.canPerform tid a = true → a.op.outbound = false → Performs s tid a) ∧
     (Performs s tid a →
       (∀ r p n sgn, a.op = .ld (.s r) p n sgn → n ≤ 8 → ∃ t, exec (.accessPerformsAtHome tid) s = .next t ∧ OneThread s t tid ∧ (t.thread tid).memQ = rest ∧
         (∀ q, q ≠ r → (t.thread tid).sreg q = (s.thread tid).sreg q) ∧ (t.thread tid).locked (.s r) = (s.thread tid).locks.any (fun l => l.dest == .s r && l.id != a.id) ∧
         (SoleWriter (s.thread tid) a.id (.s r) → r ≠ 0 →
           (t.thread tid).sreg r = if sgn = true then (BitVec.ofNat (8 * n) (leNat (s.placeBytes p n))).signExtend 64 else BitVec.ofNat 64 (leNat (s.placeBytes p n)))) ∧
       (∀ p n v, a.op = .st p n v → (∀ c, p.home ≠ .peer c) → p.home ≠ .hbm → ∃ t, exec (.accessPerformsAtHome tid) s = .next t ∧
         (t.thread tid).memQ = rest ∧ (t.thread tid).regs = (s.thread tid).regs ∧ (∀ k, k ≠ tid → t.thread k = s.thread k) ∧
         t = { s with mem := t.mem, ecc := t.ecc, threads := t.threads } ∧ (MemOk s → MemOk t) ∧
         (MemOk s → ∀ j, j < n → t.byteAt (p.key + j) =
           if s.keeps (p.key + j) (BitVec.ofNat 8 (v / 2 ^ (8 * j))) = true then s.byteAt (p.key + j) else BitVec.ofNat 8 (v / 2 ^ (8 * j))) ∧
         KeptOutside s t p.key n))) ∧
  (∀ (s : State) (tid : Nat) (a : Access) (p : Place) (n v : Nat), Performs s tid a → a.op = .st p n v → p.home = .hbm →
     let key := s.keyIdent p.keyId
     ∃ t, exec (.accessPerformsAtHome tid) s = .next t ∧ (MemOk s → MemOk t) ∧
       (MemOk s → ∀ j, j < n → t.hbmByte (p.key + j) key = BitVec.ofNat 8 (v / 2 ^ (8 * j))) ∧
       (MemOk s → ∀ k, (k < p.key ∨ p.key + n ≤ k) → t.hbmByte k key = s.hbmByte k key) ∧
       (∀ k, (k / 16 < p.key / 16 ∨ (p.key + n - 1) / 16 < k / 16) → t.byteAt k = s.byteAt k)) ∧
  (∀ (s : State) (tid : Nat) (a : Access), Performs s tid a →
     let rest := (s.thread tid).memQ.filter (fun b => b.id != a.id)
     (∀ d ls base, a.op = .ldv d ls base → SoleWriter (s.thread tid) a.id (.v d) → (ls.map Prod.fst).Nodup → ∃ t,
       exec (.accessPerformsAtHome tid) s = .next t ∧ OneThread s t tid ∧ (t.thread tid).memQ = rest ∧
       (∀ i, i < 32 → (∀ l ∈ ls, l.1 ≠ i) → lane ((t.thread tid).vreg d) i = lane base i) ∧
       (∀ l ∈ ls, l.1 < 32 → lane ((t.thread tid).vreg d) l.1 = BitVec.ofNat 32 (leNat (s.placeBytes l.2 4)))) ∧
     (∀ ls blocks, a.op = .stv ls blocks → ls.length ≤ 32 → (∀ l ∈ ls, (∀ c, l.1.home ≠ .peer c) ∧ l.1.home ≠ .hbm ∧ l.1.key % 4 = 0 ∧ ∀ j, j < 4 → s.roByte (l.1.key + j) = false) → ∃ t,
       exec (.accessPerformsAtHome tid) s = .next t ∧ (t.thread tid).memQ = rest ∧ (MemOk s → MemOk t) ∧
       (∀ k, (∀ l ∈ ls, k < l.1.key ∨ l.1.key + 4 ≤ k) → t.byteAt k = s.byteAt k) ∧
       (∀ xs l ys, MemOk s → ls = xs ++ l :: ys → (∀ y ∈ ys, y.1.key ≠ l.1.key) → leNat (t.bytesAt l.1.key 4) = l.2.toNat)))

/-- R176, R179, R180: vector loads and stores: lane i at base + 4i, at base + i x stride, or at base + index(i); active lanes are accessed in ascending order; a masked
load leaves the other lanes 0 under Z and v[d] otherwise.
That the checks are made at issue is log entry 6, and their order, lane by lane, log entry 26. -/
def Obligations.VectorAccesses : Prop :=
  ∀ (s : State) (gd : Guard) (d a b : BitVec 5) (im : BitVec 12) (kw : Option (BitVec 32)) (z : BitVec 1) (k : BitVec 3),
    s.guard gd = true → NoOlderSync s →
    let line (i : Nat) : Nat := ((s.s b).toNat + (immS12 im kw).toNat + 4 * i) % 2 ^ 48
    let strided (i : Nat) : Nat := (s.s a + BitVec.ofNat 64 i * ((s.s b).setWidth 32).signExtend 64).toNat % 2 ^ 48
    let indexed (i : Nat) : Nat := (s.s a + (lane (s.v b) i).setWidth 64).toNat % 2 ^ 48
    let act := activeLanes s k
    let loads (i : Instr) (ls : List Nat) (va : Nat → Nat) (base : VecReg) : Prop :=
      (∀ ps, s.checkAll s.cur.tid s.me .load 4 (ls.map (fun j => (va j, 4))) = .ok ps →
        ∃ t, exec i s = .next t ∧ Queued s t (.ldv d.toNat (ls.zip ps) base) (loadLatency ps) [.v d.toNat] false 0) ∧
      (∀ f, s.checkAll s.cur.tid s.me .load 4 (ls.map (fun j => (va j, 4))) = .error (.fault f) → SnapFree s →
        ∃ t, exec i s = .next t ∧ Trapped s t f)
    let stores (i : Instr) (ls : List Nat) (va : Nat → Nat) (blocks : Bool) : Prop :=
      (∀ ps, s.checkAll s.cur.tid s.me .store 4 (ls.map (fun j => (va j, 4))) = .ok ps →
        (ps ≠ [] → (∀ p ∈ ps, p.window? = none) →
          ∃ t, exec i s = .next t ∧ Queued s t (.stv (ps.zip (ls.map (lane (s.v d)))) blocks) (storeLatency ps) [] false 0) ∧
        ∃ u, u = { s with threads := u.threads, tags := u.tags } ∧ OthersKept s u ∧ u.me = { s.me with ready := u.me.ready } ∧
          exec i s = .next (u.storeWords (ls.map va) ps (ls.map (lane (s.v d))) blocks)) ∧
      (∀ f, s.checkAll s.cur.tid s.me .store 4 (ls.map (fun j => (va j, 4))) = .error (.fault f) → SnapFree s →
        ∃ t, exec i s = .next t ∧ Trapped s t f)
    loads (.ldv gd d b im kw) (List.range 32) line 0 ∧
    loads (.ldvs gd d a b z k) act strided (if z = 1 then 0 else s.v d) ∧
    loads (.ldvx gd d a b z k) act indexed (if z = 1 then 0 else s.v d) ∧
    stores (.stv gd d b im kw) (List.range 32) line true ∧
    stores (.stvs gd d a b k) act strided false ∧
    stores (.stvx gd d a b k) act indexed false

/-- R181 to R185, R308, R309: atomics at s[a] in their scope, and FENCE: checked at issue, then waiting to perform; an order with release reaches the counters of the
scope when it performs, and an access with an order is a synchronisation operation; VAMO takes the lanes whose offset is not 0xFFFF_FFFF.
R181, Table 7-6: what an atomic leaves at its home and returns: the old value returns zero-extended, and the bytes take the operation's result; CAS stores only where
it finds the expected value, LDA leaves the bytes as they are, and STA leaves its operand. No other byte changes. The FP32 operations add by RNE and raise their flags as the
value returns. VAMO applies its lanes in ascending order, those of one bank in different cycles, a later lane of one word seeing the earlier's result. In HBM the bytes are
read and left under the key of their page.
That the checks are made at issue is log entry 6; LDA and STA to the scratchpad of a peer core travel as atomic entries of its queue (log entry 24); which atomic unit an 8-byte atomic takes, and that of HBM, are log entry 70. -/
def Obligations.Atomics : Prop :=
  (∀ (s : State) (gd : Guard) (d a b : BitVec 5) (w : BitVec 1) (sc o : BitVec 3),
     s.guard gd = true → NoOlderSync s →
     let n := if w = 1 then 8 else 4
     let va := (s.s a).toNat % 2 ^ 48
     let rel := if o = 2 ∨ o = 3 ∨ o = 4 then sc.toNat else 0
     let sync : Bool := o != 0
     let low (x : DWord) : Nat := x.toNat % 2 ^ (8 * n)
     let peer (p : Place) : Prop := ∃ c, p.home = .peer c
     let acts (i : Instr) (k : AccKind) (f : Place → State → Prop) : Prop :=
       (∀ p, s.checkAll s.cur.tid s.me ⟨k, true, some sc.toNat, 3⟩ n [(va, n)] = .ok [p] → ∃ t, exec i s = .next t ∧ f p t) ∧
       (∀ e, s.checkAll s.cur.tid s.me ⟨k, true, some sc.toNat, 3⟩ n [(va, n)] = .error (.fault e) → SnapFree s →
         ∃ t, exec i s = .next t ∧ Trapped s t e)
     acts (.lda gd d a w sc o) .read (fun p t => Queued s t (.amo (.s d.toNat) p n aopLda 0) p.atomLatency [.s d.toNat] sync 0) ∧
     acts (.sta gd d a w sc o) .write (fun p t => Queued s t (.amo .none p n aopSta (low (s.s d))) (storeLatency [p]) [] sync rel) ∧
     (∀ q : BitVec 4, acts (.amo gd d a w sc q o) .atomic (fun p t =>
       Queued s t (.amo (.s d.toNat) p n q.toNat (low (s.s d))) p.atomLatency [.s d.toNat] sync rel)) ∧
     acts (.cas gd d a b w sc o) .atomic (fun p t => Queued s t (.cas (.s d.toNat) p n (low (s.s d)) (low (s.s b))) p.atomLatency [.s d.toNat] sync rel) ∧
     (∀ q : BitVec 4,
       let act := (List.range 32).filter (fun i => lane (s.v b) i != 0xFFFFFFFF#32)
       let pieces := act.map (fun i => ((s.s a + (lane (s.v b) i).setWidth 64).toNat % 2 ^ 48, 4))
       (∀ ps, s.checkAll s.cur.tid s.me ⟨.atomic, true, some sc.toNat, 3⟩ 4 pieces = .ok ps →
         let ls := act.zip (ps.zip (act.map (lane (s.v d))))
         let lat := ps.foldl (fun m p => Max.max m p.atomLatency) 1
         ∃ t, exec (.vamo gd d a b sc q) s = .next t ∧
           ((∀ p ∈ ps, ¬ peer p) → Queued s t (.vamo d.toNat ls q.toNat (s.v d) 0) lat [.v d.toNat] false 0) ∧
           ((∃ p ∈ ps, peer p) → Queued s t (.peerVamo d.toNat ls q.toNat (s.v d) 0 0 none) lat [.v d.toNat] false 0)) ∧
       (∀ e, s.checkAll s.cur.tid s.me ⟨.atomic, true, some sc.toNat, 3⟩ 4 pieces = .error (.fault e) → SnapFree s →
         ∃ t, exec (.vamo gd d a b sc q) s = .next t ∧ Trapped s t e)) ∧
     (∃ t, exec (.fence gd sc o) s = .next t ∧ Queued s t .fence 1 [] true rel)) ∧
  ((∀ (s : State) (tid : Nat) (a : Access) (r : Nat) (p : Place) (n : Nat),
     Performs s tid a → (∀ c, p.home ≠ .peer c) → p.home ≠ .hbm → r ≠ 0 → (n = 4 ∨ n = 8) → (∀ j, j < n → s.roByte (p.key + j) = false) →
     SoleWriter (s.thread tid) a.id (.s r) →
     let old := leNat (s.bytesAt p.key n)
     (∀ op x, a.op = .amo (.s r) p n op x → op < 12 → x < 2 ^ (8 * n) → ∃ t, exec (.accessPerformsAtHome tid) s = .next t ∧
       (t.thread tid).sreg r = BitVec.ofNat 64 old ∧ (MemOk s → leNat (t.bytesAt p.key n) = (amoApply n op old x).1 % 2 ^ (8 * n)) ∧ KeptOutside s t p.key n ∧
       (t.thread tid).ctl.fstat = (s.thread tid).ctl.fstat ||| (amoApply n op old x).2 ∧ (∀ b, p.bank = some b → t.atoms = b :: s.atoms)) ∧
     (∀ x y, a.op = .cas (.s r) p n x y → y < 2 ^ (8 * n) → ∃ t, exec (.accessPerformsAtHome tid) s = .next t ∧
       (t.thread tid).sreg r = BitVec.ofNat 64 old ∧ (MemOk s → leNat (t.bytesAt p.key n) = (if old = x then y else old)) ∧ KeptOutside s t p.key n) ∧
     (a.op = .amo (.s r) p n aopLda 0 → ∃ t, exec (.accessPerformsAtHome tid) s = .next t ∧ (t.thread tid).sreg r = BitVec.ofNat 64 old ∧ t.mem = s.mem) ∧
     (∀ x, a.op = .amo .none p n aopSta x → x < 2 ^ (8 * n) → ∃ t, exec (.accessPerformsAtHome tid) s = .next t ∧ (t.thread tid).regs = (s.thread tid).regs ∧
       (MemOk s → leNat (t.bytesAt p.key n) = x) ∧ KeptOutside s t p.key n)) ∧
   (∀ (s : State) (tid : Nat) (a : Access) (r : Nat) (p : Place) (n : Nat),
     Performs s tid a → p.home = .hbm → r ≠ 0 → (n = 4 ∨ n = 8) → SoleWriter (s.thread tid) a.id (.s r) →
     let key := s.keyIdent p.keyId
     let old := leNat (s.hbmBytes p.key key n)
     (∀ op x, a.op = .amo (.s r) p n op x → op < 12 → x < 2 ^ (8 * n) → ∃ t, exec (.accessPerformsAtHome tid) s = .next t ∧
       (t.thread tid).sreg r = BitVec.ofNat 64 old ∧ (MemOk s → leNat (t.hbmBytes p.key key n) = (amoApply n op old x).1 % 2 ^ (8 * n)) ∧
       (MemOk s → ∀ k, (k < p.key ∨ p.key + n ≤ k) → t.hbmByte k key = s.hbmByte k key)) ∧
     (∀ x y, a.op = .cas (.s r) p n x y → y < 2 ^ (8 * n) → ∃ t, exec (.accessPerformsAtHome tid) s = .next t ∧
       (t.thread tid).sreg r = BitVec.ofNat 64 old ∧ (old ≠ x → t.mem = s.mem) ∧ (old = x → MemOk s → leNat (t.hbmBytes p.key key n) = y)) ∧
     (a.op = .amo (.s r) p n aopLda 0 → ∃ t, exec (.accessPerformsAtHome tid) s = .next t ∧ (t.thread tid).sreg r = BitVec.ofNat 64 old ∧ t.mem = s.mem)) ∧
   (∀ (s : State) (tid : Nat) (a : Access) (d op : Nat) (ls : List (Nat × Place × Word)) (base : VecReg) (fl : Fp.Flags),
     Performs s tid a → a.op = .vamo d ls op base fl → op < 12 → SoleWriter (s.thread tid) a.id (.v d) →
     (∀ l ∈ ls, l.1 < 32 ∧ (l.2.1.home = .own ∨ ∃ b, l.2.1.home = .die b) ∧ l.2.1.key % 4 = 0 ∧ ∀ j, j < 4 → s.roByte (l.2.1.key + j) = false) → (ls.map Prod.fst).Nodup →
     let old (l : Nat × Place × Word) : Nat := leNat (s.bytesAt l.2.1.key 4)
     let res (l : Nat × Place × Word) : Nat × Fp.Flags := amoApply 4 op (old l) l.2.2.toNat
     ((∀ l ∈ ls, s.bankUsed l.2.1 = false) → (ls.map (fun l => l.2.1.bank)).Nodup → ∃ t, exec (.accessPerformsAtHome tid) s = .next t ∧
       (t.thread tid).memQ = (s.thread tid).memQ.filter (fun b => b.id != a.id) ∧
       (∀ l ∈ ls, lane ((t.thread tid).vreg d) l.1 = BitVec.ofNat 32 (old l) ∧ (MemOk s → leNat (t.bytesAt l.2.1.key 4) = (res l).1 % 2 ^ 32)) ∧
       (∀ i, i < 32 → (∀ l ∈ ls, l.1 ≠ i) → lane ((t.thread tid).vreg d) i = lane base i) ∧
       (∀ k, (∀ l ∈ ls, k < l.2.1.key ∨ l.2.1.key + 4 ≤ k) → t.byteAt k = s.byteAt k) ∧
       (t.thread tid).ctl.fstat = ls.foldl (fun f l => f ||| (res l).2) ((s.thread tid).ctl.fstat ||| fl)) ∧
     (∀ l m rest, ls = l :: m :: rest → l.2.1.bank = m.2.1.bank → ∃ t, exec (.accessPerformsAtHome tid) s = .next t ∧
       (t.thread tid).memQ = (s.thread tid).memQ.map (fun b => if b.id = a.id then
         { a with op := .vamo d (m :: rest) op (withLanes base [(l.1, old l)]) (fl ||| (res l).2) } else b) ∧
       (t.thread tid).regs = (s.thread tid).regs ∧ (t.thread tid).ctl = (s.thread tid).ctl ∧
       (MemOk s → leNat (t.bytesAt l.2.1.key 4) = (res l).1 % 2 ^ 32) ∧ KeptOutside s t l.2.1.key 4)) ∧
   (∀ n old x, (n = 4 ∨ n = 8) → old < 2 ^ (8 * n) → x < 2 ^ (8 * n) →
     let so : Int := (BitVec.ofNat (8 * n) old).toInt
     let sx : Int := (BitVec.ofNat (8 * n) x).toInt
     (amoApply n 0 old x).1 = (old + x) % 2 ^ (8 * n) ∧ (amoApply n 1 old x).1 = old &&& x ∧ (amoApply n 2 old x).1 = old ||| x ∧
     (amoApply n 3 old x).1 = old ^^^ x ∧ (amoApply n 4 old x).1 = (if so ≤ sx then old else x) ∧
     (amoApply n 5 old x).1 = (if sx ≤ so then old else x) ∧ (amoApply n 6 old x).1 = Min.min old x ∧ (amoApply n 7 old x).1 = Max.max old x ∧
     (amoApply n 8 old x).1 = x ∧ (∀ op, op < 9 → (amoApply n op old x).2 = 0)) ∧
   (∀ old x : Word,
     amoApply 4 9 old.toNat x.toNat = ((Fp.fadd .rne old x).1.toNat, (Fp.fadd .rne old x).2) ∧
     amoApply 4 10 old.toNat x.toNat = ((Fp.fminmax false old x).1.toNat, (Fp.fminmax false old x).2) ∧
     amoApply 4 11 old.toNat x.toNat = ((Fp.fminmax true old x).1.toNat, (Fp.fminmax true old x).2)))

/-! ## Clusters -/

/-- R270 to R272: a store to a peer's scratchpad takes a credit and is appended, in a free place, to the queue of its core there as a write entry; without a credit it waits. QUEUE_ENTRY_APPLY
takes the queues round robin: a write entry stores the bytes of its mask, an atomic answers with the old value, a message is marked ready; a freed entry's credit starts
back, and QUEUE_CREDIT_RETURN gives those due.
R275 to R278: messages. MQSEND appends a message behind the core's earlier entries for its target and answers true, or answers false without credits; MQRECV takes the
oldest ready message of a queue; MQSTAT reads credits or a queue's counters; a selector with a reserved bit traps QUEUE_MISUSE.
The place of an entry in its queue, and the latency of a message, are log entries 25 and 34. -/
def Obligations.QueuesAndMessages : Prop :=
  ((∀ (s : State) (tid : Nat) (a : Access) (p : Place) (n v c off : Nat), Performs s tid a → a.op = .st p n v → p.home = .peer c → p.key = padPlace c off → c / 8 = coreOf tid / 8 →
     off < 2 ^ 20 → off % 128 + n ≤ 128 → 1 ≤ n →
     let j := coreOf tid % 8
     ((s.core (coreOf tid)).credit (c % 8) = 0 → exec (.accessPerformsAtHome tid) s = .next s) ∧
     ((s.core (coreOf tid)).credit (c % 8) ≠ 0 → ∃ t e, exec (.accessPerformsAtHome tid) s = .next t ∧ (t.thread tid).memQ = (s.thread tid).memQ.filter (fun b => b.id != a.id) ∧
       ((t.core c).queue j).ents = ((s.core c).queue j).ents ++ [e] ∧ ((t.core c).queue j).tail = ((s.core c).queue j).tail + 1 ∧
       e.kind = 1 ∧ e.src = j ∧ e.addr = off / 128 * 128 ∧ e.ready = s.cycle + 8 ∧
       (∀ i, i < 128 → e.bmask.getLsbD i = decide (off % 128 ≤ i ∧ i < off % 128 + n)) ∧
       (∀ i, i < n → e.data / 2 ^ (8 * (off % 128 + i)) % 256 = v / 2 ^ (8 * i) % 256) ∧
       (t.core (coreOf tid)).credit (c % 8) = (s.core (coreOf tid)).credit (c % 8) - 1 ∧
       e.place < 16 ∧ (((s.core c).queue j).ents.length < 16 → ∀ x ∈ ((s.core c).queue j).ents, x.place ≠ e.place) ∧ KeptOutside s t (queuePlace c j e.place) 192)) ∧
   (∀ (s : State) (core : Nat),
     (s.turn core = none → exec (.queueEntryApply core) s = .next s) ∧
     (∀ j e, s.turn core = some (j, e) →
       s.nextEntry core j = some e ∧ s.cycle ≥ e.ready ∧
       (∀ i, i < 8 → (∀ l, l ≤ i → ((s.core core).served + 1 + l) % 8 ≠ j) → s.nextEntry core (((s.core core).served + 1 + i) % 8) = none) ∧
       (e.kind = 1 → ∃ t, exec (.queueEntryApply core) s = .next t ∧ t.threads = s.threads ∧ (t.core core).served = j ∧
         (∀ i, MemOk s → i < 128 → e.bmask.getLsbD i = true → s.roByte (padPlace core e.addr + i) = false →
           t.byteAt (padPlace core e.addr + i) = BitVec.ofNat 8 (e.data / 2 ^ (8 * i))) ∧
         (∀ k, k ≠ queuePlace core j e.place → (∀ i, i < 128 → e.bmask.getLsbD i = true → k ≠ padPlace core e.addr + i) → t.byteAt k = s.byteAt k) ∧
         ((t.core core).queue j).ents = ((s.core core).queue j).ents.filter (fun x => x.place != e.place) ∧
         ⟨s.cycle + 4, core % 8, false⟩ ∈ (t.core (core / 8 * 8 + j)).back) ∧
       (e.kind = 3 → ∃ t, exec (.queueEntryApply core) s = .next t ∧ t = { s with cores := t.cores } ∧
         ((t.core core).queue j).ents = ((s.core core).queue j).ents.map (fun x => if x.place = e.place then { x with marked := some s.cycle } else x)) ∧
       (e.kind = 2 → (e.size = 4 ∨ e.size = 8) → e.aop < 12 → e.operand < 2 ^ (8 * e.size) → ∀ a d p n,
         (s.thread e.asker).memQ.find? (fun x => !x.op.outbound) = some a → a.op = .peerAmo d p n none →
         (∀ i, i < e.size → s.roByte (padPlace core e.addr + i) = false) →
         let old := leNat (s.bytesAt (padPlace core e.addr) e.size)
         ∃ t, exec (.queueEntryApply core) s = .next t ∧
           { a with op := .peerAmo d p n (some (old, (amoApply e.size e.aop old e.operand).2)), ready := s.cycle + 7 } ∈ (t.thread e.asker).memQ ∧ (t.thread e.asker).memQ.length = (s.thread e.asker).memQ.length ∧
           (MemOk s → leNat (t.bytesAt (padPlace core e.addr) e.size) = (amoApply e.size e.aop old e.operand).1 % 2 ^ (8 * e.size))))) ∧
   (∀ (s : State) (core k : Nat), k < 8 → ∃ t, exec (.queueCreditReturn core) s = .next t ∧ t = { s with cores := t.cores } ∧
     (t.core core).back = (s.core core).back.filter (fun b => decide (s.cycle < b.at_)) ∧
     (t.core core).credit k = (s.core core).credit k + ((s.core core).back.filter (fun b => decide (b.at_ ≤ s.cycle ∧ b.target = k))).length ∧
     (t.core core).msgCredit k = (s.core core).msgCredit k + ((s.core core).back.filter (fun b => decide (b.at_ ≤ s.cycle ∧ b.target = k ∧ b.msg = true))).length)) ∧
  (∀ (s : State) (gd : Guard) (d a b : BitVec 5), s.guard gd = true →
     let x := (s.s a).toNat
     let core := coreOf s.cur.tid
     let j := x % 8
     let misuse : TrapInfo := trapInfo .queueMisuse 5 1
     (x / 2 ^ 3 % 2 ^ 5 ≠ 0 ∨ x / 2 ^ 13 % 2 ^ 19 ≠ 0 → SnapFree s → ∃ t, exec (.mqsend gd d a b) s = .next t ∧ Trapped s t misuse) ∧
     (x / 2 ^ 3 % 2 ^ 5 = 0 → x / 2 ^ 13 % 2 ^ 19 = 0 →
       ((s.core core).credit j = 0 ∨ (s.core core).msgCredit j = 0 → exec (.mqsend gd d a b) s = .next (s.postVar (.g d.toNat) 0)) ∧
       ((s.core core).credit j ≠ 0 → (s.core core).msgCredit j ≠ 0 →
         (∀ k, k < 4 → (s.thread (4 * core + k)).memQ.all (fun m => !m.op.sends.contains (core / 8 * 8 + j)) = true) →
         ∃ t e, exec (.mqsend gd d a b) s = .next t ∧ t.threads = (s.postVar (.g d.toNat) 1).threads ∧ t.hub = s.hub ∧ t.dies = s.dies ∧
           ((t.core (core / 8 * 8 + j)).queue (core % 8)).ents = ((s.core (core / 8 * 8 + j)).queue (core % 8)).ents ++ [e] ∧
           e.kind = 3 ∧ e.src = core % 8 ∧ e.ln = x / 2 ^ 8 % 2 ^ 5 ∧ e.tag = BitVec.ofNat 32 (x / 2 ^ 32) ∧
           e.data = (s.v b).toNat % 2 ^ (32 * (x / 2 ^ 8 % 2 ^ 5 + 1)) ∧ e.marked = none ∧
           (t.core core).credit j = (s.core core).credit j - 1 ∧ (t.core core).msgCredit j = (s.core core).msgCredit j - 1)) ∧
     (∀ (c : BitVec 1) (k : BitVec 3),
       (8 ≤ x → SnapFree s → ∃ t, exec (.mqrecv gd d a c k) s = .next t ∧ Trapped s t misuse) ∧
       (x < 8 → (s.core core).message (c == 1) x = none → exec (.mqrecv gd d a c k) s = .next (s.postVar (.g k.toNat) 0)) ∧
       (x < 8 → ∀ q e, (s.core core).message (c == 1) x = some (q, e) →
         e.isMsg = true ∧ e.marked.isSome = true ∧ e ∈ ((s.core core).queue q).ents ∧ (c = 0 → q = x) ∧
         exec (.mqrecv gd d a c k) s = .next ((((s.freeEntry core q e).postVar (.v d.toNat) e.data).postVar (.s a.toNat)
           (e.tag.toNat * 2 ^ 32 + e.seq * 2 ^ 16 + e.ln * 8 + e.src)).postVar (.g k.toNat) 1))) ∧
     (16 ≤ x → SnapFree s → ∃ t, exec (.mqstat gd d a) s = .next t ∧ Trapped s t misuse) ∧
     (8 ≤ x → x < 16 → exec (.mqstat gd d a) s =
       .next (s.postVar (.s d.toNat) ((s.core core).credit (x - 8) + (s.core core).msgCredit (x - 8) * 2 ^ 5))) ∧
     (x < 8 → ∃ head, exec (.mqstat gd d a) s = .next (s.postVar (.s d.toNat) (((s.core core).queue x).tail % 65536 + head * 2 ^ 16 +
         ((s.core core).queue x).ents.length * 2 ^ 32 +
         (((s.core core).queue x).ents.filter (fun e => e.isMsg && e.marked.isSome)).length * 2 ^ 37)) ∧
       (((s.core core).queue x).ents = [] → head = ((s.core core).queue x).tail % 65536) ∧
       (∀ e es, ((s.core core).queue x).ents = e :: es → head = e.seq)))

/-- R282 to R284: sheaf rings. RPUSH.open opens a free ring, or answers false where it is held; RPUSH of the owner takes the next slot and queues the read of its source, or
answers false while a consumer still has that slot; RPUSH.close frees a ring without work, and answers false with a slot held or a delivery under way; RPOP and RSTAT give the status word of the core's current slot, or EMPTY or ORPHAN without one,
and RPOP clears the core's bit there and marks the core's records of the slot; the misuses record sub-codes 1 to 5.
R168, R282, R285: a delivery waits for a free range entry and for the accesses to its bytes that issued before it, takes the entry, waits for its bytes to move, 128 a cycle, and then lands: its bytes stand at its place, no other byte changes, the slot's LAND bit of
its core is set, and its range is released. A thread that saw a delivery READY meets of accesses that a pop of the slot followed, before that delivery, what came after the pop.
The SLOT field where the slot has not landed is log entry 35, and the one range entry of a delivery log entry 37. -/
def Obligations.SheafRings : Prop :=
  (∀ (s : State) (gd : Guard) (d a b : BitVec 5), s.guard gd = true →
     let x := (s.s a).toNat
     let y := (s.s b).toNat
     let core := coreOf s.cur.tid
     let clu := clusterOf s.cur.tid
     let r := s.ring clu (x % 8)
     let kept (t : State) : Prop := t = { s with threads := t.threads, clusters := t.clusters } ∧ OthersKept s t ∧ ∀ k, k ≠ x % 8 → t.ring clu k = s.ring clu k
     (8 ≤ x → SnapFree s → ∃ t, exec (.rpushOpen gd d a b) s = .next t ∧ Trapped s t (trapInfo .ringMisuse 5 1)) ∧
     (x < 8 → badRing y core = true → SnapFree s → ∃ t, exec (.rpushOpen gd d a b) s = .next t ∧ Trapped s t (trapInfo .ringMisuse 5 2)) ∧
     (x < 8 → badRing y core = false → (r.st = 1 ∨ (r.st = 2 ∧ r.held = true)) → exec (.rpushOpen gd d a b) s = .next (s.postVar (.g d.toNat) 0)) ∧
     (x < 8 → badRing y core = false → r.st ≠ 1 → (r.st = 2 → r.held = false) → ∃ t, exec (.rpushOpen gd d a b) s = .next t ∧ kept t ∧
       t.threads = (s.postVar (.g d.toNat) 1).threads ∧ t.ring clu x =
         { st := 1, owner := s.cur.tid, pcore := core % 8, base := y % 2 ^ 20, sz := y / 2 ^ 20 % 8, ns := y / 2 ^ 24 % 32,
           cm := BitVec.ofNat 8 (y / 2 ^ 32), pushes := 0, opens := r.opens + 1, slots := [] }) ∧
     (let m := x / 2 ^ 8 % 2 ^ 8
      let n := x / 2 ^ 16 % 2 ^ 20
      let i := r.pushes % r.ns
      x / 2 ^ 3 % 2 ^ 5 = 0 → x / 2 ^ 36 = 0 → r.st = 1 → r.owner = s.cur.tid → m ≠ 0 → BitVec.ofNat 8 m &&& ~~~r.cm = 0 → n ≠ 0 → n % 128 = 0 → n ≤ r.slotBytes →
      y % 128 = 0 → y + n ≤ 0xF6000 →
       ((r.slot i).ms ≠ 0 → exec (.rpush gd d a b) s = .next (s.postVar (.g d.toNat) 0)) ∧
       ((r.slot i).ms = 0 → NoOlderSync s → ∀ ps, s.checkAll s.cur.tid s.me ⟨.read, false, none, 5⟩ 1 (piecesOf y n) = .ok ps →
         ∃ t, exec (.rpush gd d a b) s = .next t ∧ OthersKept s t ∧ t.mem = s.mem ∧
           t.ring clu (x % 8) = { r with pushes := (r.pushes + 1) % 2 ^ 32, slots := tset r.slots i ⟨BitVec.ofNat 8 m, 0, r.pushes⟩ } ∧
           (∃ e, t.me.memQ = s.me.memQ ++ [e] ∧ e.op = .rpush (x % 8) i (padPlace core y) n (r.base + i * r.slotBytes) m s.me.rel) ∧
           t.me.regs = s.me.regs ∧ t.me.flight = s.me.flight ∧ (d = 0 → t.me.due = s.me.due) ∧
           (d ≠ 0 → t.me.due = s.me.due ++ [⟨.g d.toNat, 1, s.cycle, s.me.ord, s.cur.slot⟩]))) ∧
     (x / 2 ^ 3 % 2 ^ 5 ≠ 0 ∨ x / 2 ^ 36 ≠ 0 → SnapFree s → ∃ t, exec (.rpush gd d a b) s = .next t ∧ Trapped s t (trapInfo .ringMisuse 5 1)) ∧
     (let m := x / 2 ^ 8 % 2 ^ 8
      let n := x / 2 ^ 16 % 2 ^ 20
      x / 2 ^ 3 % 2 ^ 5 = 0 → x / 2 ^ 36 = 0 → r.st = 1 → r.owner = s.cur.tid →
      m = 0 ∨ BitVec.ofNat 8 m &&& ~~~r.cm ≠ 0 ∨ n = 0 ∨ n % 128 ≠ 0 ∨ r.slotBytes < n ∨ y % 128 ≠ 0 ∨ 0xF6000 < y + n → SnapFree s →
       ∃ t, exec (.rpush gd d a b) s = .next t ∧ Trapped s t (trapInfo .ringMisuse 5 4)) ∧
     (8 ≤ x → SnapFree s → (∃ t, exec (.rpushClose gd d a) s = .next t ∧ Trapped s t (trapInfo .ringMisuse 5 1)) ∧
       ∀ k : BitVec 3, (∃ t, exec (.rpop gd d a k) s = .next t ∧ Trapped s t (trapInfo .ringMisuse 5 1)) ∧
         (∃ t, exec (.rstat gd d a k) s = .next t ∧ Trapped s t (trapInfo .ringMisuse 5 1))) ∧
     (r.st ≠ 1 ∨ r.owner ≠ s.cur.tid → SnapFree s →
       (x / 2 ^ 3 % 2 ^ 5 = 0 → x / 2 ^ 36 = 0 → ∃ t, exec (.rpush gd d a b) s = .next t ∧ Trapped s t (trapInfo .ringMisuse 5 3)) ∧
       (x < 8 → ∃ t, exec (.rpushClose gd d a) s = .next t ∧ Trapped s t (trapInfo .ringMisuse 5 3))) ∧
     (x < 8 → r.st = 1 → r.owner = s.cur.tid → r.held = false → (s.cluster clu).deliveries.all (fun e => e.ring != x) = true →
       s.me.memQ.all (fun e => match e.op with | .rpush j _ _ _ _ _ _ => j != x | _ => true) = true →
       ∃ t, exec (.rpushClose gd d a) s = .next t ∧ kept t ∧ t.threads = (s.postVar (.g d.toNat) 1).threads ∧ t.ring clu x = { r with st := 0 }) ∧
     (x < 8 → r.st = 1 → r.owner = s.cur.tid →
       r.held = true ∨ (∃ e ∈ (s.cluster clu).deliveries, e.ring = x) ∨ (∃ e ∈ s.me.memQ, ∃ i p n to_ m rel, e.op = .rpush x i p n to_ m rel) →
       exec (.rpushClose gd d a) s = .next (s.postVar (.g d.toNat) 0)) ∧
     (∀ k : BitVec 3, x < 8 →
       (r.st ≠ 0 → r.cm.getLsbD (core % 8) = false → SnapFree s →
         (∃ t, exec (.rpop gd d a k) s = .next t ∧ Trapped s t (trapInfo .ringMisuse 5 5)) ∧
         (∃ t, exec (.rstat gd d a k) s = .next t ∧ Trapped s t (trapInfo .ringMisuse 5 5))) ∧
       (r.st = 0 → exec (.rpop gd d a k) s = .next ((s.postVar (.s d.toNat) 0x300000000).postVar (.g k.toNat) 0) ∧
         exec (.rstat gd d a k) s = .next ((s.postVar (.s d.toNat) 0x300000000).postVar (.g k.toNat) 0)) ∧
       (∀ j, (r.st = 1 ∧ j = 0) ∨ (r.st = 2 ∧ j = 0x200000000) → r.cm.getLsbD (core % 8) = true → (∀ i, i < r.ns → (r.slot i).ms.getLsbD (core % 8) = false) →
         exec (.rpop gd d a k) s = .next ((s.postVar (.s d.toNat) j).postVar (.g k.toNat) 0) ∧
         exec (.rstat gd d a k) s = .next ((s.postVar (.s d.toNat) j).postVar (.g k.toNat) 0)) ∧
       (∀ i, r.st ≠ 0 → r.cm.getLsbD (core % 8) = true → r.current (core % 8) = some i →
         (r.slot i).ms.getLsbD (core % 8) = true ∧ (∀ l, l < r.ns → (r.slot l).ms.getLsbD (core % 8) = true → (r.slot i).ps ≤ (r.slot l).ps) ∧
         ((r.slot i).land.getLsbD (core % 8) = false →
           exec (.rpop gd d a k) s = .next ((s.postVar (.s d.toNat) (i * 2 ^ 20)).postVar (.g k.toNat) 0) ∧
           exec (.rstat gd d a k) s = .next ((s.postVar (.s d.toNat) (i * 2 ^ 20)).postVar (.g k.toNat) 0)) ∧
         ((r.slot i).land.getLsbD (core % 8) = true →
           let w := r.base + i * r.slotBytes + i * 2 ^ 20 + 2 ^ 32
           (∃ u t, exec (.rstat gd d a k) s = .next t ∧ t = (u.postVar (.s d.toNat) w).postVar (.g k.toNat) 1 ∧ ThreadsOnly s u ∧ OthersKept s u ∧
             u.me = { s.me with seen := u.me.seen } ∧ ringKey clu x r.opens (r.slot i).ps ∈ u.me.seen) ∧
           (∃ u t, exec (.rpop gd d a k) s = .next t ∧ t = (u.postVar (.s d.toNat) w).postVar (.g k.toNat) 1 ∧ u.me = { s.me with seen := u.me.seen } ∧
             u = { s with threads := u.threads, clusters := u.clusters, tags := u.tags } ∧ OthersKept s u ∧ (∀ l, l ≠ x → u.ring clu l = s.ring clu l) ∧
             u.tags = (s.tagPop core (padPlace core (r.base + i * r.slotBytes)) r.slotBytes ⟨clu * 8 + x, r.opens * 2 ^ 32 + (r.slot i).ps, r.ns, 0, 0⟩).tags ∧
             ringKey clu x r.opens (r.slot i).ps ∈ u.me.seen ∧
             u.ring clu x = { r with slots := tset r.slots i { r.slot i with ms := (r.slot i).ms &&& ~~~(BitVec.ofNat 8 (2 ^ (core % 8))) } }))))) ∧
  ((∀ (q : Rec) (p : Popped) (seen : List (Nat × Nat)), q.ring = none → q.popped = some p →
     let later : Prop := ∃ e ∈ seen, e.1 = p.ring ∧ e.2 / 2 ^ 32 = p.push / 2 ^ 32 ∧ p.push < e.2 ∧ (e.2 - p.push) % p.slots = 0
     (later → q.after seen = some { q with wr := p.wr, rd := p.rd }) ∧ (¬ later → q.after seen = some q)) ∧
   (∀ (s : State) (clu k : Nat) (x : Delivery), (s.cluster clu).deliveries[k]? = some x → x.core < 8 → x.dst < 2 ^ 20 → x.bytes.length ≤ 2 ^ 20 →
     let core := clu * 8 + x.core
     (x.lands = none → (s.core core).ranges.length < 32 → s.slotInUse core x = false → ∃ t, exec (.ringDeliveryLand clu k) s = .next t ∧ t.mem = s.mem ∧ t.threads = s.threads ∧
       (t.core core).ranges = (s.core core).ranges ++ [⟨x.dst / 64 * 64, (x.dst + x.bytes.length + 63) / 64 * 64, ringOwner x.ring x.slot⟩] ∧
       (t.cluster clu).deliveries[k]? = some { x with lands := some (s.cycle + x.bytes.length / 128) }) ∧
     (x.lands = none → 32 ≤ (s.core core).ranges.length ∨ s.slotInUse core x = true → exec (.ringDeliveryLand clu k) s = .next s) ∧
     (∀ u, x.lands = some u → s.cycle < u → exec (.ringDeliveryLand clu k) s = .next s) ∧
     (∀ u, x.lands = some u → u ≤ s.cycle → ∃ t, exec (.ringDeliveryLand clu k) s = .next t ∧ t.threads = s.threads ∧ (MemOk s → MemOk t) ∧
       (MemOk s → t.bytesAt (padPlace core x.dst) x.bytes.length = x.bytes) ∧ KeptOutside s t (padPlace core x.dst) x.bytes.length ∧
       (∀ r ∈ (t.core core).ranges, r.owner ≠ ringOwner x.ring x.slot) ∧
       ((t.ring clu x.ring).slot x.slot).land = ((s.ring clu x.ring).slot x.slot).land ||| BitVec.ofNat 8 (2 ^ x.core) ∧
       ((t.ring clu x.ring).slot x.slot).ms = ((s.ring clu x.ring).slot x.slot).ms)))

/-- R286 to R288, R291: FUSE joins a set of its range or begins one, with its three misuses; DECOUPLE leaves the set, and its core's other sequencers issue from the next
cycle on; lock step ends with the last participant that runs in it, and a trapped participant's DECOUPLE ends its wait at REJOIN (log entry 77); REJOIN raises
the participant's input, ends the lock step it runs in, and waits. -/
def Obligations.FusedSets : Prop :=
  ∀ (s : State) (gd : Guard) (n : BitVec 4) (f : BitVec 3) (d : BitVec 5), s.guard gd = true →
    let k := coreOf s.cur.tid % 8
    let clu := clusterOf s.cur.tid
    let sets := (s.cluster clu).sets
    let inRange : Prop := f.toNat ≤ k ∧ k < f.toNat + n.toNat
    let cored : Prop := ∃ x ∈ sets, ∃ p ∈ x.parts, p.1 = k
    let overlaps (x : FuseSet) : Prop := (x.f ≠ f.toNat ∨ x.n ≠ n.toNat) ∧ x.f < f.toNat + n.toNat ∧ f.toNat < x.f + x.n
    let traps (i : Instr) (sub : DWord) : Prop := SnapFree s → ∃ t, exec i s = .next t ∧ Trapped s t (trapInfo .queueMisuse 5 sub)
    (¬ inRange → traps (.fuse gd n f) 0x10) ∧
    (inRange → cored → traps (.fuse gd n f) 0x11) ∧
    (inRange → ¬ cored → (∃ x ∈ sets, overlaps x) → traps (.fuse gd n f) 0x12) ∧
    (inRange → ¬ cored → (∀ x ∈ sets, ¬ overlaps x) → ∃ t, exec (.fuse gd n f) s = .next t ∧ t = { s with clusters := t.clusters } ∧
      ∃ x ∈ (t.cluster clu).sets, x.f = f.toNat ∧ tget 0x7FF x.parts k = s.cur.tid ∧
        ((∀ y ∈ sets, y.f ≠ f.toNat) → x.parts = [(k, s.cur.tid)] ∧ x.formed = decide (n = 1) ∧ x.lock = false ∧ x.n = n.toNat)) ∧
    (s.fuseOf s.cur.tid = none → traps (.decouple gd) 0x13 ∧ traps (.rejoin gd d) 0x13) ∧
    (∀ x, s.fuseOf s.cur.tid = some x →
      (s.me.waits.any Wait.isLine = false → ∃ t, exec (.decouple gd) s = .next t ∧ t = { s with clusters := t.clusters, cores := t.cores } ∧
        t.core (coreOf s.cur.tid) = { s.core (coreOf s.cur.tid) with openAt := s.cycle + 1 } ∧ (∀ c, c ≠ coreOf s.cur.tid → t.core c = s.core c) ∧
        ∀ y ∈ (t.cluster clu).sets, (y ∈ sets ∧ ∀ p ∈ y.parts, p.2 ≠ s.cur.tid) ∨
          (∃ z ∈ sets, (∃ p ∈ z.parts, p.2 = s.cur.tid) ∧ y.f = z.f ∧ y.parts = tdel z.parts k ∧ y.parts ≠ [] ∧ y.retest = s.cycle + 1 ∧
            (y.lock = true ↔ z.lock = true ∧ ∃ p ∈ y.parts, z.solo.contains p.1 = false))) ∧
      (∀ r, s.me.wait = some (.rejoin r) → s.me.st = .trapped → ∃ t, exec (.decouple gd) s = .next t ∧ OthersKept s t ∧ t.me.wait = none ∧ t.me.regs = s.me.regs ∧
        ∀ y ∈ (t.cluster clu).sets, ∀ p ∈ y.parts, p.1 = k → p.2 ≠ s.cur.tid) ∧
      (∃ t, exec (.rejoin gd d) s = .next t ∧ OthersKept s t ∧ t.me = s.me.park (s.cur.pc, s.me.loops) (some (.rejoin d.toNat)) none ∧
        (Unwaiting s.me → t.me = { s.me with st := .waiting, wait := some (.rejoin d.toNat), back := some (s.me.back.getD (s.cur.pc, s.me.loops)) }) ∧
        (∃ y, t.fuseOf s.cur.tid = some y ∧ y.parts = x.parts ∧ (x.solo.contains k = false → y.lock = false) ∧ (x.solo.contains k = true → y.lock = x.lock) ∧ tget false y.high k = true)))

/-! ## The M slot and the matrix engine -/

/-- R218, R223, R224, R235, R245: claims, parameters and predicates. MCLAIM takes all of a set or none, and answers; MSETP, MGETP and MPRED move parameters and predicate
registers; MTIDR reads a doubleword of an entry; MWAIT holds its bundle until at most n commands remain. That MSETP with H = 0 takes any halfword number is log entry 21. -/
def Obligations.MatrixRegisters : Prop :=
  ∀ (s : State) (gd : Guard) (d a b : BitVec 5), s.guard gd = true →
    let core := coreOf s.cur.tid
    (∀ tiles : BitVec 1,
      let set := if tiles = 1 then onesBelow 16 (s.s a).toNat else onesBelow 64 (s.s a).toNat
      let own (t : State) : Table Nat := if tiles = 1 then (t.core core).arr.tileOwn else (t.core core).arr.slotOwn
      let leaving (i : Nat) : Prop := ∃ c ∈ s.me.mat.queue, ∃ m, c.op = .rel (tiles == 1) m ∧ i ∈ claimSet (tiles == 1) m
      let free (i : Nat) : Prop := (∀ e ∈ own s, e.1 ≠ i) ∨ ((own s).find? (fun e => e.1 == i) = some (i, s.cur.tid) ∧ ¬ leaving i)
      ((∀ i ∈ set, free i) → ∃ t u, exec (.mclaim gd d a tiles) s = .next t ∧ t = u.postVar (.g d.toNat) 1 ∧ u = { s with cores := u.cores } ∧
        (∀ i ∈ set, tget 0x7FF (own u) i = s.cur.tid) ∧ (∀ i, i ∉ set → tget 0x7FF (own u) i = tget 0x7FF (own s) i) ∧
        (u.core core).arr = (if tiles = 1 then { (s.core core).arr with tileOwn := own u } else { (s.core core).arr with slotOwn := own u })) ∧
      ((∃ i ∈ set, ¬ free i) → exec (.mclaim gd d a tiles) s = .next (s.postVar (.g d.toNat) 0))) ∧
    (∀ y : BitVec 2, exec (.msetp gd d a 0 y) s = .next (s.post (.p d.toNat) (s.s a).toNat 1) ∧
      ∃ r : DWord, exec (.msetp gd d a 1 y) s = .next (s.post (.p d.toNat) r.toNat 1) ∧
        ∀ i, i < 64 → r.getLsbD i = if 16 * y.toNat ≤ i ∧ i < 16 * y.toNat + 16 then (s.s a).getLsbD (i - 16 * y.toNat) else (s.p d).getLsbD i) ∧
    exec (.mgetp gd d a) s = .next (s.postS d (s.p a) 2) ∧
    exec (.mpred gd d a b 0) s = .next (s.post (.q d.toNat) (s.s a).toNat 1) ∧
    exec (.mpred gd d a b 1) s = .next (s.postS d (s.q a) 1) ∧
    (∀ h : Nat, h < 2 → ∃ r : DWord, exec (.mpred gd d a b (BitVec.ofNat 7 (2 + h))) s = .next (s.post (.q d.toNat) r.toNat 1) ∧
      ∀ i, i < 64 → r.getLsbD i = if 32 * h ≤ i ∧ i < 32 * h + 32 then decide (lane (s.v a) (i - 32 * h) ≠ 0) else (s.q d).getLsbD i) ∧
    exec (.mpred gd d a b 4) s = .next (s.post (.q d.toNat) (s.q a &&& s.q b).toNat 1) ∧
    exec (.mpred gd d a b 5) s = .next (s.post (.q d.toNat) (s.q a ||| s.q b).toNat 1) ∧
    exec (.mpred gd d a b 6) s = .next (s.post (.q d.toNat) (s.q a &&& ~~~(s.q b)).toNat 1) ∧
    exec (.mpred gd d a b 7) s = .next (s.postG d ((s.q a).getLsbD ((s.s b).toNat % 64)) 1) ∧
    (∀ (k : BitVec 3) (e : BitVec 1),
      let n := a.toNat + 32 * e.toNat
      (s.entryPending n = true → exec (.mtidr gd d a k e) s = .next { s with cur := { s.cur with out := .held } }) ∧
      (s.entryPending n = false → (s.me.atF = true ∨ tget 0 (s.core core).arr.entryDom n = s.me.dom) →
        exec (.mtidr gd d a k e) s = .next (s.postS d (BitVec.ofNat 64 ((tget 0 (s.core core).arr.entries n).toNat / 2 ^ (64 * k.toNat))) 2)) ∧
      (s.entryPending n = false → s.me.atF = false → tget 0 (s.core core).arr.entryDom n ≠ s.me.dom → SnapFree s →
        ∃ t, exec (.mtidr gd d a k e) s = .next t ∧ Trapped s t (trapInfo .tensorId 4 0x12))) ∧
    (∀ c : BitVec 6,
      (s.me.mat.queue.length ≤ c.toNat → exec (.mwait gd c) s = .next s) ∧
      (c.toNat < s.me.mat.queue.length → exec (.mwait gd c) s = .next { s with cur := { s.cur with out := .held } }))

/-- R220, R222, R225 to R232, R237, R244, R433: what the matrix commands put into the thread's queue at issue, with the operands as they are then; a command whose predicate
bit is 0 enters it and does nothing; one with an image also queues the read of it. An MCALL in lock step is a part of a gang of the participants, which leaves every
participant's queue once no part is open, and none before (R292).
What an MRDROW with AF 2 or 3 draws under RST is log entry 72. -/
def Obligations.MatrixCommandsAtIssue : Prop :=
  ∀ (s : State) (gd : Guard) (d a b : BitVec 5) (im : BitVec 12) (kw : Option (BitVec 32)), s.guard gd = true →
    let puts (i : Instr) (op : MatOp) (foot : Nat) (dests : List Dest) : Prop := ∃ t, exec i s = .next t ∧ MatQueued s t op foot dests
    let image (i : Instr) (op : MatOp) (align n ea : Nat) : Prop :=
      (ea % align = 0 → PadReadable s 4 ea n → ∃ t, exec i s = .next t ∧ ImageQueued s t op ea n) ∧
      (ea % align ≠ 0 → SnapFree s → ∃ t, exec i s = .next t ∧ Trapped s t (trapInfo .misaligned 4 0 (BitVec.ofNat 48 ea))) ∧
      (ea % align = 0 → 0x100000 < ea + n → SnapFree s →
        ∃ t, exec i s = .next t ∧ Trapped s t (trapInfo .scratchRange 4 0 (BitVec.ofNat 48 (Max.max ea 0x100000))))
    let ea := ((s.s a).toNat + (immS12 im kw).toNat) % 2 ^ 48
    let on (p : BitVec 1) : Prop := p = 0 ∨ (s.q (BitVec.ofNat 3 ((s.s b).toNat / 2 ^ 32))).getLsbD ((s.s b).toNat / 2 ^ 40 % 64) = true
    let tile (t : BitVec 4) : Nat := footTiles [t.toNat]
    let gang : Option (List Nat × Nat) := (s.fuseOf s.cur.tid).bind (fun f =>
      if f.lock = true ∧ ∃ p ∈ f.parts, p.2 = s.cur.tid ∧ f.solo.contains p.1 = false then
        some ((f.parts.filter (fun p => !f.solo.contains p.1)).map Prod.snd, s.cycle) else none)
    let calls (i : Instr) (op : MatOp) (foot : Nat) : Prop := ∃ t, exec i s = .next t ∧ MatQueued s t op foot [] gang
    (∀ (v : BitVec 5) (q x : BitVec 3) (w p : BitVec 1) (r : BitVec 6),
      let runs : Prop := p = 0 ∨ (s.q q).getLsbD ((s.p x).toNat % 64) = true
      (runs → calls (.mcall gd v q x w p r) (.call r.toNat ((List.range 8).map s.src.preg) (if w = 1 then some (s.v v) else none) s.src.ctl.round.toNat
        s.codeLevels.1 s.codeLevels.2) ((s.core (coreOf s.cur.tid)).arr.heldFoot s.cur.tid)) ∧
      (¬ runs → calls (.mcall gd v q x w p r) .nop 0)) ∧
    (∀ g : List Nat × Nat,
      ((∃ t ∈ g.1, ∃ c ∈ (s.thread t).mat.queue, c.gang = some g ∧ c.st ≠ .done) → s.gangTest g = s) ∧
      ((∀ t ∈ g.1, ∀ c ∈ (s.thread t).mat.queue, c.gang = some g → c.st = .done) →
        (∀ t ∈ g.1, ∀ c ∈ ((s.gangTest g).thread t).mat.queue, c.gang ≠ some g) ∧ (∀ t, t ∉ g.1 → (s.gangTest g).thread t = s.thread t))) ∧
    (∀ (t : BitVec 4) (p x : BitVec 1) (j : BitVec 2),
      (on p → puts (.mzero gd t a b p j x) (.zero t.toNat (x == 1) j.toNat ((s.s a).setWidth 16)) (tile t) [] ∧
        puts (.mnorm gd t a b p x) (.norm t.toNat (x == 1) ((s.s a).setWidth 16)) (tile t) []) ∧
      (¬ on p → puts (.mzero gd t a b p j x) .nop 0 [] ∧ puts (.mnorm gd t a b p x) .nop 0 [])) ∧
    (∀ (t : BitVec 4) (r : BitVec 3) (f : BitVec 2),
      ((s.roundCode3 r ≠ 5 ∨ 2 ≤ f.toNat) → puts (.mrdrow gd d t b r f) (.rdrow t.toNat (s.s b).toNat d.toNat f.toNat (s.roundCode3 r) []) (tile t) [.v d.toNat]) ∧
      (s.roundCode3 r = 5 → f.toNat < 2 → ∃ u, exec (.mrdrow gd d t b r f) s = .next u ∧
        MatQueued (s.draws16 32).2 u (.rdrow t.toNat (s.s b).toNat d.toNat f.toNat 5 (s.draws16 32).1) (tile t) [.v d.toNat]) ∧
      puts (.mwrrow gd d t b f) (.wrrow t.toNat (s.s b).toNat f.toNat (s.v d)) (tile t) []) ∧
    puts (.mcellPre gd d) (.cell d.toNat) 0 [] ∧
    (∀ p : BitVec 2, puts (.mflow gd 0 p a im kw) (.flow p.toNat false) 0 []) ∧
    puts (.mrel gd a 0) (.rel false (s.s a)) (footSlots (onesBelow 64 (s.s a).toNat)) [] ∧
    puts (.mrel gd a 1) (.rel true (s.s a)) (footTiles (onesBelow 16 (s.s a).toNat)) [] ∧
    (∀ (q : BitVec 2) (e : BitVec 1), puts (.mdup gd d a b q e) (.dup (d.toNat + 32 * e.toNat) (s.s a) (s.s b) q.toNat s.me.atF) 0 []) ∧
    puts (.mcodeFixed gd) (.mcode true) 0 [] ∧
    image (.mcell gd a im kw) (.cell 0) 4 56 ea ∧
    (∀ p : BitVec 2, image (.mflow gd 1 p a im kw) (.flow p.toNat true) 8 128 ea) ∧
    image (.mcode gd a im kw) (.mcode false) 2 32 ea ∧
    (∀ e : BitVec 6, image (.mtid gd a e) (.tid e.toNat s.me.atF) 8 64 ((s.s a).toNat % 2 ^ 48)) ∧
    (let key := padPlace (coreOf s.cur.tid) ea
     let len := leNat (s.bytesAt key 8) / 2 ^ 8 % 2 ^ 9
     let n := if 1 ≤ len ∧ len ≤ 256 then 8 + 8 * len else 8
     (∀ e ∈ s.me.memQ, ∀ x ∈ e.op.touches, x.2.2 = true → x.1 + x.2.1 ≤ key ∨ key + 8 ≤ x.1) → ea % 8 = 0 → PadReadable s 4 ea 8 →
      (∀ ps, s.checkAll s.cur.tid s.me ⟨.read, false, none, 4⟩ 1 (piecesOf ea 8) = .ok ps →
        PadReadable ((s.recordAll s.cur.tid s.me ⟨.read, false, none, 4⟩ (ps.zip ((piecesOf ea 8).map Prod.snd))).awaitAnswers ps) 4 ea n) →
      ∃ t, exec (.mrout gd d a im kw) s = .next t ∧ ImageQueued s t (.rout ((s.s d).toNat % 256)) ea n)

/-- R186 to R188: tile transfers. Each waits for the commands that use its slot or tile, traps SLOT_UNCLAIMED on one the thread does not hold, and otherwise queues its
transfer once the bytes it touches have passed their checks; TLDA and TST with a predicate bit of 0 do nothing; a TST under RST draws 1,024 values.
R186 to R188: the tile transfers perform: TLD fills the 32 rows of its slot from its entry and changes no memory; TLDA replaces its tile by the elements read and changes no memory; TST stores the rows of its tile, each element in its format, and changes no other byte.
What a TST with .raw draws under RST is log entry 72, and errors of a slot that were already found are log entry 71. -/
def Obligations.TileTransfers : Prop :=
  (∀ (s : State) (gd : Guard) (d a b : BitVec 5), s.guard gd = true →
     let core := coreOf s.cur.tid
     let arr := (s.core core).arr
     let held (i : Instr) : Prop := exec i s = .next { s with cur := { s.cur with out := .held } }
     (∀ (t x y : BitVec 1),
       let slot := d.toNat + 32 * y.toNat
       let entry := b.toNat + 32 * x.toNat
       let te := arr.tensor entry
       let k0 := (s.s a).toNat % 2 ^ 20
       let row0 := (s.s a).toNat / 2 ^ 20 % 2 ^ 20
       let spans := (List.range (Min.min 32 (te.rows - row0))).flatMap (fun r => te.rowSpans (t == 1) (row0 + r) k0)
       (s.entryPending entry = true ∨ s.footBusy (footSlots [slot]) = true → held (.tld gd d a b t x y)) ∧
       (s.entryPending entry = false → s.footBusy (footSlots [slot]) = false →
         (arr.holdsSlot s.cur.tid slot = false → SnapFree s → ∃ u, exec (.tld gd d a b t x y) s = .next u ∧ Trapped s u (trapInfo .slotUnclaimed 3)) ∧
         (arr.holdsSlot s.cur.tid slot = true →
           (∀ i, tldCheck te (tget 0 arr.entryDom entry != s.me.dom) (t == 1) row0 k0 = some i → SnapFree s →
             ∃ u, exec (.tld gd d a b t x y) s = .next u ∧ Trapped s u i) ∧
           (tldCheck te (tget 0 arr.entryDom entry != s.me.dom) (t == 1) row0 k0 = none → (∀ p ∈ spans, p.1 + p.2 ≤ 0x100000) → NoOlderSync s → s.slotSpoiled core slot = false →
             ∀ ps, s.checkAll s.cur.tid s.me ⟨.read, false, none, 3⟩ 1 (spans.flatMap (fun p => piecesOf p.1 p.2)) = .ok ps →
               ∃ u, exec (.tld gd d a b t x y) s = .next u ∧
                 Queued s u (.tld slot entry (t == 1) row0 k0 (spans.map (fun p => (padPlace core p.1, p.2)))) (17 + if te.sm = 0 ∧ te.sp = 0 then 0 else 2) [] false 0)))) ∧
     (∀ (t : BitVec 4) (p : BitVec 1) (r f : BitVec 3),
       let on : Prop := p = 0 ∨ (s.q (BitVec.ofNat 3 ((s.s b).toNat / 2 ^ 32))).getLsbD ((s.s b).toNat / 2 ^ 40 % 64) = true
       let n := afBytes f.toNat
       let va := (s.s a).toNat % 2 ^ 48
       let str := (s.s b).toNat % 2 ^ 20
       let rows := (List.range 32).map (fun r => (va + r * str, 32 * n))
       (¬ on → exec (.tlda gd t a b p f) s = .next s ∧ exec (.tst gd t a b p r f) s = .next s) ∧
       (on → s.footBusy (footTiles [t.toNat]) = true → held (.tlda gd t a b p f) ∧ held (.tst gd t a b p r f)) ∧
       (on → s.footBusy (footTiles [t.toNat]) = false → arr.holdsTile s.cur.tid t.toNat = false → SnapFree s →
         (∃ u, exec (.tlda gd t a b p f) s = .next u ∧ Trapped s u (trapInfo .slotUnclaimed 3)) ∧
         (∃ u, exec (.tst gd t a b p r f) s = .next u ∧ Trapped s u (trapInfo .slotUnclaimed 3))) ∧
       (on → s.footBusy (footTiles [t.toNat]) = false → arr.holdsTile s.cur.tid t.toNat = true → va % n = 0 → str % n = 0 →
         (∀ x ∈ rows, x.1 + x.2 ≤ 0x100000) → NoOlderSync s →
         (∀ ps, s.checkAll s.cur.tid s.me ⟨.read, false, none, 3⟩ 1 (rows.flatMap (fun p => piecesOf p.1 p.2)) = .ok ps →
           ∃ u, exec (.tlda gd t a b p f) s = .next u ∧ Queued s u (.tlda t.toNat f.toNat (padPlace core va) str) (8 * n + 1) [] false 0) ∧
         (∀ ps, s.checkAll s.cur.tid s.me ⟨.write, false, none, 3⟩ 1 (rows.flatMap (fun p => piecesOf p.1 p.2)) = .ok ps → s.cellErr core = none →
           ((s.roundCode3 r ≠ 5 ∨ 4 ≤ f.toNat) → ∃ u, exec (.tst gd t a b p r f) s = .next u ∧
             Queued s u (.tst t.toNat f.toNat (padPlace core va) str (s.roundCode3 r) []) (8 * n + 1) [] false 0) ∧
           (s.roundCode3 r = 5 → f.toNat < 4 → ∃ u, exec (.tst gd t a b p r f) s = .next u ∧
             Queued (s.draws16 1024).2 u (.tst t.toNat f.toNat (padPlace core va) str 5 (s.draws16 1024).1) (8 * n + 1) [] false 0))))) ∧
  (∀ (s : State) (tid : Nat) (a : Access), Performs s tid a →
     let core := coreOf tid
     let arr := (s.core core).arr
     let rest := (s.thread tid).memQ.filter (fun b => b.id != a.id)
     (∀ slot entry tr row0 k0 sp, a.op = .tld slot entry tr row0 k0 sp → tcanon 0 0 (s.core core).arr.slots = true → ∃ t, exec (.accessPerformsAtHome tid) s = .next t ∧
       t.mem = s.mem ∧ (t.thread tid).memQ = rest ∧ (t.thread tid).regs = (s.thread tid).regs ∧ tcanon 0 0 (t.core core).arr.slots = true ∧
       (∀ r, r < 32 → tget 0 (t.core core).arr.slots (32 * slot + r) =
         (tensorOf (tget 0 (s.core core).arr.entries entry).toNat).slotRow (fun off n => leNat (s.bytesAt (padPlace core off) n)) tr (row0 + r) k0) ∧
       (∀ k, (k < 32 * slot ∨ 32 * slot + 32 ≤ k) → tget 0 (t.core core).arr.slots k = tget 0 (s.core core).arr.slots k)) ∧
     (∀ tile af b st, a.op = .tlda tile af b st → ∃ t, exec (.accessPerformsAtHome tid) s = .next t ∧ t.mem = s.mem ∧ (t.thread tid).memQ = rest ∧
       (t.thread tid).regs = (s.thread tid).regs ∧
       (t.core core).arr.tile tile =
         (tileLoad af ((List.range 1024).map (fun i => leNat (s.bytesAt (b + i / 32 * st + i % 32 * afBytes af) (afBytes af))))).1 ∧
       (∀ k, k ≠ tile → (t.core core).arr.tile k = (s.core core).arr.tile k)) ∧
     (∀ tile af b st md rnd, a.op = .tst tile af b st md rnd → ∃ t, exec (.accessPerformsAtHome tid) s = .next t ∧ (MemOk s → MemOk t) ∧
       (t.thread tid).memQ = rest ∧ (t.thread tid).regs = (s.thread tid).regs ∧ t.cores = s.cores ∧
       (∀ k, (∀ r, r < 32 → k < b + r * st ∨ b + r * st + 32 * afBytes af ≤ k) → t.byteAt k = s.byteAt k) ∧
       (MemOk s → 32 * afBytes af ≤ st → 
         (∀ i j, i < 1024 → j < afBytes af → s.roByte (b + i / 32 * st + i % 32 * afBytes af + j) = false) → ∀ i, i < 1024 →
         leNat (t.bytesAt (b + i / 32 * st + i % 32 * afBytes af) (afBytes af)) =
           (nth (0, 0) (tileStore (arr.tile tile) af (fun j => modeOf md (nth 0 rnd j))) i).1 % 2 ^ (8 * afBytes af))))

/-- R83, R200, R202, R208, R211: the configuration commands at the engine, each alone in its thread's queue when its turn has come: MCELL gives every cell its program and initial
values, MFLOW sets the flow state, MROUT writes the routine store and table; an image that breaks a rule halts the queue and reports ROUTINE with its sub-code. A loaded code
table becomes active once no call uses the other bank.
R233, R234, R236, R237: MTID and MDUP at the engine: their content is checked when they start, and the entry takes its value when they end; a broken rule halts the
queue with TENSOR_ID. -/
def Obligations.ConfigurationAndTables : Prop :=
  (∀ (s : State) (tid : Nat) (c : MatCmd), (s.thread tid).mat.queue = [c] → c.st = .queued → s.canStart tid c true = true →
     let core := coreOf tid
     let arr := (s.core core).arr
     let img := c.image.getD []
     let dom := (s.thread tid).dom
     let applied (i : Instr) (n : Nat) (p : Array → Prop) : Prop := ∃ t, exec i s = .next t ∧ t.mem = s.mem ∧ p (t.core core).arr ∧
       (t.thread tid).mat.queue = [{ c with st := .running (s.cycle + n - 1) }] ∧ (t.thread tid).regs = (s.thread tid).regs
     let refused (i : Instr) (cause : Cause) (sub : Nat) : Prop := c.org.tid = tid → s.hears c.org = true →
       ∃ t, exec i s = .next t ∧ (t.thread tid).mat.halted = true ∧ (t.thread tid).mat.queue = [{ c with st := .failed 0 }] ∧ (t.core core).arr = arr ∧
         (t.thread tid).faults = (s.thread tid).faults ++ [⟨trapInfo cause 4 (BitVec.ofNat 64 sub) 0 (BitVec.ofNat 32 c.num), s.cycle, c.org⟩]
     let i : Instr := .configCommandApply tid
     (∀ p, c.op = .cell p → p ≠ 0 → applied i 12 (fun a => a.cell = ⟨presetWords p, 0, 0, none, true⟩ ∧ a.c0 = [] ∧ a.c1 = [] ∧ a.h = [])) ∧
     (∀ p, c.op = .cell 0 → cellOf img dom = .ok p → applied i 12 (fun a => a.cell = p ∧ a.h = [] ∧
       ∀ k, k < 1024 → tget ⟨0, 0⟩ a.c0 k = ⟨p.c0i, 0⟩ ∧ tget ⟨0, 0⟩ a.c1 k = ⟨p.c1i, 0⟩)) ∧
     (∀ n, c.op = .cell 0 → cellOf img dom = .error n → c.gang = none → refused i .routine n) ∧
     (∀ p, c.op = .flow p false → applied i 6 (fun a => a.flow = ⟨p, []⟩ ∧ a.h = [])) ∧
     (∀ p f, c.op = .flow p true → flowOf img p = some f → applied i 6 (fun a => a.flow = f ∧ a.h = [])) ∧
     (∀ p, c.op = .flow p true → flowOf img p = none → c.gang = none → refused i .routine 3) ∧
     (∀ st a, c.op = .rout st → arr.loadRoutine img st dom = .ok a → applied i (2 + ceilDiv (nbits (imgNat img 0 8) 8 9) 2) (fun b => b = a)) ∧
     (∀ st n, c.op = .rout st → arr.loadRoutine img st dom = .error n → c.gang = none → refused i .routine n) ∧
     (let f := arr.code
      let busy := (s.coreCmds core).any (fun d => match d.2.op with | .call _ _ _ _ _ b => b == f.active | _ => false)
      (f.flip = true → busy = false → ∃ t, exec (.codeTableFlip core) s = .next t ∧ t = { s with cores := t.cores } ∧
        (t.core core).arr = { arr with code := { f with active := 1 - f.active, flip := false } }) ∧
      (f.flip = false ∨ busy = true → exec (.codeTableFlip core) s = .next s))) ∧
  (∀ (s : State) (tid : Nat) (c : MatCmd), (s.thread tid).mat.queue = [c] →
     let core := coreOf tid
     let arr := (s.core core).arr
     let img := leNat (c.image.getD [])
     let dom := (s.thread tid).dom
     (∀ e f, c.op = .tid e f →
       (∀ a, c.st = .queued → s.canStart tid c true = true → arr.loadEntry e img f dom = .ok a → ∃ t, exec (.tableCommandApply tid) s = .next t ∧
         (t.thread tid).mat.queue = [{ c with st := .running (s.cycle + 1) }] ∧ t.cores = s.cores ∧ t.mem = s.mem) ∧
       (∀ u a, c.st = .running u → u ≤ s.cycle → arr.loadEntry e img f dom = .ok a → ∃ t, exec (.tableCommandApply tid) s = .next t ∧
         (t.thread tid).mat.queue = [] ∧ (t.core core).arr = a ∧ t.mem = s.mem ∧ tget 0 a.entries e = BitVec.ofNat 512 img ∧ tget 0 a.entryDom e = dom)) ∧
     (∀ e hw nd q f, c.op = .dup e hw nd q f →
       (∀ a, c.st = .queued → s.canStart tid c true = true → arr.dupEntry e hw nd q f dom = .ok a → ∃ t, exec (.tableCommandApply tid) s = .next t ∧
         (t.thread tid).mat.queue = [{ c with st := .running (s.cycle + 1) }] ∧ t.cores = s.cores ∧ t.mem = s.mem) ∧
       (∀ u a, c.st = .running u → u ≤ s.cycle → arr.dupEntry e hw nd q f dom = .ok a → ∃ t, exec (.tableCommandApply tid) s = .next t ∧
         (t.thread tid).mat.queue = [] ∧ (t.core core).arr = a ∧ t.mem = s.mem)) ∧
     (∀ e f n, c.op = .tid e f → c.st = .queued → s.canStart tid c true = true → arr.loadEntry e img f dom = .error n → c.gang = none →
       c.org.tid = tid → s.hears c.org = true →
       ∃ t, exec (.tableCommandApply tid) s = .next t ∧ (t.thread tid).mat.halted = true ∧ t.cores = s.cores ∧
         (t.thread tid).faults = (s.thread tid).faults ++ [⟨trapInfo .tensorId 4 (BitVec.ofNat 64 n) 0 (BitVec.ofNat 32 c.num), s.cycle, c.org⟩]))

/-- R218, R225, R229 to R232, R244: the other commands at the engine: MZERO sets every element of its tile, MNORM and MWRROW change their tile, MRDROW reads its row
when it starts and writes its vector register when it ends, MREL clears and frees what the thread holds, MCODE loads the bank that is not active, and a command whose predicate was 0 retires without effect; a tile
the thread does not hold halts the queue with SLOT_UNCLAIMED. -/
def Obligations.TileCommands : Prop :=
  ∀ (s : State) (tid : Nat) (c : MatCmd), (s.thread tid).mat.queue = [c] → c.gang = none →
    let core := coreOf tid
    let arr := (s.core core).arr
    let i : Instr := .matrixCommandEngineApply tid
    let starts (p : State → Prop) : Prop := c.st = .queued → s.canStart tid c true = true → ∃ t, exec i s = .next t ∧ t.mem = s.mem ∧
      (t.thread tid).regs = (s.thread tid).regs ∧ p t
    let ends (p : State → Prop) : Prop := ∀ u, c.st = .running u → u ≤ s.cycle → ∃ t, exec i s = .next t ∧ t.mem = s.mem ∧ (t.thread tid).mat.queue = [] ∧ p t
    let runs (n : Nat) (t : State) : Prop := (t.thread tid).mat.queue = [{ c with st := .running (s.cycle + n - 1) }]
    let othersKept (t : State) (tile : Nat) : Prop := ∀ k, k ≠ tile → (t.core core).arr.tile k = arr.tile k
    (c.op = .nop → starts (fun t => (t.thread tid).mat.queue = [] ∧ t.cores = s.cores)) ∧
    (∀ tile fl idn e, c.op = .zero tile fl idn e → arr.holdsTile tid tile = true → starts (fun t => runs 2 t ∧ othersKept t tile ∧
      ((t.core core).arr.tile tile).int = fl ∧ ((t.core core).arr.tile tile).e = (if fl = true then 0 else e.toInt) ∧
      (idn = 0 → ∀ k, tget ⟨0, 0⟩ ((t.core core).arr.tile tile).el k = ⟨0, 0⟩) ∧
      (1 ≤ idn → ∀ k, k < 1024 → tget ⟨0, 0⟩ ((t.core core).arr.tile tile).el k = flagged fl (if idn = 1 then 2 else 3)))) ∧
    (∀ tile fl idn e, c.op = .zero tile fl idn e → arr.holdsTile tid tile = false → c.org.tid = tid → s.hears c.org = true → starts (fun t => (t.thread tid).mat.halted = true ∧ t.cores = s.cores ∧
        (t.thread tid).faults = (s.thread tid).faults ++ [⟨trapInfo .slotUnclaimed 4 0 0 (BitVec.ofNat 32 c.num), s.cycle, c.org⟩])) ∧
    (∀ tile tg target, c.op = .norm tile tg target → arr.holdsTile tid tile = true → starts (fun t => runs 4 t ∧ othersKept t tile ∧
      (t.core core).arr.tile tile = (normTile (arr.tile tile) (if tg = true then some target.toInt else none)).1)) ∧
    (∀ tile row d af code us, c.op = .rdrow tile row d af code us → row < 32 →
      let lanes := readRow (arr.tile tile) row af code us
      arr.holdsTile tid tile = true → starts (fun t => t.cores = s.cores ∧
        (t.thread tid).mat.queue = [{ c with st := .running (s.cycle + 3), op := .rowRead d lanes.1 lanes.2 }])) ∧
    (∀ d v fl, c.op = .rowRead d v fl → SoleWriter (s.thread tid) c.id (.v d) →
      ends (fun t => (t.thread tid).vreg d = v ∧ (t.thread tid).ctl.fstat = (s.thread tid).ctl.fstat ||| fl ∧ t.cores = s.cores)) ∧
    (∀ tile row af v, c.op = .wrrow tile row af v → row < 32 → arr.holdsTile tid tile = true → ¬ (af = 0 ∧ (arr.tile tile).int = true) →
      ¬ (af = 1 ∧ (arr.tile tile).int = false) → starts (fun t => othersKept t tile ∧ (t.core core).arr.tile tile = (writeRow (arr.tile tile) row af v).1)) ∧
    (∀ tiles mask, c.op = .rel tiles mask → starts (runs 2) ∧ ends (fun t => ∀ k ∈ claimSet tiles mask,
      (tiles = true → arr.holdsTile tid k = true → (t.core core).arr.tile k = .zero ∧ ∀ e ∈ (t.core core).arr.tileOwn, e.1 ≠ k) ∧
      (tiles = false → arr.holdsSlot tid k = true → (∀ e ∈ (t.core core).arr.slots, e.1 / 32 ≠ k) ∧ ∀ e ∈ (t.core core).arr.slotOwn, e.1 ≠ k))) ∧
    (∀ fixed, c.op = .mcode fixed → starts (runs 2) ∧ ends (fun t => (t.core core).arr.code.flip = true ∧ (t.core core).arr.code.active = arr.code.active ∧
      (let bank := if arr.code.active = 0 then (t.core core).arr.code.bank1 else (t.core core).arr.code.bank0
       bank = if fixed = true then fixedLevels else (List.range 16).map (fun i => BitVec.ofNat 16 (imgNat (c.image.getD []) (2 * i) 2)))))

/-- R213, R220 to R222, R226, R228, R242: a call. MCALL_ENGINE_START runs the checks and the walk of its routine; a failed check is reported when the walk's cycles have passed, and
otherwise, once its stream pages are translated and none lies in a region under test, the tile steps act on the array; MCALL_RETIRE ends the run: the command retires with its flags, or the queue halts with the fault.
When the pages of its streams are translated is log entry 68. -/
def Obligations.MatrixCalls : Prop :=
  ∀ (s : State) (tid : Nat) (c : MatCmd), (s.thread tid).mat.queue = [c] → c.gang = none →
    let core := coreOf tid
    let arr := (s.core core).arr
    let known (pages : List Nat) : Prop :=
      (∀ k ∈ s.engMissing (dieOf tid) (s.engGot (dieOf tid) (.stream tid)) (s.thread tid).dom pages, (s.tlbFind core (s.thread tid).dom (65536 * k)).isSome = true) ∧
      ∀ k ∈ pages, s.leafTested (65536 * k) (s.streamLeaf tid (65536 * k)) = false
    (∀ rt p g md levels bank, c.op = .call rt p g md levels bank → c.st = .queued →
      (s.canStart tid c true = false → exec (.mcallEngineStart tid) s = .next s) ∧
      (s.canStart tid c true = true →
        (∀ i x, s.planCall tid rt p g = .error (i, x) → ∃ t, exec (.mcallEngineStart tid) s = .next t ∧ t.mem = s.mem ∧
          (t.thread tid).regs = (s.thread tid).regs ∧ (t.core core).arr.tiles = arr.tiles ∧
          (∃ r, (t.core core).arr.runs = arr.runs ++ [r] ∧ r.tid = tid ∧ r.cmd = c.num ∧ r.fault = some i) ∧
          (t.thread tid).mat.queue = [{ c with st := .running (s.cycle + ceilDiv x 4), walkEnd := s.cycle + ceilDiv x 4, foot := 0 }]) ∧
        (∀ steps x foot, s.planCall tid rt p g = .ok (steps, x, foot) → known (hbmPages ((steps.flatMap (s.streamPieces tid)).map Prod.fst)) → s.firstFault tid (s.runEnv tid levels g) 0 steps = none →
          ∃ t u, exec (.mcallEngineStart tid) s = .next t ∧ t.mem = s.mem ∧ (t.thread tid).regs = (s.thread tid).regs ∧
            (t.core core).arr.tiles = (arr.runSteps (s.runEnv tid levels g) steps).1.tiles ∧
            (∃ r, (t.core core).arr.runs = (arr.runSteps (s.runEnv tid levels g) steps).1.runs ++ [r] ∧ r.tid = tid ∧ r.cmd = c.num ∧ r.fault = none ∧
              r.flags = (arr.runSteps (s.runEnv tid levels g) steps).2.1 ∧ r.tiles = arr.tiles) ∧
            (t.thread tid).mat.queue = [{ c with st := .running u, walkEnd := s.cycle + ceilDiv x 4, foot := foot }] ∧ s.cycle + 4 ≤ u))) ∧
    (∀ r, s.dueRun tid = some (r, c) →
      (r.fault = none → ∃ t, exec (.mcallRetire tid) s = .next t ∧ (t.thread tid).mat.queue = [] ∧ (t.thread tid).ctl.fstat = (s.thread tid).ctl.fstat ||| r.flags ∧
        (t.core core).arr.tiles = arr.tiles ∧ t.mem = s.mem) ∧
      (∀ i, r.fault = some i → c.org.tid = tid → s.hears c.org = true → ∃ t, exec (.mcallRetire tid) s = .next t ∧
        (t.thread tid).mat.halted = true ∧ (t.thread tid).mat.queue = [{ c with st := .failed (r.stopped.getD 0) }] ∧
        (t.thread tid).faults = (s.thread tid).faults ++ [⟨{ i with cmdidx := BitVec.ofNat 32 c.num, engine := 4 }, s.cycle, c.org⟩])) ∧
    (∀ e r rt p g md levels bank steps x foot,
      arr.runs = [r] → r.tid = tid → r.cmd = c.num → r.fault = none → r.first = 0 → c.op = .call rt p g md levels bank → s.planCall tid rt p g = .ok (steps, x, foot) →
      (stopKind e).1 < steps.length → c.org.tid = tid → s.hears c.org = true →
      ∃ t, exec (.routineStop tid e) s = .next t ∧ (t.thread tid).mat.halted = true ∧ (t.thread tid).mat.queue = [{ c with st := .failed (stopKind e).1 }] ∧
        (t.thread tid).faults = (s.thread tid).faults ++
          [⟨{ stopInfo e (stepWord steps (stopKind e).1) rt with cmdidx := BitVec.ofNat 32 c.num, engine := 4 }, s.cycle, c.org⟩] ∧
        (t.core core).arr.runs = [])

/-! ## Traps -/

/-- R247 to R250: taking a trap while the core's snapshot is free: the trap record is filled and the registers the cause does not name are as the record gives them; the writes in
flight go to the snapshot with the cycles they have left, counted from the first in which the thread could issue; level and state are recorded for the return; the thread enters
TRAPPED at F and fetches its handler at 64 x $cause from cycle t + 6. Nothing else of the machine changes, but that a participant's trap stops lock step: the others wait with their
inputs high.
R249, R253: while another thread holds the core's snapshot a trap is not taken and its bundle is held; a fault of the thread that holds it is a double fault: the core halts
and leaves service, its snapshot stays, and the system cores are interrupted.
The return state of a trap of a TRAPPED thread, and the end of every thread of the core at a double fault, are log entry 29; a REM of 0 for a write that would land before the thread could issue is log entry 32; a TRAPPED thread that stands at a wait of its own is log entry 81. -/
def Obligations.TrapEntry : Prop :=
  ((∀ (s : State) (tid : Nat) (i : TrapInfo) (xpc : VAddr) (f : FuseSet), (s.core (coreOf tid)).snap = none → s.fuseOf tid = some f → f.lock = true →
     f.solo.contains (coreOf tid % 8) = false →
     let t := s.takeTrap tid i xpc
     (t.thread tid).st = .trapped ∧ ∃ f', t.fuseOf tid = some f' ∧ f'.lock = false ∧ f'.parts = f.parts ∧ f'.out = [coreOf tid % 8] ∧
       ∀ p ∈ f.inLock, p.1 ≠ coreOf tid % 8 → p.2 ≠ tid → tget false f'.high p.1 = true ∧
         ((s.thread p.2).st = .running → (t.thread p.2).st = .waiting) ∧ (Unwaiting (s.thread p.2) → (t.thread p.2).wait = some .lockstep)) ∧
   ∀ (s : State) (tid : Nat) (i : TrapInfo) (xpc : VAddr), (s.core (coreOf tid)).snap = none → s.fuseOf tid = none →
     let th := s.thread tid
     let back : TState := if th.st = .waiting ∨ th.paused = true then .waiting else if th.st = .retiring then .retiring else .running
     let first := Max.max th.ready (if th.st = .waiting ∨ th.paused = true then s.cycle + 1 else s.cycle)
     let recs : List SnapRec := th.flight.map (fun f => ⟨f.dest, f.val, f.land + 1 - first, f.slot, f.ord⟩) ++ th.parked
     let t := s.takeTrap tid i xpc
     t = { s with threads := t.threads, cores := t.cores } ∧ (∀ k, k ≠ tid → t.thread k = s.thread k) ∧ (∀ k, k ≠ coreOf tid → t.core k = s.core k) ∧
     t.thread tid = { th with
       st := .trapped, atF := true, ret := ⟨th.atF, back⟩, paused := false, traps := th.ord :: th.traps, walked := [], flight := [], parked := [], wdone := false, pc := BitVec.ofNat 48 (64 * causeCode i.cause), ready := s.cycle + 6,
       snapped := th.snapped ++ recs.map (fun r => (r, th.ord)),
       ctl := { th.ctl with cause := BitVec.ofNat 8 (causeCode i.cause), cmdidx := i.cmdidx, engine := i.engine, estat := i.estat, badaddr := i.badaddr, xpc := xpc } } ∧
     ∃ sn : Snap, t.core (coreOf tid) = { s.core (coreOf tid) with snap := some sn } ∧ sn.tid = tid ∧ sn.dom = th.dom ∧ sn.retF = th.atF ∧ sn.retSt = back ∧
       sn.cause = BitVec.ofNat 8 (causeCode i.cause) ∧ sn.estat = i.estat ∧ sn.badaddr = i.badaddr ∧ sn.xpc = xpc ∧ sn.engine = i.engine ∧ sn.cmdidx = i.cmdidx ∧
       sn.ord = th.ord ∧ sn.recs = recs) ∧
  (∀ (s : State) (i : TrapInfo) (sn : Snap), (s.core (coreOf s.cur.tid)).snap = some sn →
     (sn.tid ≠ s.cur.tid → (∀ xpc, s.takeTrap s.cur.tid i xpc = s) ∧ OthersKept s (s.raise i) ∧
       (s.raise i).me = { s.me with walked := [] } ∧ s.raise i = { s with threads := (s.raise i).threads, cur := { s.cur with out := .held } }) ∧
     (sn.tid = s.cur.tid →
       let t := s.raise i
       let c := coreOf s.cur.tid
       (t.core c).halted = true ∧ (t.core c).inService = false ∧ (t.core c).snap.map Snap.cause = some sn.cause ∧ t.hub.irqs = s.hub.irqs + 2 ∧ t.mem = s.mem ∧
       (∀ k, k < 4 → ((t.thread (4 * c + k)).st = .free ∨ (t.thread (4 * c + k)).st = .retiring) ∧ (t.thread (4 * c + k)).faults = []) ∧
       t.cur.out = .trapped i))

/-- R255 to R257: TRAP raises SOFTWARE_TRAP with its code in $estat and NEXT in $badaddr; GATE n enters service n at level F without a trap once the thread's earlier writes have landed,
and is illegal at F.
R18, R251, R252, R255: SNAPST stores the image of the live snapshot and SNAPREL releases it; both, RFT and RFT.n trap PRIVILEGED at T whatever their guard.
R19, R24, R258: RFT without an image returns to the recorded level and state at $xpc, releases the snapshot, and holds its records, in their order, until the thread may issue again; RFT.n returns to T without the records. Bit 0 of $xpc reads 0 (R34), the halted matrix queue goes on by $estat.RS, and the failing command
of the die engine's queue retires. A thread whose registered wait has not ended is WAITING again, at F as at T.
The engine that traps of RFT and SNAPST record, and the layout of $estat of a GATE at F, are log entries 32 and 22; that the failing command of a die engine retires at RFT is log entry 78; how a handler waits is log entry 81. -/
def Obligations.TrapGateAndReturn : Prop :=
  (∀ (s : State) (gd : Guard), s.guard gd = true →
     (∀ (im : BitVec 17) (kw : Option (BitVec 32)), SnapFree s →
       ∃ t, exec (.trap gd im kw) s = .next t ∧ Trapped s t (trapInfo .softwareTrap 0 (BitVec.ofNat 64 (immU17 im kw)) s.cur.next)) ∧
     (∀ n : BitVec 8,
       (s.me.atF = false → (∀ f ∈ s.me.flight, f.ord = s.me.ord) → ∃ t, exec (.gate gd n) s = .next t ∧ OthersKept s t ∧
         t = { s with threads := t.threads, cur := { s.cur with target := some (BitVec.ofNat 48 (0x4000 + 64 * n.toNat)) } } ∧
         t.me = { s.me with atF := true, ret := ⟨false, .running⟩, wdone := false,
                            ctl := { s.me.ctl with xpc := s.cur.next, cause := 0, estat := n.setWidth 64, engine := 0, cmdidx := 0, badaddr := 0 } }) ∧
       (s.me.atF = false → (∃ f ∈ s.me.flight, f.ord ≠ s.me.ord) → exec (.gate gd n) s = .next { s with cur := { s.cur with out := .held } }) ∧
       (s.me.atF = true → SnapFree s → ∃ t, exec (.gate gd n) s = .next t ∧ Trapped s t (trapInfo .illegalOp 0 (BitVec.ofNat 64 (s.cur.slot + 0x17 * 16)))))) ∧
  (∀ (s : State) (gd : Guard) (a : BitVec 5) (im : BitVec 12) (kw : Option (BitVec 32)),
     (s.me.atF = false → SnapFree s → ∀ i, i = .snapst gd a im kw ∨ i = .snaprel gd ∨ i = .rft gd a ∨ i = .rftN gd →
       ∃ t, exec i s = .next t ∧ Trapped s t (trapInfo .privileged 0)) ∧
     (s.me.atF = true → s.guard gd = true →
       (∀ sn, s.mySnap = some sn →
         let ea := ((s.s a).toNat + (immS12 im kw).toNat) % 2 ^ 48
         let n := sn.image.length
         (ea % 64 = 0 → ea + n ≤ 0x100000 → NoOlderSync s → ∀ ps, s.checkAll s.cur.tid s.me ⟨.write, false, none, 3⟩ 1 (piecesOf ea n) = .ok ps →
           ∃ t, exec (.snapst gd a im kw) s = .next t ∧ Queued s t (.snapst (padPlace (coreOf s.cur.tid) ea) sn.image) (ceilDiv n 128) [] false 0) ∧
         ∃ t, exec (.snaprel gd) s = .next t ∧ t = { s with cores := t.cores } ∧ t.core (coreOf s.cur.tid) = { s.core (coreOf s.cur.tid) with snap := none }) ∧
       (s.mySnap = none → exec (.snaprel gd) s = .next s ∧
         (SnapFree s → ∃ t, exec (.snapst gd a im kw) s = .next t ∧ Trapped s t (trapInfo .illegalOp 0 (BitVec.ofNat 64 (s.cur.slot + 0x19 * 16))))))) ∧
  (∀ (s : State) (gd : Guard) (sn : Snap), s.guard gd = true → s.me.atF = true → s.mySnap = some sn → s.fuseOf s.cur.tid = none → s.me.parked = [] →
     let halted (c : DieCmd) : Prop := c.isHalted = true ∧ c.org.tid = s.cur.tid ∧ c.org.born = s.me.born
     let cmds (s : State) : List DieCmd := (s.die (dieOf s.cur.tid)).cmds
     let back (n : Bool) (t : State) : Prop :=
       t = { s with threads := t.threads, cores := t.cores, dies := t.dies, cur := { s.cur with target := some (s.me.ctl.xpc &&& ~~~1), transfer := true } } ∧
       OthersKept s t ∧ t.core (coreOf s.cur.tid) = { s.core (coreOf s.cur.tid) with snap := none } ∧
       t.me.atF = (s.me.ret.atF && !n) ∧ t.me.regs = s.me.regs ∧ t.me.ctl = s.me.ctl ∧ t.me.loops = s.me.loops ∧ t.me.memQ = s.me.memQ ∧
       t.me.flight = s.me.flight ∧ (n = true → t.me.parked = []) ∧
       (n = false → (t.me.parked.map (fun r => (r.dest, r.val, r.rem, r.slot % 8))).Perm (sn.recs.map (fun r => (r.dest, r.val, r.rem, r.slot % 8))) ∧
         t.me.parked.Pairwise (fun a b => a.ord < b.ord ∨ (a.ord = b.ord ∧ a.slot ≤ b.slot))) ∧
       t.me.wdone = ((s.me.ret.atF && !n) && (s.me.wdone || sn.wdone)) ∧
       (n = true → t.me.mat = s.me.mat ∧ t.me.snapped = s.me.snapped ∧ t.dies = s.dies) ∧
       (n = false → (∀ f ∈ s.me.faults, f.info.engine ≠ 4) → t.me.mat = (s.me.resumeMatrix (s.me.ctl.estat.getLsbD 63)).mat ∧
         ((s.me.mat.queue.filter MatCmd.isFailed).length = 1 → t.me.mat.halted = false)) ∧
       (n = false → (∀ f ∈ s.me.faults, f.info.engine ≠ 6) → ∀ c, c ∈ cmds t ↔ c ∈ cmds s ∧ ¬ (halted c ∧ ∀ x ∈ cmds s, halted x → x.last ≤ c.last))
     let runs (t : State) : Prop :=
       t.me.st = (if s.me.ret.st = .retiring then .retiring else .running) ∧ t.me.inner = [] ∧ t.me.paused = false
     (∃ t, exec (.rft gd 0) s = .next t ∧ back false t ∧ (s.me.wait = none → s.me.xwait = none → s.me.inner = [] → runs t) ∧
       (s.me.ret = ⟨false, .waiting⟩ → s.me.wdone = false → sn.wdone = false → ∀ w, s.me.wait = some w →
         t.me.st = .waiting ∧ t.me.wait = some w ∧ t.me.inner = []) ∧
       (∀ p ps, s.me.ret = ⟨true, .waiting⟩ → s.me.wdone = false → sn.wdone = false → s.me.inner = p :: ps → s.me.paused = false → p.isDone = false →
         t.me.st = .waiting ∧ t.me.inner = s.me.inner ∧ t.me.paused = true ∧ t.me.wait = s.me.wait)) ∧
     (∃ t, exec (.rftN gd) s = .next t ∧ back true t ∧ (s.me.wait = none → s.me.xwait = none → s.me.inner = [] → runs t)))

/-- R251, R258, Table 10-1: a stored snapshot image gives back what it was made from: the records in order with destination, value, REM and SLOT, and the return level, state and WDONE. -/
def Obligations.SnapshotImageRoundTrip : Prop :=
  ∀ (sn : Snap), sn.recs.length ≤ 63 → sn.tid < 2048 → sn.image.length < 2 ^ 13 →
    (∀ r ∈ sn.recs, r.rem < 32 ∧ r.slot < 8 ∧ ∃ k, k < 32 ∧
      ((r.dest = .v k ∧ r.val < 2 ^ 1024) ∨ (r.val < 2 ^ 64 ∧ (r.dest = .s k ∨ r.dest = .g k ∨ r.dest = .m k ∨ r.dest = .p k ∨ r.dest = .q k)))) →
    ∃ rs pst, parseSnap sn.image = some (rs, sn.retF, pst, sn.wdone) ∧ pst = pstCode sn.retSt ∧
      rs.map (fun r => (r.dest, r.val, r.rem, r.slot)) = sn.recs.map (fun r => (r.dest, r.val, r.rem, r.slot)) ∧
      ∀ i j, i < sn.recs.length → j < sn.recs.length →
        ((nth default rs i).ord < (nth default rs j).ord ↔ (nth default sn.recs i).ord < (nth default sn.recs j).ord)

/-- R23, R246, R249, R253: a pending asynchronous fault is taken before the thread's next bundle, no earlier than six cycles after its report, in RETIRING with the pc of its command; a
snapshot masks it, but a fault of a command that the handler issued is a double fault; a thread that has stopped takes none. A bundle the decoder rejects traps with the cause, engine
and status of the rejection.
With the handler ready at the report plus six cycles (log entry 63). -/
def Obligations.AsynchronousTraps : Prop :=
  ∀ (s : State),
    (∀ tid, (s.thread tid).faults = [] → exec (.asyncTrap tid) s = .next s) ∧
    (∀ tid f rest, (s.thread tid).faults = f :: rest → (s.core (coreOf tid)).snap = none → (s.thread tid).st = .running ∨ (s.thread tid).st = .waiting →
      (∀ q, (s.thread tid).stop = some q → q.landed = false) → ∃ t, exec (.asyncTrap tid) s = .next t ∧ (t.thread tid).st = .trapped ∧ (t.thread tid).atF = true ∧ (t.thread tid).faults = rest ∧
        (t.thread tid).ctl.cause = BitVec.ofNat 8 (causeCode f.info.cause) ∧ (t.thread tid).ctl.estat = f.info.estat ∧ (t.thread tid).ctl.engine = f.info.engine ∧
        (t.thread tid).ctl.badaddr = f.info.badaddr ∧ (t.thread tid).ctl.cmdidx = f.info.cmdidx ∧ (t.thread tid).ctl.xpc = (s.thread tid).pc ∧
        (t.thread tid).ready = Max.max (s.thread tid).ready (Max.max s.cycle (f.cycle + 6)) ∧ (t.thread tid).regs = (s.thread tid).regs) ∧
    (∀ tid f rest, (s.thread tid).faults = f :: rest → (s.core (coreOf tid)).snap = none → (s.thread tid).st = .retiring → ∃ t, exec (.asyncTrap tid) s = .next t ∧
      (t.thread tid).st = .trapped ∧ (t.thread tid).faults = rest ∧ (t.thread tid).ctl.cause = BitVec.ofNat 8 (causeCode f.info.cause) ∧ (t.thread tid).ctl.xpc = f.org.pc) ∧
    (∀ tid q, (s.thread tid).stop = some q → q.landed = true → (s.thread tid).st = .running ∨ (s.thread tid).st = .waiting → exec (.asyncTrap tid) s = .next s) ∧
    (∀ tid sn, (s.core (coreOf tid)).snap = some sn → (sn.tid ≠ tid ∨ ∀ f ∈ (s.thread tid).faults, f.org.bundle ≤ sn.ord) → exec (.asyncTrap tid) s = .next s) ∧
    (∀ tid sn f, (s.core (coreOf tid)).snap = some sn → sn.tid = tid → (s.thread tid).st = .trapped → f ∈ (s.thread tid).faults → sn.ord < f.org.bundle →
      ∃ t, exec (.asyncTrap tid) s = .next t ∧ (t.core (coreOf tid)).halted = true ∧ (t.core (coreOf tid)).inService = false ∧ (t.thread tid).faults = []) ∧
    (∀ (c : Cause) (e : BitVec 3) (x : BitVec 64), SnapFree s →
      ∃ t, exec (.decodeCheckTrap c e x) s = .next t ∧ Trapped s t (trapInfo c e.toNat x))

/-- R52, R329 to R334, R345: the instructions of the task engine. TSUBMIT and a blocking LAUNCH send their record to the engine and wait for it; LAUNCH.nb, TSIGNAL, CSTAGE and
CSCHED go on; a record that is no object the thread may use traps precisely.
R107, R299, R351 to R354: CARRIVE joins the thread's accesses with its object and its signed byte count, and traps when the count is out of range; an arrival counts one more
arrival and adds the bytes; AWAIT waits, in a handler too, and the test of its object's bank ends the wait once the phase has passed, or reports COPY_FAULT or COUNTER_UNDERFLOW.
An AWAIT counts a corrected error in its object, and an uncorrectable one traps it (R305).
When AWAIT tests, and how CARRIVE is checked, are log entries 45 and 46; how a handler waits is log entry 81. -/
def Obligations.TaskAndCompletionCommands : Prop :=
  (∀ (s : State) (gd : Guard) (d a : BitVec 5), s.guard gd = true →
     (∀ (im : BitVec 12) (kw : Option (BitVec 32)), ∃ t, exec (.cstage gd a im kw) s = .next t ∧
       EngineTold s t (.cstage (s.s a + immS12 im kw).toNat) 1 [.sys 0x014] false) ∧
     (∃ t, exec (.csched gd a) s = .next t ∧ EngineTold s t (.csched (s.s a)) 1 [.sys 0x014] false) ∧
     (∀ r, s.dieObject .atomic 128 ((s.s a).toNat % 2 ^ 48) = .ok r →
       (∃ t, exec (.tsubmit gd d a) s = .next t ∧ EngineTold s t (.submit r d.toNat none) 40 [.s d.toNat] true) ∧
       (∃ t, exec (.tsignal gd a) s = .next t ∧ EngineTold s t (.signal r s.me.dom) (if placeDie r = dieOf s.cur.tid then 30 else 90) [] false) ∧
       (∀ o : BitVec 1,
         (∃ t, exec (.launch gd a o) s = .next t ∧ EngineTold s t (.launch r (o == 1) none) 1 [] true) ∧
         (∃ t, exec (.launchNb gd d a o) s = .next t ∧ EngineTold s t (.launch r (o == 1) (some d.toNat)) 1 [.g d.toNat] false))) ∧
     (∀ x, s.dieObject .atomic 128 ((s.s a).toNat % 2 ^ 48) = .error x → SnapFree s → ∀ (o : BitVec 1) (i : Instr),
       i = .tsubmit gd d a ∨ i = .tsignal gd a ∨ i = .launch gd a o ∨ i = .launchNb gd d a o → ∃ t, exec i s = .next t ∧ Trapped s t x)) ∧
  (∀ (s : State) (gd : Guard) (d a : BitVec 5), s.guard gd = true →
     let n := (s.s d).toInt
     let va := (s.s a).toNat % 2 ^ 48
     (2 ^ 47 - 1 < n.natAbs → SnapFree s → ∃ t, exec (.carrive gd a d) s = .next t ∧ Trapped s t (trapInfo .illegalOp 6 (BitVec.ofNat 64 (s.cur.slot + 0x01 * 16)))) ∧
     (∀ key ps, n.natAbs ≤ 2 ^ 47 - 1 → s.dieObject .atomic 32 va = .ok key → NoOlderSync s →
       s.checkAll s.cur.tid s.me ⟨.atomic, true, none, 6⟩ 32 [(va, 16)] = .ok ps →
       ∃ t, exec (.carrive gd a d) s = .next t ∧ Queued s t (.carrive key n) (if placeDie key = dieOf s.cur.tid then 30 else 90) [] false 0) ∧
     (∀ (im : BitVec 12) (kw : Option (BitVec 32)) (key : Nat), s.dieObject .read 32 (s.ea a im kw).toNat = .ok key →
       (∀ w, s.badWord key 16 = some w → SnapFree s → ∃ t, exec (.await gd d a im kw) s = .next t ∧
         Trapped s t (trapInfo .uncorrectableMemory 6 0 (BitVec.ofNat 48 (placeVa (dieOf s.cur.tid) w)))) ∧
       (s.badWord key 16 = none → ∃ t, exec (.await gd d a im kw) s = .next t ∧
         t = { s with threads := t.threads, dies := t.dies, hub := t.hub, free := t.free, ecc := t.ecc } ∧ OthersKept s t ∧
         ((∀ e ∈ s.ecc, e.2 ≠ 2) → ThreadsOnly s t) ∧
         let w : Wait := .await key ((s.s d).setWidth 16)
         t.me = s.me.park (s.cur.pc, s.me.loops) (some w) none ∧
         (Unwaiting s.me → t.me = { s.me with st := .waiting, wait := some w, back := some (s.me.back.getD (s.cur.pc, s.me.loops)) }) ∧
         (s.me.st = .trapped → s.me.paused = false → t.me.st = .trapped ∧ t.me.nowWait = some w ∧ t.me.wait = s.me.wait))) ∧
     (∀ (im : BitVec 12) (kw : Option (BitVec 32)) (x : TrapInfo), s.dieObject .read 32 (s.ea a im kw).toNat = .error x → SnapFree s →
       ∃ t, exec (.await gd d a im kw) s = .next t ∧ Trapped s t x) ∧
     (∀ (tid key : Nat) (v : BitVec 16), (s.thread tid).wait = some (.await key v) → (s.thread tid).st = .waiting → (s.thread tid).xwait = none → (s.thread tid).inner = [] →
       (s.thread tid).paused = false → (s.core (coreOf tid)).halted = false → (s.badWord key 16).isSome = true → (s.thread tid).faults = [] →
       ((s.awaitTest tid).thread tid).faults.map (fun f => f.info.cause) = [.uncorrectableMemory]) ∧
     (∀ (tid key : Nat) (v : BitVec 16), (s.thread tid).wait = some (.await key v) → (s.thread tid).st = .waiting → (s.thread tid).xwait = none → (s.thread tid).inner = [] →
       (s.thread tid).paused = false → (s.core (coreOf tid)).halted = false → s.badWord key 16 = none →
       let phase := (s.dwField key 0 48 16 + 65536 - v.toNat) % 65536
       (s.dwField key 1 32 2 = 0 → 1 ≤ phase → phase ≤ 32767 →
         OneThread s (s.awaitTest tid) tid ∧ ((s.awaitTest tid).thread tid).st = .running ∧ ((s.awaitTest tid).thread tid).wait = none) ∧
       (s.dwField key 1 32 2 = 0 → (phase = 0 ∨ 32767 < phase) → s.awaitTest tid = s) ∧
       (s.dwField key 1 32 1 = 1 → (s.thread tid).faults = [] → ((s.awaitTest tid).thread tid).faults =
         [⟨copyFaultInfo (s.dwField key 2 0 48) (s.dwField key 3 0 8) (s.dwField key 3 8 12) (s.dwField key 3 20 32), s.cycle,
           ⟨tid, (s.thread tid).born, (s.thread tid).pc, (s.thread tid).ord⟩⟩]) ∧
       (s.dwField key 1 32 2 = 2 → (s.thread tid).faults = [] → ((s.awaitTest tid).thread tid).faults =
         [⟨trapInfo .counterUnderflow 6 0 (BitVec.ofNat 48 (s.dwField key 2 0 48)), s.cycle, ⟨tid, (s.thread tid).born, (s.thread tid).pc, (s.thread tid).ord⟩⟩])))

/-- R261, R325 to R327, R334, R336 to R338, R377: the events of a die's scheduler. Nothing is placed before the boot has finished; the first task of the order that can be placed
starts, its threads READY at CODE with their task registers, and one that cannot records its refusal; tasks age by 65,536 cycles of waiting, and are ordered by effective priority and then by SEQ; the oldest fully aged task takes the reservation, or else the first of the order 65,536 cycles after its first refusal, where it is refused still; a queue with room takes the
first task that waits for it; and every 4 cycles the oldest pending launch is checked and becomes READY or BLOCKED.
That a record its domain cannot reach is not placed, and faults its thread when its launch is drained, is log entry 69. -/
def Obligations.Scheduling : Prop :=
  ∀ (s : State) (die : Nat), MemOk s →
    let d := s.die die
    (s.hub.booted = false ∨ d.ready = [] → exec (.taskPlacement die) s = .next s) ∧
    (∀ x tids use, s.hub.booted = true → (d.order s.cycle).head? = some x → x.start = .fresh → s.admission x.dom (s.taskEnergy x) = some use → s.placement die x [] = some tids →
      s.recOwned x.dom x.record = true → s.reserved die x tids = false → tids.Nodup →
      ∃ t, exec (.taskPlacement die) s = .next t ∧ t.recState x.record = 3 ∧ (t.die die).ready = d.ready.filter (fun y => y.seq != x.seq) ∧
        (∃ r ∈ (t.die die).running, r.id = 2 * x.seq + die ∧ r.record = some x.record ∧ r.threads = tids ∧ r.dom = x.dom ∧ r.placed = s.cycle ∧ r.killed = false) ∧
        (∀ k, k ∉ tids → t.thread k = s.thread k) ∧
        (∀ m k, tids[m]? = some k →
          (t.thread k).st = .ready ∧ (t.thread k).pc = BitVec.ofNat 48 (s.dwField x.record 0 0 48) &&& ~~~1 ∧ (t.thread k).dom = x.dom ∧ (t.thread k).atF = false ∧
          (t.thread k).sreg 1 = BitVec.ofNat 64 (s.dw x.record 1) ∧ (t.thread k).sreg 2 = BitVec.ofNat 64 (placeVa (dieOf k) x.record) ∧
          (t.thread k).sreg 3 = BitVec.ofNat 64 m ∧ (t.thread k).ready = s.cycle + 1)) ∧
    (∀ x, s.hub.booted = true → d.ready = [x] → x.start = .fresh → s.admission x.dom (s.taskEnergy x) ≠ none → s.placement die x [] = none →
      (∀ k r, k < 2 → r ∈ (s.die k).running → r.pending = false ∧ x.prio ≤ r.prio) →
      exec (.taskPlacement die) s = .next (s.updReady die x.seq (fun y => { y with refused := some (y.refused.getD s.cycle) }))) ∧
    (∀ k x, d.ready[k]? = some x →
      (x.aged < 3 → x.since + 65536 * (x.aged + 1) ≤ s.cycle → exec (.priorityAgeing die k) s = .next (s.updReady die x.seq (fun y => { y with aged := y.aged + 1 }))) ∧
      (3 ≤ x.aged ∨ s.cycle < x.since + 65536 * (x.aged + 1) → exec (.priorityAgeing die k) s = .next s) ∧
      x.effective s.cycle = Min.min 15 (x.prio + Min.min 3 (Max.max x.aged ((s.cycle - x.since) / 65536)))) ∧
    (d.order s.cycle).Perm d.ready ∧ (d.order s.cycle).Pairwise (fun x y =>
      y.effective s.cycle < x.effective s.cycle ∨ (y.effective s.cycle = x.effective s.cycle ∧ x.seq ≤ y.seq)) ∧
    (d.resv.isSome = true ∨ d.ready = [] → exec (.reservationTaken die) s = .next s) ∧
    (∀ x ∈ d.ready, d.resv = none → x.since + 262144 ≤ s.cycle → (∀ y ∈ d.ready, y.since + 262144 ≤ s.cycle → x.seq ≤ y.seq) →
      exec (.reservationTaken die) s = .next (s.updDie die (fun d => { d with resv := some ⟨x.seq⟩ }))) ∧
    (∀ x rest, d.order s.cycle = x :: rest → d.resv = none → (∀ y ∈ d.ready, s.cycle < y.since + 262144) →
      (∀ c, x.refused = some c → c + 65536 ≤ s.cycle → s.tryTask die x = .none →
        exec (.reservationTaken die) s = .next (s.updDie die (fun d => { d with resv := some ⟨x.seq⟩ }))) ∧
      ((∀ c, x.refused = some c → s.cycle < c + 65536 ∨ s.tryTask die x ≠ .none) → exec (.reservationTaken die) s = .next s)) ∧
    (d.overflow = [] → exec (.readyQueueEntry die) s = .next s) ∧
    (∀ x rest, d.overflow = x :: rest → (d.ready.filter (fun y => y.prio == x.prio)).length < 65536 →
      exec (.readyQueueEntry die) s = .next (s.updDie die (fun d => { d with ready := d.ready ++ [x], overflow := rest }))) ∧
    (d.pending = [] ∨ s.cycle < d.drained + 4 → exec (.pendingLaunchDrain die) s = .next s) ∧
    (∀ p ps, d.pending = p :: ps → d.drained + 4 ≤ s.cycle →
      (s.recTrap die p.dom p.record p.record 128 = none → s.recCheck p.record die p.dom true false = none →
        ∃ t, exec (.pendingLaunchDrain die) s = .next t ∧ (t.die die).pending = ps ∧ (t.die die).drained = s.cycle ∧ t.threads = s.threads ∧
          KeptOutside s t p.record 128 ∧ t.dwField p.record 12 16 6 = p.dom.toNat ∧
          (s.recJoin p.record = 0 → t.recState p.record = 2 ∧ (t.die die).seq = d.seq + 1 ∧
            ((d.ready.filter (fun y => y.prio == s.dwField p.record 2 32 4)).length < 65536 → d.overflow = [] →
              (t.die die).ready = d.ready ++ [⟨p.record, p.dom, s.dwField p.record 2 32 4, d.seq, s.cycle, 0, none, .fresh, s.recRanges p.record⟩])) ∧
          (s.recJoin p.record ≠ 0 → t.recState p.record = 1 ∧ (t.die die).blocked = d.blocked ++ [⟨p.record, p.dom, s.recRanges p.record⟩] ∧ (t.die die).ready = d.ready)) ∧
      (∀ sub o, s.recTrap die p.dom p.record p.record 128 = none → s.recCheck p.record die p.dom true false = some sub → p.org = some o → s.hears o = true →
        ∃ t, exec (.pendingLaunchDrain die) s = .next t ∧ (t.die die).pending = ps ∧ t.mem = s.mem ∧
          (t.thread o.tid).faults = (s.thread o.tid).faults ++ [⟨launchInfo (placeVa (dieOf o.tid) p.record) sub, s.cycle, o⟩]) ∧
      (∀ o, s.recOwned p.dom p.record = false → p.org = some o → s.hears o = true →
        ∃ t, exec (.pendingLaunchDrain die) s = .next t ∧ (t.die die).pending = ps ∧ t.mem = s.mem ∧
          (t.thread o.tid).faults = (s.thread o.tid).faults ++ [⟨mapFault 0x14 0 .atomic 6 (placeVa (dieOf o.tid) p.record), s.cycle, o⟩]))

/-- R19, R20, R261 to R263, R330, R335, R341, R342: a refused submission issues its bundle again after 256 cycles, in a handler too; a RETIRING thread whose work is done leaves its sequencer free, and
with the last thread its task completes; a stop lands at a permitted point, and a killed task's threads retire once all have stopped; a stop is
withdrawn after 1,048,576 cycles; a killed task is READY again with JOIN 0; and a checkpoint is written once every thread has stopped, or failed.
That the threads of a kill retire together is log entry 48, and that the stop of a SUSPEND and another wait behind each other is log entry 75. -/
def Obligations.StopsAndEnds : Prop :=
  ∀ (s : State),
    (∀ tid,
      (s.canFree tid = false → exec (.threadFree tid) s = .next s) ∧
      (s.canFree tid = true → ∃ t, exec (.threadFree tid) s = .next t ∧ (t.thread tid).st = .free ∧ (t.thread tid).task = none ∧ (t.thread tid).regs = Regs.zero ∧
        (∀ k, k < 16 → (t.core (coreOf tid)).arr.holdsTile tid k = false) ∧ (∀ k, k < 64 → (t.core (coreOf tid)).arr.holdsSlot tid k = false) ∧
        ((s.thread tid).task = none → OneThread { s with cores := t.cores, ecc := t.ecc, dies := t.dies } t tid)) ∧
      (s.canStop tid = false → (∀ r, (s.thread tid).stop = some r → r.kind = .kill → r.landed = false) → exec (.stopLands tid) s = .next s) ∧
      (∀ r k, s.canStop tid = true → (s.thread tid).stop = some r → r.kind = k → k ≠ .kill → (s.thread tid).inner = [] → s.fuseOf tid = none ∨ (s.thread tid).wait = none →
        ∃ t, exec (.stopLands tid) s = .next t ∧ (t.thread tid).st = .suspended ∧ (t.thread tid).held = (s.thread tid).st ∧
          (t.thread tid).stop = some { r with landed := true } ∧ (t.thread tid).pc = (s.thread tid).pc ∧ (t.thread tid).regs = (s.thread tid).regs) ∧
      (∀ r q b, s.canStop tid = true → (s.thread tid).stop = some r → r.kind ≠ .kill → s.fuseOf tid ≠ none → (s.thread tid).st = .waiting →
        (s.thread tid).wait = some (.rejoin q) → (s.thread tid).xwait = none → (s.thread tid).inner = [] → (s.thread tid).back = some b →
        ∃ t, exec (.stopLands tid) s = .next t ∧ (t.thread tid).st = .suspended ∧ (t.thread tid).held = .running ∧ (t.thread tid).pc = b.1 ∧
          (t.thread tid).wait = none) ∧
      (∀ r run, s.canStop tid = true → (s.thread tid).stop = some r → r.kind = .kill → (s.thread tid).task.bind s.runOf = some run → (s.thread tid).inner = [] →
        s.fuseOf tid = none ∨ (s.thread tid).wait = none →
        (s.liveThreads run = [tid] → ∃ t, exec (.stopLands tid) s = .next t ∧ (t.thread tid).st = .retiring ∧ (t.thread tid).stop = none ∧ (t.thread tid).loops = []) ∧
        (∀ y ∈ s.liveThreads run, y ≠ tid → (s.thread y).stop.map StopReq.landed ≠ some true → ∃ t, exec (.stopLands tid) s = .next t ∧
          t.thread tid = { s.thread tid with stop := some { r with landed := true } })) ∧
      ((s.thread tid).stop = none → (s.thread tid).stop2 = none → exec (.stopRequestTimeout tid) s = .next s) ∧
      (∀ q, (s.thread tid).stop = some q → (s.thread tid).stop2 = none → q.landed = true ∨ s.cycle < q.at_ + 1048576 → exec (.stopRequestTimeout tid) s = .next s) ∧
      (∀ q r, (s.thread tid).stop = some q → q.landed = false → q.at_ + 1048576 ≤ s.cycle → q.kind = .kill ∨ q.kind = .checkpoint →
        (s.thread tid).task.bind s.runOf = some r → r.threads = [tid] → r.freed = [] → (s.thread tid).st = .running →
        ∃ t, exec (.stopRequestTimeout tid) s = .next t ∧ (t.thread tid).stop = (s.thread tid).stop2 ∧ (t.thread tid).stop2 = none ∧
          (t.thread tid).st = .running) ∧
      (∀ c b, (s.die (dieOf tid)).cmds.find? (fun c => c.org.tid == tid && c.org.born == (s.thread tid).born &&
          (match c.op with | .submit _ _ (some u) => decide (u ≤ s.cycle) | _ => false)) = some c →
        (s.thread tid).back = some b → (s.thread tid).st = .waiting → (s.thread tid).wait = none → (s.thread tid).xwait = some c.id → (s.thread tid).inner = [] → (s.thread tid).paused = false →
        ∃ t, exec (.tsubmitRetry tid) s = .next t ∧ (t.thread tid).st = .running ∧ (t.thread tid).pc = b.1 ∧ (t.thread tid).loops = b.2 ∧
          (t.thread tid).regs = (s.thread tid).regs ∧ t.mem = s.mem ∧ ∀ l ∈ (t.thread tid).locks, l.id ≠ c.id) ∧
      (∀ c p ps, (s.die (dieOf tid)).cmds.find? (fun c => c.org.tid == tid && c.org.born == (s.thread tid).born &&
          (match c.op with | .submit _ _ (some u) => decide (u ≤ s.cycle) | _ => false)) = some c →
        (s.thread tid).st = .trapped → (s.thread tid).paused = true → (s.thread tid).inner = p :: ps → p.xwait = some c.id → p.wait = none →
        ∃ t, exec (.tsubmitRetry tid) s = .next t ∧ (t.thread tid).st = .trapped ∧ (t.thread tid).pc = p.back.1 ∧ (t.thread tid).loops = p.back.2 ∧
          (t.thread tid).inner = ps ∧ (t.thread tid).paused = false ∧ (t.thread tid).wait = (s.thread tid).wait) ∧
      ((s.thread tid).paused = false → (s.thread tid).st = .trapped ∨ (s.thread tid).st = .retiring → ∃ t, exec (.tsubmitRetry tid) s = .next t ∧ t = { s with dies := t.dies }) ∧
      ((s.thread tid).paused = false → (s.thread tid).st = .suspended → exec (.tsubmitRetry tid) s = .next s)) ∧
    (∀ die k r, (s.die die).running[k]? = some r →
      (∀ p, MemOk s → r.killed = true → (∀ x ∈ r.threads, x ∈ r.freed) → r.record = some p → s.recOwned r.dom p = true → (s.die die).overflow = [] →
        ((s.die die).ready.filter (fun y => y.prio == s.dwField p 2 32 4)).length < 65536 →
        ∃ t, exec (.killRequeue die k) s = .next t ∧ t.recJoin p = 0 ∧ t.recState p = 2 ∧ t.threads = s.threads ∧
          (t.die die).running = (s.die die).running.filter (fun x => x.id != r.id) ∧
          (t.die die).ready = (s.die die).ready ++ [⟨p, r.dom, s.dwField p 2 32 4, r.seq, s.cycle - r.waited, r.aged, none, .fresh, r.ranges⟩]) ∧
      (r.killed = false → exec (.killRequeue die k) s = .next s) ∧
      (r.stopping ≠ some .checkpoint → exec (.checkpointWrite die k) s = .next s) ∧
      (∀ p, r.record = some p → r.stopping = some .checkpoint → (∀ x ∈ (s.die die).susp, x.issuer.isSome = true ∨ x.task ≠ r.id) →
        (∃ x ∈ s.liveThreads r, (s.thread x).st ≠ .suspended) → exec (.checkpointWrite die k) s = .next s) ∧
      (∀ p x u, r.record = some p → r.stopping = some .checkpoint → (s.die die).susp.find? (fun x => x.issuer.isNone && x.task == r.id) = some x →
        x.writing = none ∨ (x.writing = some u ∧ s.cycle < u.2.1) → exec (.checkpointWrite die k) s = .next s) ∧
      (∀ p x use, r.record = some p → r.stopping = some .checkpoint → (s.die die).susp.find? (fun x => x.issuer.isNone && x.task == r.id) = none →
        s.liveThreads r ≠ [] → (∀ x ∈ s.liveThreads r, (s.thread x).st = .suspended) → s.stoppedAll false (s.liveThreads r) = true → s.membersDrained (s.liveThreads r) = true →
        s.drainFault (s.liveThreads r) = false → s.sharesGroup r = false → (let h : Ham := ⟨die, r.dom, s.recField r.dom p 14 0 48, false, s.engGot die (.checkpoint r.id)⟩
          h.va = 0 ∨ (s.hamMissing h 512 = [] ∧ s.hamMissing h (s.hamLimit h true) = [] ∧ s.hamTested h (Max.max 512 (s.hamLimit h true)) = false)) →
        s.checkpointPlace die r p (s.liveThreads r) r.carry = some (x, use) →
        ∃ t y, exec (.checkpointWrite die k) s = .next t ∧ t.threads = s.threads ∧ (t.die die).susp.getLast? = some y ∧ y.task = r.id ∧ y.va = x.va ∧
          (t.die die).pool.used = (s.die die).pool.used ++ use ∧
          ∃ used bad, y.writing = some (used, s.cycle + (used + 511) / 512, bad)))

/-- R356 to R363: hampers. An instruction that names one waits for the translation of its pages. SUSPEND that passes its first step suspends its issuer and asks every other member to
stop; otherwise its status register takes 1, an interlocked result. Once its members have stopped and drained it is written, 512 bytes a cycle, and its members are then free; an error
met while reading, or a header changed meanwhile, gives the status 5. RESUME and HDISCARD swap the STATE at the end of the cycle, in the order of their threads: a RESUME that still
finds SEALED enters the ready queue, and its load ends in RESUMED; an HDISCARD returns the STATE it reads. HCOPY moves its bytes and then swaps its
header in under a new GEN; a swap that finds another STATE, GEN or SELF has lost. A header that fails a check of R363 faults the thread asynchronously and halts its queue on the engine.
Log entries 47, 49, 50, 68, 75 and 79 hold the model's choices about them. -/
def Obligations.Hampers : Prop :=
  (∀ (s : State) (gd : Guard) (d a b : BitVec 5) (p : BitVec 4), s.guard gd = true →
    let tid := s.cur.tid
    let die := dieOf tid
    let h := s.namedHam a
    let h2 := s.namedHam b
    let members := s.suspendMembers tid
    let busy := (s.die die).susp.any (fun x => x.members.any (fun m => members.contains m))
    let known (h : Ham) (n : Nat) : Prop := s.hamMissing h n = [] ∧ s.hamTested h n = false
    let used := s.hamUsed h s.me.atF
    let faults (i : Instr) (x : TrapInfo) : Prop := exec i s = .next (s.failHam h s.origin x) ∧
      (s.hears s.origin = true → (s.failHam h s.origin x).me.faults = s.me.faults ++ [⟨x, s.cycle, s.origin⟩] ∧ (s.failHam h s.origin x).mem = s.mem ∧
        ∃ q ∈ ((s.failHam h s.origin x).die die).cmds, q.isHalted = true ∧ q.org = s.origin ∧ q.last = s.me.ord)
    (∀ q qs i, i ∈ [Instr.suspend gd d a, .resume gd a p, .hcopy gd d a b, .hdiscard gd d a] → s.hamMissing h 512 = q :: qs →
      exec i s = .next { s with cur := { s.cur with out := .walk s.me.dom q } }) ∧
    (known h 512 →
    (known h (s.hamLimit h s.me.atF) →
      (busy = true ∨ s.vetSuspend h s.me.atF members = none → exec (.suspend gd d a) s = .next (s.postVar (.s d.toNat) 1)) ∧
      (∀ size, busy = false → s.vetSuspend h s.me.atF members = some size → ∃ t x, exec (.suspend gd d a) s = .next t ∧ t.mem = s.mem ∧
        t.me.st = .suspended ∧ t.me.regs = s.me.regs ∧ (d ≠ 0 → t.me.locked (.s d.toNat) = true) ∧ (t.die die).susp = (s.die die).susp ++ [x] ∧
        x.issuer = some tid ∧ x.va = (s.s a).toNat % 2 ^ 48 ∧ x.size = size ∧ x.members = members ∧ x.writing = none ∧
        t.me.stop = some ⟨.suspend tid, s.cycle, true⟩ ∧ t.me.stop2 = s.me.stop ∧
        (∀ m ∈ members, m ≠ tid → (t.thread m).st = (s.thread m).st ∧
          ((s.thread m).stop = none → (t.thread m).stop = some ⟨.suspend tid, s.cycle, false⟩) ∧
          (∀ q, (s.thread m).stop = some q → q.kind.isSuspend = false → (t.thread m).stop = some q ∧ (t.thread m).stop2 = some ⟨.suspend tid, s.cycle, false⟩)))) ∧
    (known h used →
      (∀ x, s.resumeCheck h s.me.atF = some x → faults (.resume gd a p) x) ∧
      (∀ va sub level, s.resumeCheck h s.me.atF = none → s.engFault die h.got s.me.dom s.me.atF [.read, .write] h.va used = some (va, sub, level) →
        faults (.resume gd a p) (mapFault sub level .write 6 va)) ∧
      (s.resumeCheck h s.me.atF = none → s.engFault die h.got s.me.dom s.me.atF [.read, .write] h.va used = none → s.ecc = [] → ∃ t, exec (.resume gd a p) s = .next t ∧ t = { s with dies := t.dies } ∧
        (t.die die).swaps = (s.die die).swaps ++ [⟨s.origin, s.me.dom, s.me.atF, h.va, s.hamState h, s.hamDw h 1, h.va, s.pinsOf h 512, .resume p.toNat⟩]) ∧
      (known h2 used →
        (∀ x, s.hcopyCheck h h2 s.me.atF = some x → faults (.hcopy gd d a b) x) ∧
        (s.hcopyCheck h h2 s.me.atF = none → s.ecc = [] → ∃ t c, exec (.hcopy gd d a b) s = .next t ∧ t = { s with threads := t.threads, dies := t.dies } ∧
          OthersKept s t ∧ t.me = { s.me with nextId := s.me.nextId + 1, locks := s.me.locks ++ newLocks s [.s d.toNat] } ∧ (t.die die).hcopies = (s.die die).hcopies ++ [c] ∧
          c.src = h.va ∧ c.dst = (s.s b).toNat % 2 ^ 48 ∧ c.d = d.toNat ∧ c.used = used ∧ c.until_ = s.cycle + (c.used + 511) / 512 ∧ c.header = s.hamRead h 0 512 ∧ c.seen = s.hamStamp h2))) ∧
    (∀ x, s.hamCheck h s.me.atF false true = some x → faults (.hdiscard gd d a) x) ∧
    (s.hamCheck h s.me.atF false true = none → s.ecc = [] → ∃ t, exec (.hdiscard gd d a) s = .next t ∧ t = { s with threads := t.threads, dies := t.dies } ∧
      OthersKept s t ∧ t.me = { s.me with nextId := s.me.nextId + 1, locks := s.me.locks ++ newLocks s [.s d.toNat] } ∧
      (t.die die).swaps = (s.die die).swaps ++ [⟨s.origin, s.me.dom, s.me.atF, h.va, s.hamState h, s.hamDw h 1, h.va, s.pinsOf h 512, .discard d.toNat s.me.nextId⟩]))) ∧
  (∀ (s : State) (die : Nat) (x y : HSwap),
    let h : Ham := ⟨die, x.dom, x.va, false, x.pins⟩
    let same : Prop := s.hamState h = x.st ∧ s.hamDw h 1 = x.gen ∧ s.hamDw h 2 % 2 ^ 48 = x.self
    let lost : TrapInfo := trapInfo .doubleResume 6 1 (BitVec.ofNat 48 x.va)
    let d0 := nbits (s.hamDw h 0) 12 1
    let rest : State := s.updDie die (fun d => { d with swaps := [] })
    ((s.die die).swaps = [x, y] → y.org.tid < x.org.tid → s.applySwaps die = (rest.applySwap die y).applySwap die x) ∧
    ((s.die die).swaps = [x, y] → x.org.tid ≤ y.org.tid → s.applySwaps die = (rest.applySwap die x).applySwap die y) ∧
    (∀ prio, x.op = .resume prio →
      (¬ same → s.applySwap die x = s.failAt die x.org lost) ∧
      (same → ∃ t, s.applySwap die x = t ∧ t = { s.setHamState h 2 with dies := t.dies } ∧
        ((s.die d0).overflow = [] → ((s.die d0).ready.filter (fun z => z.prio == prio)).length < 65536 →
          (t.die d0).ready = (s.die d0).ready ++ [⟨0, BitVec.ofNat 6 ((s.setHamState h 2).hamDw h 3), prio, (s.die d0).seq, s.cycle, 0, none, .resume die x.va x.dom x.atF x.gen, []⟩]))) ∧
    (∀ d lock, x.op = .discard d lock → (s.thread x.org.tid).st ≠ .free → (s.thread x.org.tid).born = x.org.born → d ≠ 0 → SoleWriter (s.thread x.org.tid) lock (.s d) →
      ∃ t, s.applySwap die x = t ∧ (t.thread x.org.tid).sreg d = BitVec.ofNat 64 (s.hamState h) ∧ (∀ q, q ≠ x.org.tid → t.thread q = s.thread q) ∧
        (same → s.hamState h = 1 ∨ s.hamState h = 5 → t = { s.setHamState h 4 with threads := t.threads }) ∧
        (¬ same ∨ (s.hamState h ≠ 1 ∧ s.hamState h ≠ 5) → t = { s with threads := t.threads })) ∧
    (∀ d lock header, x.op = .copy d lock header →
      (¬ same → s.applySwap die x = s.loseSwap die x.org lock lost) ∧
      (same → (s.thread x.org.tid).st ≠ .free → (s.thread x.org.tid).born = x.org.born → d ≠ 0 → SoleWriter (s.thread x.org.tid) lock (.s d) →
        ∃ t, s.applySwap die x = t ∧ t.hub.gen = (s.hub.gen + 1) % 2 ^ 64 ∧ (t.thread x.org.tid).sreg d = BitVec.ofNat 64 ((s.hub.gen + 1) % 2 ^ 64) ∧
          ∀ q, q ≠ x.org.tid → t.thread q = s.thread q))) ∧
  (∀ (s : State) (die k : Nat),
    (∀ x i, (s.die die).susp[k]? = some x → x.issuer = some i →
      (x.writing = none → i ∈ x.members → (∃ m ∈ x.members, (s.thread m).st ≠ .suspended) → exec (.suspendComplete die k) s = .next s) ∧
      (x.writing = none → i ∈ x.members → (∀ m ∈ x.members, (s.thread m).st = .suspended) → s.stoppedAll true x.members = true → s.membersDrained x.members = true →
        s.drainFault x.members = false → s.hamSize x.members x.carry ≤ x.size → s.hamTested (x.ham die) 512 = false →
        ∃ t y, exec (.suspendComplete die k) s = .next t ∧ t.threads = s.threads ∧ y ∈ (t.die die).susp ∧ y.issuer = some i ∧
          ∃ bad, y.writing = some (s.hamSize x.members x.carry, s.cycle + (s.hamSize x.members x.carry + 511) / 512, bad)) ∧
      (∀ used u bad, x.writing = some (used, u, bad) →
        (s.cycle < u → exec (.suspendComplete die k) s = .next s) ∧
        (u ≤ s.cycle → s.hamTested (x.ham die) used = false → bad = true ∨ s.stillWriting (x.ham die) = false →
          exec (.suspendComplete die k) s = .next ((s.swapHamState (x.ham die) 0 0 5).failSuspend die x 5)) ∧
        (u ≤ s.cycle → s.hamTested (x.ham die) used = false → bad = false → s.stillWriting (x.ham die) = true →
          ∃ t, exec (.suspendComplete die k) s = .next t ∧ (∀ m ∈ x.members, (t.thread m).st = .free ∧ (t.thread m).task = none) ∧
          t.hub.gen = (s.hub.gen + 1) % 2 ^ 64 ∧ (t.die die).susp = (s.die die).susp.filter (fun y => y.issuer != some i)))) ∧
    (∀ l, (s.die die).hloads[k]? = some l →
      (s.cycle < l.until_ → exec (.hamperLoadComplete die k) s = .next s) ∧
      (l.until_ ≤ s.cycle → l.pool = false → s.hamTested ⟨l.die, l.dom, l.va, false, l.pins⟩ 512 = false → ∃ t, exec (.hamperLoadComplete die k) s = .next t ∧ (t.die die).hloads = delNth (s.die die).hloads k ∧
        t = { s.swapHamState ⟨l.die, l.dom, l.va, false, l.pins⟩ 2 l.gen 3 with dies := t.dies })) ∧
    (∀ c, (s.die die).hcopies[k]? = some c →
      let src : Ham := ⟨die, c.dom, c.src, false, c.from_⟩
      let dst : Ham := ⟨die, c.dom, c.dst, false, c.pins⟩
      let tested : Bool := s.hamTested src c.used || s.hamTested dst c.used
      (s.cycle < c.until_ ∨ tested = true → exec (.hcopyComplete die k) s = .next s) ∧
      (c.until_ ≤ s.cycle → tested = false → s.ecc = [] → s.hamWord src 512 (c.used - 512) = none → exec (.hcopyComplete die k) s = .next
        (((s.updDie die (fun y => { y with hcopies := delNth y.hcopies k })).hamWrite dst 512 (s.hamRead src 512 (c.used - 512))).updDie die
          (fun y => { y with swaps := y.swaps ++ [⟨c.org, c.dom, c.atF, c.dst, c.seen.1, c.seen.2.1, c.seen.2.2, c.pins, .copy c.d c.lock c.header⟩] }))) ∧
      (∀ w, c.until_ ≤ s.cycle → tested = false → s.hamWord src 512 (c.used - 512) = some w → s.hears c.org = true → ∃ t, exec (.hcopyComplete die k) s = .next t ∧
        t.mem = s.mem ∧ (t.die die).hcopies = delNth (s.die die).hcopies k ∧ (t.die die).swaps = (s.die die).swaps ∧
        (t.thread c.org.tid).faults = (s.thread c.org.tid).faults ++
          [⟨trapInfo .uncorrectableMemory 6 0 (BitVec.ofNat 48 w), s.cycle, c.org⟩])))

/-- R346 to R351: the copy engine. A channel takes the oldest entry that waits, while fewer than sixteen are in use; a chunk, its pages translated, lands when its cycles have passed: each of its bytes stands where the entry says; after the last one
the entry's object loses its bytes and the entry leaves; an entry that cannot be read, is malformed, or meets a fault stops, and without an object member 0 takes COPY_FAULT.
BYTES of an object moves by the count, modulo 2^48.
That an entry which cannot be read stops as a faulting one does is log entry 50, the range entries that a channel takes are log entry 37, and how a chunk waits for its pages is log entry 68. -/
def Obligations.CopyEngine : Prop :=
  (∀ (s : State) (die k : Nat) (c : Copy), (s.die die).copies[k]? = some c →
    (c.busy = none → (s.die die).waitingCopy = some k → ((s.die die).copies.filter (fun x => x.busy.isSome)).length < 16 → c.unread = none → c.malformed = none →
      (∀ r ∈ c.ranges, (s.core r.1).ranges.length + (c.ranges.filter (fun x => x.1 == r.1)).length ≤ 32) →
      ∃ t, exec (.copyChunk die k) s = .next t ∧ t = { s with cores := t.cores, dies := t.dies } ∧
        (t.die die).copies = setNth (s.die die).copies k { c with busy := some (s.cycle + c.chunkTime) } ∧
        (∀ r ∈ c.ranges, ⟨r.2.1 / 64 * 64, (r.2.2 + 63) / 64 * 64, c.owner⟩ ∈ (t.core r.1).ranges)) ∧
    (c.busy = none → (s.die die).waitingCopy ≠ some k ∨ 16 ≤ ((s.die die).copies.filter (fun x => x.busy.isSome)).length →
      exec (.copyChunk die k) s = .next s) ∧
    (∀ u, c.busy = some u →
      (s.cycle < u → exec (.copyChunk die k) s = .next s) ∧
      (u ≤ s.cycle → c.chunks ≠ c.chunkCount → s.chunkReady die c = false → ∃ t, exec (.copyChunk die k) s = .next t ∧ t = { s with dies := t.dies } ∧
        (t.die die).copies = (s.die die).copies ∧ ∀ q ∈ s.chunkMissing die c, (∃ w ∈ (t.die die).walks, w.dom = c.dom ∧ w.page = q) ∧
          ∃ w ∈ (t.die die).walked, w.1 = .copy c.num ∧ w.2.dom = c.dom ∧ w.2.page = q) ∧
      (u ≤ s.cycle → c.chunks ≠ c.chunkCount → s.chunkReady die c = true → s.chunkFault die c = none → let w := s.chunkCorrected die c; ∃ t, exec (.copyChunk die k) s = .next t ∧
        w = { s with dies := w.dies, hub := w.hub, free := w.free, ecc := w.ecc } ∧ t = { w.moveChunk die c with dies := t.dies } ∧
        (t.die die).copies = setNth (s.die die).copies k
          { c with chunks := c.chunks + 1, busy := some (s.cycle + Copy.chunkTime { c with chunks := c.chunks + 1 }) } ∧
        (let dst (j : Nat) (q : Place) : Prop := s.copyPlace die c c.dstTid .write (c.addrs j).2 = .ok q
         (∀ j ∈ c.chunk, ∀ q, dst j q → q.home ≠ .hbm ∧ s.roByte q.key = false) → MemOk s →
          (∀ j ∈ c.chunk, ∀ p q, s.copyPlace die c c.srcTid .read (c.addrs j).1 = .ok p → dst j q →
            (∀ i ∈ c.chunk, i ≠ j → ∀ r, dst i r → r.key ≠ q.key) → [t.byteAt q.key] = s.placeBytes p 1) ∧
          (∀ a, (∀ j ∈ c.chunk, ∀ q, dst j q → q.key ≠ a) → t.byteAt a = s.byteAt a))) ∧
      (c.chunks = c.chunkCount → c.unread = none →
        (∀ o, s.copyObject die c 32 c.cobj = some o → c.join = 0 → exec (.copyEntryComplete die k) s = .next ((s.dropCopy die k c).atObject c.dom o (fun s => s.objDecrement o c.total))) ∧
        (c.cobj = 0 → c.join = 0 → exec (.copyEntryComplete die k) s = .next (s.dropCopy die k c)) ∧
        (∀ r, c.cobj = 0 → s.copyObject die c 128 c.join = some r →
          exec (.copyEntryComplete die k) s = .next ((s.dropCopy die k c).decJoin r c.join (.quiet none)))) ∧
      (∀ x, c.unread = none → u ≤ s.cycle → c.chunks ≠ c.chunkCount → s.chunkReady die c = true → s.chunkFault die c = some x →
        exec (.copyEntryStop die k) s = .next (s.stopCopy die k c x.1 x.2))) ∧
    (∀ sub, c.unread = some sub → exec (.copyEntryStop die k) s = .next (s.stopCopy die k c c.addr sub)) ∧
    (∀ sub, c.unread = none → c.busy = none → c.malformed = some sub → exec (.copyEntryStop die k) s = .next (s.stopCopy die k c c.badAddr sub)) ∧
    (∀ addr sub r m, sub ≠ 0x20 → s.copyObject die c 32 c.cobj = none → c.detached = false → s.runOf c.task = some r → r.zero? = some m → m ∉ r.freed →
      s.hears ⟨m, (s.thread m).born, (s.thread m).pc, 0⟩ = true →
      let t := s.stopCopy die k c addr sub
      (t.die die).copies = delNth (s.die die).copies k ∧ t.mem = s.mem ∧
      (t.thread m).faults = (s.thread m).faults ++
        [⟨copyFaultInfo addr sub c.index c.chunks, s.cycle, ⟨m, (s.thread m).born, (s.thread m).pc, 0⟩⟩])) ∧
  (∀ (s : State) (key n : Nat) (x : Int), MemOk s →
    let bytes := sval 48 (s.dwField key 0 0 48)
    (s.objDecrement key n).dwField key 0 0 48 = wrapN 48 (bytes - n) ∧
    (s.objArrive key x).dwField key 0 0 48 = wrapN 48 (bytes + x) ∧
    KeptOutside s (s.objDecrement key n) key 32 ∧ KeptOutside s (s.objArrive key x) key 32)

/-! ## The pod's, the hub's and the die engine's instructions -/

/-- R403, R411, R417, R419, R423, R424, R426, R429: the instructions of the pod. They trap PERMISSION with sub-code 0x17 at T outside the pod's domain, and ILLEGAL_OP on a set
reserved bit. STEP arrives and waits, in a handler too; FRED hands the network its packet; SLADD, SLSEND and SLRECV go to the die engine.
R382, R386 to R388, R390, R392, R393: BBMARK leaves its marker for the end of the cycle; PWRQ, PWRRES and PWRRES.rel go to the energy account; TLBI and SELFT trap PRIVILEGED
at T whatever their guard. TLBI removes every translation, result of a walk and line it covers and completes once the accesses issued before it have performed; SELFT of a unit that is not
there answers 2.
Log entries 33, 57 and 59 hold the model's choices about SELFT, TLBI, SLSEND and SLRECV; the slot and opcode that the ILLEGAL_OP of SLADD, SLRECV and TLBI records are log entry 22, and how a handler waits is log entry 81. -/
def Obligations.PodAndHubInstructions : Prop :=
  (∀ (s : State) (gd : Guard) (d a b : BitVec 5) (tb : BitVec 1), s.guard gd = true →
     let x := (s.s a).toNat
     let y := (s.s b).toNat
     let id := s.me.nextId
     let bnd := s.hub.fab.bnd
     let open_ : Prop := s.me.atF = true ∨ s.me.dom = s.hub.pod.dom
     let fredOk : Prop := x < 2 ^ 38 ∧ x % 64 = 0 ∧ y < 2 ^ 21
     let sladdOk : Prop := x / 2 ^ 24 % 2 ^ 8 = 0 ∧ y < 2 ^ 52 ∧ y / 2 ^ 32 % 16 = 0
     let illegal (op : Nat) : TrapInfo := trapInfo .illegalOp 7 (BitVec.ofNat 64 (s.cur.slot + op * 16))
     (SnapFree s → s.me.atF = false → s.me.dom ≠ s.hub.pod.dom → ∀ i, i = .step gd d a tb ∨ i = .slsend gd d ∨ (i = .slrecv gd d a ∧ x < 128) ∨
       (i = .fred gd d a b ∧ fredOk) ∨ (i = .sladd gd d a b ∧ sladdOk) → ∃ t, exec i s = .next t ∧ Trapped s t (mapFault 0x17 0 .read 7 0)) ∧
     (SnapFree s → (¬ fredOk → ∃ t, exec (.fred gd d a b) s = .next t ∧ Trapped s t (illegal 0x0C)) ∧
       (¬ sladdOk → ∃ t, exec (.sladd gd d a b) s = .next t ∧ Trapped s t (illegal 0x0D)) ∧
       (128 ≤ x → ∃ t, exec (.slrecv gd d a) s = .next t ∧ Trapped s t (illegal 0x0F))) ∧
     (open_ →
       (s.drained = false → exec (.step gd d a tb) s = .next { s with cur := { s.cur with out := .held } }) ∧
       (s.drained = true → ∃ t, exec (.step gd d a tb) s = .next t ∧ t.mem = s.mem ∧ t.cores = s.cores ∧ OthersKept s t ∧ t.me.regs = s.me.regs ∧
         t.me.rel = (s.me.release 5).rel ∧
         (let w : Wait := .step d.toNat id (tb == 1) (if bnd.st = 0 then bnd.n else bnd.n + 1)
          (Unwaiting s.me → t.me.st = .waiting ∧ t.me.wait = some w) ∧
          (s.me.st = .trapped → s.me.paused = false → t.me.st = .trapped ∧ t.me.nowWait = some w ∧ t.me.wait = s.me.wait)) ∧
         (bnd.st = 0 → t.hub.fab.bnd.arrivals = bnd.arrivals + 1 ∧
           t.hub.fab.bnd.supplied = Max.max bnd.supplied (if a = 0 then 0 else x) ∧ t.hub.fab.bnd.st = if s.hub.pod.pcount ≤ bnd.arrivals + 1 then 1 else 0) ∧
         (bnd.st ≠ 0 → t.hub.fab.bnd.arrivalsNext = bnd.arrivalsNext + 1 ∧ t.hub.fab.bnd.st = bnd.st) ∧
         (d ≠ 0 → t.me.locked (.s d.toNat) = true ∧ t.me.locked (.s (d.toNat + 1)) = true)) ∧
       (fredOk → ∃ t p, exec (.fred gd d a b) s = .next t ∧ Queued s t (.packets s.origin [(16, 0, p)]) 1 [] false 0 ∧ p.type = 2 ∧ p.dom = s.me.dom ∧
         p.dst.toNat = x / 2 ^ 27 % 2 ^ 11 ∧ p.stepno = BitVec.ofNat 32 s.hub.pod.stepnum ∧
         p.data = (List.range (y / 2 ^ 16 + 1)).map (lane (s.v d))) ∧
       (∃ t, exec (.slsend gd d) s = .next t ∧ EngineTold s t (.slsend d.toNat s.hub.pod.stepnum) 1 [.s d.toNat] false) ∧
       (x < 128 → ∃ t, exec (.slrecv gd d a) s = .next t ∧ EngineTold s t (.slrecv d.toNat x) 1 [.s d.toNat] false) ∧
       (sladdOk →
         let len := s.rowBytes (dieOf s.cur.tid) - 16
         let p := y / 2 ^ 32 % 2 ^ 20
         (len = 0 → ∃ t, exec (.sladd gd d a b) s = .next t ∧ EngineTold s t (.sladd (s.s a) (s.s b) (d.toNat % 8) (some [])) 1 [.g (d.toNat % 8)] false) ∧
         (∀ ps, 0 < len → NoOlderSync s → s.checkAll s.cur.tid s.me ⟨.read, false, none, 7⟩ 16 (piecesOf p len) = .ok ps →
           ∃ t e, exec (.sladd gd d a b) s = .next t ∧ t.me.regs = s.me.regs ∧ t.mem = s.mem ∧
             (t.die (dieOf s.cur.tid)).cmds = (s.die (dieOf s.cur.tid)).cmds ++ [⟨s.origin, id, s.cycle + 1, .sladd (s.s a) (s.s b) (d.toNat % 8) none⟩] ∧
             t.me.memQ = s.me.memQ ++ [e] ∧ e.op = .sladd id (padPlace (coreOf s.cur.tid) p) len)))) ∧
  (∀ (s : State) (gd : Guard) (d a b : BitVec 5) (w : BitVec 1),
     let tid := s.cur.tid
     let id := s.me.nextId
     let u := (s.s a).toNat % 2 ^ 24
     (SnapFree s → s.me.atF = false → ∀ i, i = .tlbi gd d a b ∨ i = .selft gd d a w → ∃ t, exec i s = .next t ∧ Trapped s t (trapInfo .privileged 6)) ∧
     (s.guard gd = true →
       (∀ (im : BitVec 12) (kw : Option (BitVec 32)), exec (.bbmark gd d a im kw) s = .next (s.updDie (dieOf tid) (fun y => { y with
         marks := y.marks ++ [(tid, ⟨s.cycle, BitVec.ofNat 16 (0x8000 + immU12 im kw % 4096), BitVec.ofNat 24 (coreOf tid), BitVec.ofNat 11 tid, s.me.dom, s.s d, s.s a⟩)] }))) ∧
       (∀ k : BitVec 3, ∃ t, exec (.pwrq gd d k) s = .next t ∧ AccountTold s t (.item k.toNat) (.s d.toNat) d.toNat) ∧
       (∃ t, exec (.pwrres gd d a) s = .next t ∧ AccountTold s t (.reserve (s.s a).toNat) (.g (d.toNat % 8)) (d.toNat % 8)) ∧
       (∃ t, exec (.pwrresRel gd d) s = .next t ∧ AccountTold s t .release (.g (d.toNat % 8)) (d.toNat % 8)) ∧
       (s.me.atF = true →
         (2 ^ 23 ≤ (s.s b).toNat → SnapFree s → ∃ t, exec (.tlbi gd d a b) s = .next t ∧ Trapped s t (trapInfo .illegalOp 6 (BitVec.ofNat 64 (s.cur.slot + 0x13 * 16)))) ∧
         ((s.s b).toNat < 2 ^ 23 → ∃ t x, exec (.tlbi gd d a b) s = .next t ∧ t.hub = { s.hub with tlbis := s.hub.tlbis ++ [x] } ∧ t.mem = s.mem ∧
           (∀ k, k ≠ tid → t.thread k = { s.thread k with walked := (t.thread k).walked }) ∧
           t.me = { s.me with nextId := id + 1, locks := t.me.locks, walked := t.me.walked } ∧ x.tid = tid ∧ x.id = id ∧ x.start = s.cycle ∧
           x.dom = (if (s.s b).getLsbD 22 = true then none else some (BitVec.ofNat 6 ((s.s b).toNat / 2 ^ 16))) ∧
           (let n := (s.s b).toNat % 2 ^ 16
            let whole : Prop := n = 0 ∨ (s.s b).getLsbD 22 = true
            (whole → x.lo = 0 ∧ x.hi = 2 ^ 48) ∧
            (¬ whole → x.lo = (s.s a).toNat % 2 ^ 48 / 65536 * 65536 ∧ x.hi = x.lo + 65536 * n)) ∧
           (∀ c, ∀ l ∈ (t.core c).tlb, x.hits l.dom l.va l.size = false) ∧ (∀ c, ∀ l ∈ (t.core c).istore, x.hits l.dom l.va 64 = false) ∧
           (∀ k, ∀ l ∈ (t.die k).tlb, x.hits l.dom l.va l.size = false) ∧
           (∀ k, ∀ w, w ∈ (t.thread k).walked ↔ w ∈ (s.thread k).walked ∧ (w.res = none ∨ x.hits w.dom (65536 * w.page) 65536 = false))) ∧
         (unitExists u = false ∨ onOtherDie (dieOf tid) u = true → exec (.selft gd d a w) s = .next (s.postVar (.s d.toNat) 2)) ∧
         (unitExists u = true → onOtherDie (dieOf tid) u = false →
           ((s.unit u).phase = 0 → exec (.selft gd d a 1) s = .next (s.postVar (.s d.toNat) ((s.unit u).status s.cycle))) ∧
           ((s.unit u).phase = 0 ∧ w = 0 ∨ (s.unit u).phase ≠ 0 → ∃ t, exec (.selft gd d a w) s = .next t ∧ OthersKept s t ∧ t.mem = s.mem ∧
             t.me = { s.me with nextId := id + 1, locks := t.me.locks } ∧ (t.unit u).phase ≠ 0 ∧
             (t.unit u).waiters = (s.unit u).waiters ++ [(tid, s.me.born, id, d.toNat)])))) ∧
     (∀ k x, s.hub.tlbis[k]? = some x →
       (s.cycle ≤ x.start ∨ s.pinned x = true ∨ (∃ t ∈ s.threads, x.waitsFor t.2 = true) → exec (.tlbiComplete k) s = .next s) ∧
       (x.start < s.cycle → s.pinned x = false → (∀ t ∈ s.threads, x.waitsFor t.2 = false) → x.d ≠ 0 → (s.thread x.tid).st ≠ .free → (s.thread x.tid).born = x.born →
         SoleWriter (s.thread x.tid) x.id (.g x.d) →
         ∃ t, exec (.tlbiComplete k) s = .next t ∧ t.hub = { s.hub with tlbis := delNth s.hub.tlbis k } ∧ (t.thread x.tid).greg x.d = true ∧
           ∀ q, q ≠ x.tid → t.thread q = s.thread q)))

/-- R21, R51, R53, R56, R301, R303, R331, R332, R334, R345, R426: what the machine itself does between bundles: a due fixed-latency write lands, and an interlocked result that waits for no earlier one; the die engine applies one command a cycle, in the order in which they reached it and of one cycle by $tid, the commands behind a SLADD
whose payload is not yet read waiting, and every TSIGNAL that is due; a line of code that is resident lets a READY thread run, and one that is not is requested; the first walk that is over gives its result to every thread and engine that waits for it, and a leaf
fills the translation buffers. Records that a return restored land as many cycles after the first in which the thread can issue as they had left.
A line fill of 320 cycles and a walk of 300 cycles a level are log entry 62; what a record out of the reach of its domain does is log entry 69, and how the results of walks are kept is log entry 68. -/
def Obligations.EngineEvents : Prop :=
  ∀ (s : State),
    (∀ tid, (s.thread tid).parked = [] → ∃ t, exec (.fixedLatencyWriteLands tid) s = .next t ∧ OneThread s t tid ∧
      (t.thread tid).flight = (s.thread tid).flight.filter (fun f => !(f.land ≤ s.cycle)) ∧
      (∀ f, (s.thread tid).flight = [f] → (s.thread tid).due = [] → f.land ≤ s.cycle → t.thread tid = { s.thread tid with flight := [] }.land f.dest f.val) ∧
      (∀ f, (s.thread tid).due = [f] → (s.thread tid).flight = [] → (s.thread tid).behindFixed s.cycle f = false →
        t.thread tid = { s.thread tid with due := [] }.land f.dest f.val) ∧
      (∀ f, (s.thread tid).due = [f] → (s.thread tid).behindFixed s.cycle f = true → (t.thread tid).due = [f])) ∧
    (∀ tid, (s.thread tid).parked ≠ [] → ∃ t, exec (.fixedLatencyWriteLands tid) s = .next t ∧ OneThread s t tid ∧
      ((s.thread tid).mayLand = false → (t.thread tid).parked = (s.thread tid).parked) ∧
      ((s.thread tid).mayLand = true → (t.thread tid).parked = [] ∧
        ∀ r ∈ (s.thread tid).parked, 1 ≤ r.rem →
          ⟨r.dest, r.val, Max.max (s.thread tid).ready (s.cycle + 1) + r.rem - 1, r.ord, r.slot⟩ ∈ (t.thread tid).flight)) ∧
    (∀ die, (s.die die).cmds = [] → exec (.dieEngineCommandApply die) s = .next s) ∧
    (∀ die c, c ∈ (s.die die).cmds → (∀ x ∈ (s.die die).cmds, (∀ r dom, x.op ≠ .signal r dom) ∧ (∀ n, x.op ≠ .halted n)) →
      (∀ x ∈ (s.die die).cmds, x ≠ c → c.at_ < x.at_ ∨ (c.at_ = x.at_ ∧ (c.org.tid < x.org.tid ∨ (c.org.tid = x.org.tid ∧ c.id < x.id)))) →
      ((∀ x ∈ (s.die die).cmds, x.unread = false) → s.canApply die c = true → exec (.dieEngineCommandApply die) s = .next (s.applyCmd die c)) ∧
      (c.unread = true → c.at_ ≤ s.cycle → exec (.dieEngineCommandApply die) s = .next s)) ∧
    (∀ die c, (s.die die).cmds = [c] →
      let tid := c.org.tid
      let lands (d : Dest) : Prop := SoleWriter (s.thread tid) c.id d
      let applied (p : State → Prop) : Prop := ∃ t, exec (.dieEngineCommandApply die) s = .next t ∧ (t.die die).cmds = [] ∧ p t
      (s.cycle < c.at_ → exec (.dieEngineCommandApply die) s = .next s) ∧
      (c.at_ ≤ s.cycle →
        (∀ n id r, c.op = .cstage n → (s.thread tid).task = some id → s.runOf id = some r → id % 2 = die → applied (fun t =>
          ∃ q, t.runOf id = some q ∧ q.stage = Min.min 65535 (Max.max r.stage n) ∧ q.sched = r.sched)) ∧
        (∀ w id r, c.op = .csched w → (s.thread tid).task = some id → s.runOf id = some r → id % 2 = die → w.toNat / 2 ^ 60 = 0 →
          (w.toNat / 2 ^ 48 = 0 ∨ w.toNat % 64 = 0) → applied (fun t => ∃ q, t.runOf id = some q ∧ q.stage = 0 ∧ q.sched = w)) ∧
        (∀ d sel, c.op = .slrecv d sel → d ≠ 0 → lands (.s d) → applied (fun t => (t.thread tid).sreg d = BitVec.ofNat 64 (s.slrecvValue die sel) ∧ t.mem = s.mem)) ∧
        (∀ r dom, c.op = .signal r dom → MemOk s → s.badWord (r + 16) 4 = none → 1 < s.recJoin r → applied (fun t => t.recJoin r = s.recJoin r - 1 ∧ t.recState r = s.recState r ∧ t.threads = s.threads)) ∧
        (∀ r g, c.op = .launch r false (some g) → MemOk s → g ≠ 0 → lands (.g g) → (s.die die).pending.length < 4096 →
          s.recTrap die (s.thread tid).dom r (r + 16) 8 = none → (s.recState r = 0 ∨ s.recState r = 5) →
          applied (fun t => t.recState r = 6 ∧ (t.die die).pending = (s.die die).pending ++ [⟨r, some c.org, (s.thread tid).dom⟩] ∧ (t.thread tid).greg g = true)) ∧
        (∀ r g, c.op = .launch r false (some g) → g ≠ 0 → lands (.g g) → 4096 ≤ (s.die die).pending.length →
          applied (fun t => t.mem = s.mem ∧ (t.die die).pending = (s.die die).pending ∧ (t.thread tid).greg g = false)) ∧
        (∀ r d, c.op = .submit r d none → MemOk s → d ≠ 0 → lands (.s d) → (s.thread tid).st = .waiting → (s.thread tid).wait = none → (s.thread tid).xwait = some c.id → (s.thread tid).inner = [] →
          (∀ q, (s.thread tid).stop = some q → q.landed = false) → s.recTrap die (s.thread tid).dom r r 128 = none → s.recCheck r die (s.thread tid).dom false false = none → s.recRanges r = [] → (s.die die).deps = [] → s.recJoin r = 0 →
          applied (fun t => t.recState r = 2 ∧ (t.thread tid).st = .running ∧ (t.thread tid).xwait = none ∧ (t.thread tid).sreg d = 0)))) ∧
    (∀ tid, let th := s.thread tid
      (th.st = .free → exec (.lineFill tid) s = .next s) ∧
      (th.st = .ready → th.want = none →
        (∀ bs, s.fetch tid th th.pc.toNat = .bytes bs → ∃ t, exec (.lineFill tid) s = .next t ∧ OneThread s t tid ∧ (t.thread tid).st = .running ∧ (t.thread tid).pc = th.pc) ∧
        (∀ line, s.fetch tid th th.pc.toNat = .fill line → ∃ t, exec (.lineFill tid) s = .next t ∧ OneThread s t tid ∧
          (t.thread tid) = { th with want := some (line, s.cycle + 320) })) ∧
      (∀ l c va, th.st = .ready → th.want = some (l, c) → s.fetch tid th l = .fill va →
        (s.cycle < c → exec (.lineFill tid) s = .next s) ∧
        (∀ pa x, c ≤ s.cycle → s.xlate (coreOf tid) th.dom th.walked .fetch 0 va = .ok pa x → s.regionTested pa = false → ∃ t, exec (.lineFill tid) s = .next t ∧
          (t.thread tid).st = .running ∧ (t.thread tid).want = none ∧ t.mem = s.mem ∧
          ∃ y ∈ (t.core (coreOf tid)).istore, y.dom = th.dom ∧ y.va = va ∧ y.data = BitVec.ofNat 512 (leNat (s.hbmBytes pa (s.keyIdent x.key.toNat) 64))))) ∧
    (s.hub.units = [] → ∀ die w, (s.die die).walks = [w] →
      let r := s.walk w.dom (65536 * w.page)
      (s.cycle < w.start + r.time → exec (.translationWalk die) s = .next s) ∧
      (w.start + r.time ≤ s.cycle →
        ∃ t, exec (.translationWalk die) s = .next t ∧ (t.die die).walks = [] ∧ t.mem = s.mem ∧ t.hub = s.hub ∧
          (∀ k, t.thread k = { s.thread k with walked := if dieOf k = die then (s.thread k).walked.map (fun x => x.take w.dom w.page r) else (s.thread k).walked }) ∧
          (∀ x : PageWalk, x.take w.dom w.page r = if x.dom = w.dom ∧ x.page = w.page ∧ x.res = none then { x with res := some r } else x) ∧
          (t.die die).walked = (s.die die).walked.map (fun x => (x.1, x.2.take w.dom w.page r)) ∧
          (w.cancelled = true ∨ (∃ sub level, r = .fault sub level) → t.cores = s.cores ∧ (t.die die).tlb = (s.die die).tlb) ∧
          (∀ l level, r = .leaf l level → w.cancelled = false → l ∈ (t.die die).tlb ∧ ∀ k ∈ w.cores, l ∈ (t.core k).tlb))) ∧
    (∀ die xs w ys, s.hub.units = [] → (s.die die).walks = xs ++ w :: ys → xs.length < 64 → (∀ x ∈ xs, s.cycle < x.start + (s.walk x.dom (65536 * x.page)).time) →
      w.start + (s.walk w.dom (65536 * w.page)).time ≤ s.cycle → ∃ t, exec (.translationWalk die) s = .next t ∧
        (t.die die).walks.map (fun x => (x.dom, x.page)) = (xs ++ ys).map (fun x => (x.dom, x.page)))

/-! ## The package -/

/-- R374, R375, R377, R378, R383, R384, R388, R391: events of the package. A reset boots image by image, measuring each; the queue entries and the engine's fields of the dispatch contexts read 0, and the other memories and the key slots
keep what they hold; a failure freezes both black-box records. Keys, grants,
samples and intervals of the energy account, quotes, self-test verdicts, fatal events and write-backs of the system cores act as their rules say. The event code of a rail
fault and of a hub fatal error is a free value (log entry 3).
R268, R300, R317, R340, R342, R373, R377, R379, R380, R383, R399, R403, R411: the system cores' writes of hub control registers and of die memory that domain 0 owns, and network ingress: the lowest matching rule takes
a packet; an accepted one is placed in its slot with its task record PENDING; a packet that no rule matches goes to the system cores.
Log entries 2, 10, 51 to 56, 74 and 80 hold the model's choices: a state kept over a reset, how measurements join, the key indices of a quote, the partition, the owner of key slot 0, deferred writes, a write into the die memory of domain 0, and others. -/
def Obligations.PackageEvents : Prop :=
  (∀ (s : State),
     let e := s.hub.energy
     (∀ b : BootImages, MemOk s → ∃ t, exec (.packageReset b) s = .next t ∧ t.threads = [] ∧ t.clusters = [] ∧ t.cores = [] ∧ t.hub.quotes = s.hub.quotes ∧
       (b.failsAt = none → t.hub.booted = true ∧ (t.die 0).fwLock = true ∧ (t.die 1).fwLock = true ∧
         t.hub.measurement = Config.measure (Config.measure (Config.measure (Config.measure 0 (sha256 b.security)) (sha256 b.system)) (sha256 b.store0)) (sha256 b.store1) ∧
         (t.die 0).bb = (s.die 0).bb ∧ (t.die 1).bb = (s.die 1).bb ∧
         (∀ k, k < 0x40000 → (∀ x, b.store0[k]? = some x → t.byteAt (storePlace 0 k) = x) ∧ (∀ x, b.store1[k]? = some x → t.byteAt (storePlace 1 k) = x)) ∧
         (∀ k, k < 2 ^ 42 → (∀ d, d < 2 → k < diePlace d 0 ∨ diePlace d 0x840 ≤ k) → t.byteAt k = if isQueueByte k = true then 0 else s.byteAt k) ∧
         (∀ d j, d < 2 → j < 64 → t.ctxField d 8 0 32 = 0 ∧ t.ctxField d (0x40 + 16 * j) 0 28 = 0 ∧ t.ctxField d (0x448 + 16 * j) 32 10 = 0 ∧
           t.ctxField d (0x448 + 16 * j) 48 10 = 0) ∧
         (∀ p, b.partition = some p → t.hub.partLo = p.1.toNat ∧ t.hub.partHi = p.2.toNat)) ∧
       (b.failsAt.isSome = true → t.hub.booted = false ∧ (t.die 0).bb.frozen = true ∧ (t.die 1).bb.frozen = true)) ∧
     (∀ n, (s.hub.quotes < 2 ^ 30 → ∃ t q, exec (.attestationQuote n) s = .next t ∧ t = { s with hub := t.hub } ∧ t.hub.quotes = s.hub.quotes + 1 ∧ t.hub.quote = some q ∧
         q.version = 1 ∧ q.nonce = n ∧ q.measurement = s.hub.measurement ∧ q.serial = Config.serial ∧ q.count = s.hub.quotes + 1 ∧
         q.topKey * 2 ^ 15 + q.leafKey = s.hub.quotes ∧ q.leafKey < 2 ^ 15 ∧ q.topKey < 2 ^ 15) ∧
       (2 ^ 30 ≤ s.hub.quotes → exec (.attestationQuote n) s = .next s.irq)) ∧
     (∀ slot dom, ∃ t, exec (.keySlotWrite slot dom) s = .next t ∧ t = { s with hub := t.hub } ∧
       (slot < 64 → (t.keySlot slot).loaded = true ∧ (t.keySlot slot).owner = (if slot = 0 then 0 else dom) ∧ t.keyIdent slot ≠ s.keyIdent slot ∧
         ∀ k, k ≠ slot → t.keySlot k = s.keySlot k) ∧
       (64 ≤ slot → t = s)) ∧
     (∀ g, (g ≤ 240000 → exec (.grantWrite g) s = .next (s.updEnergy (fun e => { e with gNext := g }))) ∧ (240000 < g → exec (.grantWrite g) s = .next s)) ∧
     (∀ nJ, (s.cycle < 1100 * (e.samples + 1) → exec (.energySample nJ) s = .next s) ∧
       (1100 * (e.samples + 1) ≤ s.cycle → ∃ t, exec (.energySample nJ) s = .next t ∧ t.threads = s.threads ∧ t.mem = s.mem ∧
         t.hub.energy.bal = e.bal - ((nJ + e.rem) / 1000 : Nat) ∧ t.hub.energy.rem = (nJ + e.rem) % 1000 ∧ t.hub.energy.used = e.used + (nJ + e.rem) / 1000 ∧
         t.hub.energy.samples = e.samples + 1 ∧ (0 ≤ e.bal → t.hub.energy.bal < 0 → e.below = false → t.hub.irqs = s.hub.irqs + 1))) ∧
     ((s.cycle < 110000 * (e.intv + 1) → exec .energyInterval s = .next s) ∧
       (110000 * (e.intv + 1) ≤ s.cycle → ∃ t, exec .energyInterval s = .next t ∧ t = { s with hub := { s.hub with energy := t.hub.energy } } ∧
         t.hub.energy.bal = min e.bal e.carry + e.gNext ∧ t.hub.energy.g = e.gNext ∧ t.hub.energy.spent = e.used ∧ t.hub.energy.used = 0 ∧
         t.hub.energy.intv = e.intv + 1 ∧ t.hub.energy.gNext = e.gNext ∧ t.hub.energy.carry = e.carry)) ∧
     (∀ (u : BitVec 24) (lasting : Bool),
       let done : Prop := (s.unit u.toNat).phase = 1 ∧ (s.unit u.toNat).began + testTime u.toNat ≤ s.cycle
       (¬ done → exec (.selfTestVerdict u lasting) s = .next s) ∧
       (done → lasting = true → u.toNat / 2 ^ 20 = 2 ∨ u.toNat / 2 ^ 20 = 3 → ∃ t, exec (.selfTestVerdict u lasting) s = .next t ∧
         (t.core (u.toNat % 2 ^ 20)).inService = false) ∧
       (done → lasting = true → u.toNat / 2 ^ 20 = 4 ∨ u.toNat / 2 ^ 20 = 5 → (s.unit u.toNat).moved = false → s.spareFree u.toNat = false →
         ∃ t, exec (.selfTestVerdict u lasting) s = .next t ∧ u.toNat ∈ t.hub.dead ∧ t.mem = s.mem) ∧
       (done → lasting = false → ((s.unit u.toNat).verdicts.filter (fun c => decide (s.cycle < c + 1100000000))).length < 15 →
         s.nextTest (unitDie u.toNat) = none →
         ∃ t, exec (.selfTestVerdict u lasting) s = .next t ∧ (t.unit u.toNat).phase = 0 ∧ (t.unit u.toNat).last = 0 ∧ (t.unit u.toNat).waiters = [] ∧
           (t.unit u.toNat).moved = false ∧ (t.unit u.toNat).verdicts = (s.unit u.toNat).verdicts.filter (fun c => decide (s.cycle < c + 1100000000)) ++ [s.cycle] ∧ t.cores = s.cores)) ∧
     (∀ die thaw clear, exec (.blackBoxClear die thaw clear) s = .next (s.updDie die (fun y => { y with bb :=
       ⟨if clear = true then [] else y.bb.ents, if thaw = true then false else y.bb.frozen, if clear = true then 0 else y.bb.drops⟩ }))) ∧
     (∀ die ev x y, ∃ t, exec (.fatalHardwareEvent die ev x y) s = .next t ∧ t = { s with dies := t.dies, free := t.free } ∧ (t.die die).bb.frozen = true ∧
       ((s.die die).bb.frozen = false → ∃ n, (t.die die).bb.ents.getLast? = some n ∧ n.time = s.cycle ∧ n.tid = 0x7FF ∧ n.data0 = x ∧ n.data1 = y ∧
         (ev = .thermalTrip → n.event = 0x0121) ∧ ∀ k, ev = .marked k → n.event = k)) ∧
     (∀ die x, ∃ t, exec (.thermalWarning die x) s = .next t ∧ t = { s with dies := t.dies, free := t.free } ∧
       ((s.die die).bb.frozen = false → ∃ n, (t.die die).bb.ents.getLast? = some n ∧ n.time = s.cycle ∧ n.event = 0x0120 ∧ n.data0 = x) ∧
       ((s.die die).bb.frozen = true → (t.die die).bb = { (s.die die).bb with drops := ((s.die die).bb.drops + 1) % 2 ^ 32 })) ∧
     (∀ line (data : BitVec 512), 64 * line + 64 ≤ 2 ^ 39 → MemOk s → ∃ t, exec (.systemCoreLineWriteback line data) s = .next t ∧
       t = { s with mem := t.mem, keyOf := t.keyOf, ecc := t.ecc, tags := t.tags } ∧ MemOk t ∧
       (∀ k, k < 64 → t.hbmByte (64 * line + k) (s.keyIdent 0) = BitVec.ofNat 8 (data.toNat / 2 ^ (8 * k))) ∧ KeptOutside s t (64 * line) 64)) ∧
  (∀ (s : State),
     let hub (w : HubWrite) (f : Hub → Hub) : Prop := exec (.hubRegisterWrite w) s = .next { s with hub := f s.hub }
     let podIdle : Prop := s.hub.fab.bnd.st = 0 ∧ s.hub.fab.bnd.arrivals = 0
     (∀ dom v, hub (.root dom (some v)) (fun u => { u with roots := tset u.roots dom.toNat v }) ∧ hub (.root dom none) (fun u => { u with roots := tdel u.roots dom.toNat })) ∧
     (∀ die block v, exec (.hubRegisterWrite (.owner die block v)) s = .next (s.updDie die.toNat (fun d => { d with own := tset d.own block.toNat v }))) ∧
     (∀ b lo hi, hub (.tagPool b lo hi) (fun u => { u with tpbase := b.toNat, tplo := lo.toNat, tphi := hi.toNat })) ∧
     (∀ clu dom, ((∀ t ∈ s.threads, clusterOf t.1 = clu.toNat → t.2.st = .free) → ∃ t, exec (.hubRegisterWrite (.cluster clu dom)) s = .next t ∧
         t = { s with clusters := t.clusters } ∧ (t.cluster clu.toNat).dom = dom) ∧
       ((∃ t ∈ s.threads, clusterOf t.1 = clu.toNat ∧ t.2.st ≠ .free) → exec (.hubRegisterWrite (.cluster clu dom)) s = .next s)) ∧
     (∀ die off data, ((s.die die.toNat).fwLock = true → exec (.hubRegisterWrite (.firmware die off data)) s = .next s) ∧
       ((s.die die.toNat).fwLock = false → MemOk s → off.toNat + data.length ≤ 0x40000 → ∃ t, exec (.hubRegisterWrite (.firmware die off data)) s = .next t ∧
         t = { s with mem := t.mem, ecc := t.ecc } ∧ MemOk t ∧ (∀ k x, data[k]? = some x → t.byteAt (storePlace die.toNat (off.toNat + k)) = x) ∧
         KeptOutside s t (storePlace die.toNat off.toNat) data.length)) ∧
     (∀ die off data,
       let owned : Prop := ∀ b, b < 1024 → off.toNat / 65536 ≤ b → b ≤ (off.toNat + data.length - 1) / 65536 → (s.ownEntry die.toNat b).toNat % 64 = 0
       (¬ owned → exec (.hubRegisterWrite (.dieStore die off data)) s = .next s) ∧
       (owned → MemOk s → off.toNat + data.length ≤ 2 ^ 26 → ∃ t, exec (.hubRegisterWrite (.dieStore die off data)) s = .next t ∧
         t = { s with mem := t.mem, ecc := t.ecc } ∧ MemOk t ∧ (∀ k x, data[k]? = some x → t.byteAt (diePlace die.toNat (off.toNat + k)) = x) ∧
         KeptOutside s t (diePlace die.toNat off.toNat) data.length)) ∧
     (∀ i (dw : BitVec 3) v, 4 ≤ dw.toNat → exec (.hubRegisterWrite (.flowRule i dw v)) s = .next s) ∧
     (∀ i (v : DWord), ∃ t, exec (.hubRegisterWrite (.flowRule i 0 v)) s = .next t ∧ t = { s with hub := { s.hub with flows := t.hub.flows } } ∧
       t.hub.flow i.toNat 0 = v.toNat % 2 ^ 15 ∧ ∀ k, k < 8 → k ≠ 0 → t.hub.flow i.toNat k = s.hub.flow i.toNat k) ∧
     (∀ v, hub (.carry v) (fun u => { u with energy := { u.energy with carry := v.toNat } })) ∧
     (∀ die v, exec (.hubRegisterWrite (.drainT die v)) s = .next (s.updDie die.toNat (fun d => { d with draint := v.toNat }))) ∧
     (∀ die base slots, exec (.hubRegisterWrite (.ckptPool die base slots)) s =
       .next (s.updDie die.toNat (fun d => { d with pool := ⟨base.toNat, slots.toNat * 2 ^ 22, d.pool.used⟩ }))) ∧
     (∀ id, hub (.device id) (fun u => { u with device := id })) ∧
     (podIdle → ∀ d, hub (.podDom d) (fun u => { u with pod := { u.pod with dom := d } })) ∧
     (podIdle → ∀ dev m, hub (.podMember dev m) (fun u => { u with pod := { u.pod with members := tset u.pod.members dev.toNat m } })) ∧
     (¬ podIdle → ∀ d, hub (.podDom d) (fun u => { u with fab := { u.fab with later := u.fab.later ++ [.podDom d] } })) ∧
     (s.hub.fab.bnd.st ≠ 0 → ∀ v, hub (.podPcount v) (fun u => { u with pod := { u.pod with pcount := v.toNat } })) ∧
     (s.hub.fab.bnd.st = 0 → ∀ v : BitVec 12, v ≠ 0 → v.toNat ≤ s.hub.fab.bnd.arrivals → ∃ t, exec (.hubRegisterWrite (.podPcount v)) s = .next t ∧
       t.hub.pod.pcount = v.toNat ∧ t.hub.fab.bnd.st = 1) ∧
     (∀ v, hub (.podGback v) (fun u => { u with pod := { u.pod with gback := v.toNat } })) ∧
     (∀ v, hub (.podSkewlim v) (fun u => { u with pod := { u.pod with skewlim := v.toNat } })) ∧
     (∀ v, hub (.podRq v) (fun u => { u with pod := { u.pod with rq := v.toNat } })) ∧
     (∀ v, hub (.podThr v) (fun u => { u with pod := { u.pod with thr := v.toNat } })) ∧
     (∀ v, hub (.podDcb 0 v) (fun u => { u with pod := { u.pod with dcb0 := v.toNat } }) ∧ hub (.podDcb 1 v) (fun u => { u with pod := { u.pod with dcb1 := v.toNat } })) ∧
     (∀ dev, hub (.podRepaired dev) (fun u => { u with pod := { u.pod with failed := u.pod.failed.filter (· != dev.toNat) } })) ∧
     (∀ (dev : BitVec 11) (port : BitVec 6) (direct : Bool) (others : List (BitVec 6)), (∀ q ∈ s.hub.fab.queues, q.port ≠ 63) →
       let told (u : Hub) : List Nat := (if direct = true then [dev.toNat] else []) ++ u.fab.direct.filter (· != dev.toNat)
       let ports (u : Hub) : Table (List Nat) := tset u.fab.others dev.toNat (others.map BitVec.toNat)
       hub (.route dev (some port) direct others) (fun u => { u with fab := { u.fab with routes := tset u.fab.routes dev.toNat port.toNat, others := ports u, direct := told u } }) ∧
       hub (.route dev none direct others) (fun u => { u with fab := { u.fab with routes := tdel u.fab.routes dev.toNat, others := ports u, direct := told u } })) ∧
     (∀ (e : BitVec 16) (on : Bool), ∃ t, exec (.hubRegisterWrite (.fatalEvent e on)) s = .next t ∧ t = { s with hub := { s.hub with fatal := t.hub.fatal } } ∧
       (e.toNat ∈ t.hub.fatal ↔ on = true) ∧ ∀ k, k ≠ e.toNat → (k ∈ t.hub.fatal ↔ k ∈ s.hub.fatal)) ∧
     (∀ (port : BitVec 6) (lane : BitVec 2), ∃ t, exec (.hubRegisterWrite (.laneRepaired port lane)) s = .next t ∧
       t = { s with hub := { s.hub with fab := { s.hub.fab with lanesOut := t.hub.fab.lanesOut, down := t.hub.fab.down } } } ∧
       (tget 0 t.hub.fab.lanesOut port.toNat).testBit lane.toNat = false ∧ ∀ k, k ∈ t.hub.fab.down ↔ k ∈ s.hub.fab.down ∧ k ≠ port.toNat) ∧
     (∀ p : EthPacket,
       ((∀ i, i < 4096 → s.hub.flowMatches i p = false) → exec (.packetIngress p) s = .next { s with hub := { s.hub with sysq := s.hub.sysq ++ [p] } }) ∧
       (∀ i, i < 4096 → s.hub.flowMatches i p = true → (∀ k, k < i → s.hub.flowMatches k p = false) →
         let w (k : Nat) : Nat := s.hub.flow i k
         let die := w 0 / 2 ^ 14 % 2
         let dom := w 0 / 2 ^ 4 % 2 ^ 6
         let size := 2 ^ (w 2 / 2 ^ 26 % 2 ^ 4 + 8)
         let off := w 2 % 2 ^ 26 + w 5 % 2 ^ 12 * size
         let tmpl := w 3 % 2 ^ 26
         let r := diePlace die off
         let takes : Prop := w 2 / 2 ^ 30 % 2 ^ 12 ≠ 0 ∧ (s.recState r = 0 ∨ s.recState r = 5) ∧ 192 + p.payload.length ≤ size ∧ s.ownsRange die dom off size = true ∧
           s.ownsRange die dom tmpl 128 = true ∧ (s.die die).pending.length < 4096
         (¬ takes → ∃ t, exec (.packetIngress p) s = .next t ∧ t.mem = s.mem ∧ t.dies = s.dies ∧ t.hub.sysq = s.hub.sysq ∧
           t.hub.flow i 4 = setBits (w 4) 32 32 (w 4 / 2 ^ 32 % 2 ^ 32 + 1)) ∧
         (takes → MemOk s → ∃ t, exec (.packetIngress p) s = .next t ∧ t.threads = s.threads ∧ t.recState r = 6 ∧ t.recJoin r = 0 ∧ t.dw r 1 = 0x10000000 + off + 128 ∧
           t.bytesAt (r + 192) p.payload.length = p.payload ∧ KeptOutside s t r (192 + p.payload.length) ∧
           t.hub.flow i 5 = setBits (w 5) 0 12 ((w 5 % 2 ^ 12 + 1) % (w 2 / 2 ^ 30 % 2 ^ 12)) ∧
           (t.die die).pending = (s.die die).pending ++ [⟨r, none, BitVec.ofNat 6 dom⟩]))))

/-! ## The fabric -/

/-- R396 to R402, R404, R406, R407, R415, R425, R427: events of the links, routers and stores. A CRC failure counts and tests its lane, and flits of the retry buffer are sent again; a lane leaves service, and a link without lanes is
dropped; a packet is received, discarded for a reserved TYPE, or forwarded on its minimal link, or on VC 2 by the next of the routing table where that is down; it leaves with a credit for each flit, behind
the earlier ones of its queue; after 55,000 cycles at a head it moves to the buffer of its hop class in VC 3; a packet leaves its store with a credit, or a CREQ is sent; an ACK ends it
and lowers OUT; a failed device takes no packets and is to be reported unless the last GO has reported it, and a new coordinator is sent FLUSHED. The places of
what a control packet carries are log entry 16; the routing table's other ports are log entry 58.
Log entries 15, 16 and 58 hold the model's choices: the content of control packets, and the ports of own and unreachable packets. -/
def Obligations.FabricEvents : Prop :=
  ∀ (s : State),
    let f := s.hub.fab
    let news (dev : Nat) : List Nat := if f.reported dev = true then [] else [dev]
    let fabIs (i : Instr) (g : Fab) : Prop := exec i s = .next { s with hub := { s.hub with fab := g } }
    (∀ port lane, port < 33 → tget [] f.retry port = [] → ∃ t, exec (.flitCrcFail port lane) s = .next t ∧ t = { s with free := t.free }) ∧
    (∀ port lane, port < 33 → lane < 4 → tget [] f.retry port ≠ [] → ∃ t, exec (.flitCrcFail port lane) s = .next t ∧
      t.hub.fab = { f with replays := t.hub.fab.replays, replay := t.hub.fab.replay } ∧
      1 ≤ tget 0 t.hub.fab.replay port ∧ tget 0 t.hub.fab.replay port ≤ (tget [] f.retry port).length ∧
      tget 0 t.hub.fab.replays (4 * port + lane) = tget 0 f.replays (4 * port + lane) + 1 ∧ (t.unit (6 * 2 ^ 20 + 4 * port + lane)).phase ≠ 0) ∧
    (∀ port lane, port < 33 → lane < 4 → ∃ t, exec (.laneOutOfService port lane) s = .next t ∧ t.hub.fab = { f with lanesOut := t.hub.fab.lanesOut } ∧
      tget 0 t.hub.fab.lanesOut port = setBits (tget 0 f.lanesOut port) lane 1 1) ∧
    (∀ port, (33 ≤ port ∨ tget 0 f.lanesOut port % 16 ≠ 15 ∨ port ∈ f.down → exec (.linkDown port) s = .next s) ∧
      (port < 33 → tget 0 f.lanesOut port % 16 = 15 → port ∉ f.down → (∀ q ∈ f.queues, q.port ≠ port) → ∃ t, exec (.linkDown port) s = .next t ∧
        t.hub.fab = { f with down := f.down ++ [port] } ∧ t.threads = s.threads ∧ t.mem = s.mem)) ∧
    (∀ port p,
      (Packet.reserved p = true → fabIs (.packetRoute port p) { f with errors := f.errors + 1 }) ∧
      (Packet.reserved p = false → p.dst = s.hub.device → (p.type = 1 ∨ p.type = 2 ∨ p.type = 3) →
        fabIs (.packetRoute port p) { f with rxq := f.rxq ++ [p], given := tset f.given p.src.toNat ((tget [] f.given p.src.toNat).drop 1) }) ∧
      (Packet.reserved p = false → p.dst ≠ s.hub.device → f.roomAt (port % 33) (bufferOf p.vc.toNat (f.hopClass p)) p = false → exec (.packetRoute port p) s = .next s) ∧
      (Packet.reserved p = false → p.dst ≠ s.hub.device → p.vc ≠ 1 → f.minimal p.dst.toNat = none → f.roomAt (port % 33) (bufferOf p.vc.toNat (f.hopClass p)) p = true →
        ∃ t q, exec (.packetRoute port p) s = .next t ∧ t.hub.fab = { f with queues := f.queues ++ [q] } ∧ q.vc = 2 ∧ q.inp = port % 33 ∧ q.pkt = { p with hops := p.hops + 1, vc := 2 } ∧
          ∀ out, (tget [] f.others p.dst.toNat).find? f.linkUp = some out → q.port = out) ∧
      (∀ out, Packet.reserved p = false → p.dst ≠ s.hub.device → f.roomAt (port % 33) (bufferOf p.vc.toNat (f.hopClass p)) p = true →
        let vc : BitVec 2 := if p.vc = 1 ∧ p.via = s.hub.device then 2 else p.vc
        f.minimal (if vc = 1 then p.via.toNat else p.dst.toNat) = some out →
        ∃ t q, exec (.packetRoute port p) s = .next t ∧ t.hub.fab = { f with queues := f.queues ++ [q] } ∧ q.port = out ∧ q.vc = vc.toNat ∧ q.inp = port % 33 ∧ q.buf = bufferOf p.vc.toNat (f.hopClass p) ∧
          q.pkt = { p with hops := p.hops + 1, vc := vc })) ∧
    (∀ q, q.vc ≤ 3 → (s.canDepart q = true ↔ f.linkUp q.port = true ∧ s.laneFree q.port = true ∧ tget 0 f.replay q.port = 0 ∧
      tget 0 f.flits (5 * q.port + q.vc) + (1 + q.pkt.ndata.toNat) ≤ if q.vc = 3 then 9 else 48)) ∧
    (∀ q r, q.vc ≤ 3 →
      (s.canDepart q = true → (s.departFrom [q] [] [] []).hub.fab = { f with
        queues := [], flits := tset f.flits (5 * q.port + q.vc) (tget 0 f.flits (5 * q.port + q.vc) + (1 + q.pkt.ndata.toNat)),
        retry := tset f.retry q.port (keepFlits (tget [] f.retry q.port) (Packet.wire q.pkt)) }) ∧
      (s.canDepart q = false → q.key = r.key → (s.departFrom [q, r] [] [] []).hub.fab = { f with
        queues := [{ q with head := some (q.head.getD (s.cycle + 1)) }, { r with head := none }] }) ∧
      (s.canDepart q = false → q.key ≠ r.key → s.canDepart r = true → (s.departFrom [q, r] [] [] []).hub.fab.queues = [{ q with head := some (q.head.getD (s.cycle + 1)) }])) ∧
    (∀ k q, f.queues[k]? = some q →
      (f.roomAt q.inp (2 + f.hopClass q.pkt) q.pkt = false → exec (.escapeMove k) s = .next s) ∧
      (∀ c, q.head = some c → s.cycle < c + 55000 ∨ q.vc = 3 → exec (.escapeMove k) s = .next s) ∧
      (∀ c, q.head = some c → c + 55000 ≤ s.cycle → q.vc ≠ 3 → q.port < 33 → f.roomAt q.inp (2 + f.hopClass q.pkt) q.pkt = true → ∃ t x, exec (.escapeMove k) s = .next t ∧
        t.hub.fab.queues = delNth f.queues k ++ [x] ∧ x.vc = 3 ∧ x.pkt = { q.pkt with vc := 3, esc := true } ∧
        x.port = (f.minimal q.pkt.dst.toNat).getD q.port ∧ x.cls = f.hopClass q.pkt ∧ x.inp = q.inp ∧ x.buf = 2 + f.hopClass q.pkt ∧
        tget 0 t.hub.fab.escapes q.port = tget 0 f.escapes q.port + 1)) ∧
    (∀ src n, fabIs (.creditGrant src n) { f with asked := f.asked.filter (· != src), credits := tset f.credits src ((tget [] f.credits src ++ List.replicate n s.cycle).take 8) }) ∧
    (∀ dst c cs, tget [] f.credits dst = c :: cs →
      (s.cycle < c + 65536 → exec (.creditExpiry dst) s = .next s) ∧ (c + 65536 ≤ s.cycle → fabIs (.creditExpiry dst) { f with credits := tset f.credits dst cs })) ∧
    (∀ src, f.waiting = [] → s.hub.pod.rq ≤ f.rxq.length → fabIs (.creditRequest src) { f with waiting := [src] }) ∧
    (∀ src, f.waiting = [] → f.given = [] → f.rxq.length + 8 ≤ s.hub.pod.rq → src < 2 ^ 11 → src = s.hub.device.toNat → ∃ t q, exec (.creditRequest src) s = .next t ∧
      t.hub.fab.waiting = [] ∧ t.hub.fab.given = [(src, List.replicate 8 s.cycle)] ∧ t.hub.fab.queues = f.queues ++ [q] ∧ q.pkt.type = 6 ∧ q.pkt.umask = 8) ∧
    (∀ k o, s.hub.outq[k]? = some o →
      ((∃ e ∈ s.hub.outq.take k, o.follows e = true) → exec (.fabricPacketSend k) s = .next s) ∧
      ((∀ e ∈ s.hub.outq.take k, o.follows e = false) →
        (∀ g, s.isLive o.pkt.dst.toNat = false → o.org = some g → o.ack = none → s.hears g = true →
          ∃ t, exec (.fabricPacketSend k) s = .next t ∧ t.hub = { s.hub with outq := delNth s.hub.outq k } ∧
            (t.thread g.tid).faults = (s.thread g.tid).faults ++ [⟨trapInfo .fabricUnreachable 7 (BitVec.ofNat 64 o.pkt.dst.toNat) o.va, s.cycle, g⟩]) ∧
        (s.isLive o.pkt.dst.toNat = true → s.belowLimit o = false → exec (.fabricPacketSend k) s = .next s) ∧
        (s.isLive o.pkt.dst.toNat = true → s.belowLimit o = true →
          (tget [] f.credits o.pkt.dst.toNat = [] → o.pkt.dst.toNat ∈ f.asked → exec (.fabricPacketSend k) s = .next s) ∧
          (tget [] f.credits o.pkt.dst.toNat = [] → o.pkt.dst.toNat ∉ f.asked → ∃ t q, exec (.fabricPacketSend k) s = .next t ∧ t.hub.outq = s.hub.outq ∧
            t.hub.fab.asked = f.asked ++ [o.pkt.dst.toNat] ∧ t.hub.fab.queues = f.queues ++ [q] ∧ q.pkt.type = 5 ∧ q.pkt.dst = o.pkt.dst) ∧
          (∀ c cs, tget [] f.credits o.pkt.dst.toNat = c :: cs → ∃ t x q, exec (.fabricPacketSend k) s = .next t ∧ t.hub.outq = delNth s.hub.outq k ∧
            tget [] t.hub.fab.credits o.pkt.dst.toNat = cs ∧ t.hub.fab.sent = f.sent ++ [x] ∧ x.pkt = { o.pkt with src := s.hub.device, seq := BitVec.ofNat 32 f.seq } ∧
            t.hub.fab.seq = (f.seq + 1) % 2 ^ 32 ∧ t.hub.fab.queues = f.queues ++ [q] ∧ q.pkt.seq = BitVec.ofNat 32 f.seq ∧ q.pkt.data = o.pkt.data ∧ t.mem = s.mem)))) ∧
    (∀ src seq,
      let hit (o : OutPkt) : Bool := o.pkt.dst.toNat == src && o.pkt.seq.toNat == seq
      (f.sent.find? hit = none → exec (.ackReceive src seq) s = .next s) ∧
      (∀ o, f.sent.find? hit = some o → o.ack = none → ∃ t, exec (.ackReceive src seq) s = .next t ∧ t.hub.fab = { f with sent := f.sent.filter (fun x => !hit x) } ∧
        t.mem = s.mem ∧ ∀ g, o.org = some g → o.win < 16 → (s.thread g.tid).st ≠ .free → (s.thread g.tid).born = g.born →
          (tget 0 (t.thread g.tid).regs.allow o.win).toNat / 2 ^ 16 % 2 ^ 16 = ((tget 0 (s.thread g.tid).regs.allow o.win).toNat / 2 ^ 16 % 2 ^ 16 - 1))) ∧
    (∀ dev, dev < 1057 → dev ∉ s.hub.pod.failed → s.hub.outq = [] → f.sent = [] →
      (∀ n c, s.coordinator = some dev → (2 ≤ f.bnd.st ∧ n = f.bnd.n ∨ f.bnd.st < 2 ∧ n + 1 = f.bnd.n) → ∃ t, exec (.failedNotice dev) s = .next t ∧
        (t.coordinator = some c → ∃ q, t.hub.fab.queues = f.queues.filter (fun q => q.pkt.dst.toNat != dev) ++ [q] ∧ q.pkt.type = 7 ∧
          q.pkt.dst = BitVec.ofNat 11 c ∧ q.pkt.stepno = BitVec.ofNat 32 n)) ∧
      (s.coordinator ≠ some dev → ∃ t, exec (.failedNotice dev) s = .next t ∧ t.hub.pod = { s.hub.pod with failed := s.hub.pod.failed ++ [dev] } ∧ t.isLive dev = false ∧
        t.hub.fab.newFailed = f.newFailed ++ news dev ∧ t.hub.fab.queues = f.queues.filter (fun q => q.pkt.dst.toNat != dev) ∧ t.threads = s.threads) ∧
      (∃ t, exec (.declareFailed dev) s = .next t ∧ t.hub.pod = { s.hub.pod with failed := s.hub.pod.failed ++ [dev] } ∧
        t.hub.fab.newFailed = f.newFailed ++ news dev ∧ t.threads = s.threads)) ∧
    (∀ dev, f.reported dev = true ↔ ∃ g, f.lastGo = some g ∧ g.2.getLsbD 0 = true ∧ g.2.toNat / 2 % 2 ^ 11 = dev) ∧
    (∀ dev, dev ∈ s.hub.pod.failed → exec (.failedNotice dev) s = .next s ∧ exec (.declareFailed dev) s = .next s)

/-- R408 to R413, R416, R420, R425: the receive queue and the boundary. WRITE and TOKEN packets of the step or the next are placed within its capacity and acknowledged; those of an
older step are discarded and counted, and rows of one die are placed in their order of arrival; FRED packets are applied to their line. A device whose packets are acknowledged sends FLUSHED; the coordinator sends GO once it holds them
all, and answers a FLUSHED whose GO it has with that GO; then the step's entries are applied, and every STEP of the step completes with its status.
Log entries 16, 58 and 60 hold the model's choices. -/
def Obligations.BoundaryEvents : Prop :=
  (∀ (s : State) (k : Nat) (p : Packet), s.hub.fab.rxq[k]? = some p → s.hub.fab.waiting = [] →
    let f := s.hub.fab
    let after (t : State) : Prop := t.hub.fab.rxq = delNth f.rxq k ∧ t.hub.fab.seq = (f.seq + 1) % 2 ^ 32 ∧
      ∃ q, t.hub.fab.queues = f.queues ++ [q] ∧ q.pkt.type = 4 ∧ q.pkt.dst = p.src ∧ q.pkt.umask = p.seq
    let size := 64 + 64 * p.ndata.toNat
    let used := ((f.gran.filter (fun x => x.step == f.bnd.n)).map GranEnt.size).foldl (· + ·) 0
    (p.type ≠ 1 → exec (.writePlace k) s = .next s) ∧ (p.type ≠ 2 → exec (.fredApply k) s = .next s) ∧ (p.type ≠ 3 → exec (.tokenPlace k) s = .next s) ∧
    (p.type = 1 →
      (s.stepClass p = 2 → exec (.writePlace k) s = .next s) ∧
      (s.stepClass p = 3 → ∃ t, exec (.writePlace k) s = .next t ∧ t.hub.fab = { f with errors := f.errors + 1, rxq := delNth f.rxq k }) ∧
      (s.stepClass p = 0 → used + size ≤ f.bnd.cap → ∃ t, exec (.writePlace k) s = .next t ∧ after t ∧ t.hub.fab.gran = f.gran ++ [⟨f.bnd.n, p, none⟩] ∧ t.mem = s.mem) ∧
      (s.stepClass p = 0 → f.bnd.cap < used + size → ∃ t, exec (.writePlace k) s = .next t ∧ after t ∧ t.hub.fab.gran = f.gran ∧
        t.hub.fab.bnd.excess = f.bnd.excess + size)) ∧
    (p.type = 2 → MemOk s →
      let eidx := p.ext.toNat % 2 ^ 16
      let ln := p.ext.toNat / 2 ^ 16 % 2 ^ 5
      let die := p.ext.toNat / 2 ^ 21 % 2
      let off := p.ext.toNat / 2 ^ 22 % 2 ^ 26
      let dom := p.ext.toNat / 2 ^ 48 % 2 ^ 6
      let h := diePlace die off
      let op := s.dwField h 0 0 3
      s.ownsRange die dom off 64 = true → op ≤ 5 → eidx + ln + 1 ≤ s.dwField h 1 0 16 → off + 64 + 4 * (eidx + ln + 1) ≤ 2 ^ 26 →
      s.dwField h 0 3 1 = 1 → s.dwField h 0 4 1 = 0 → ∃ t, exec (.fredApply k) s = .next t ∧ after t ∧ t.threads = s.threads ∧
        t.dwField h 0 32 16 = (s.dwField h 0 32 16 + 1) % 65536 ∧
        t.dwField h 0 4 1 = (if (s.dwField h 0 32 16 + 1) % 65536 = s.dwField h 0 16 16 then 1 else 0) ∧
        (∀ i, i ≤ ln → t.read (h + 64 + 4 * (eidx + i)) 4 = (redOp op (BitVec.ofNat 32 (s.read (h + 64 + 4 * (eidx + i)) 4)) (nth 0 p.data i)).toNat) ∧
        (∀ a, (a < h ∨ h + 8 ≤ a) → (a < h + 64 + 4 * eidx ∨ h + 64 + 4 * (eidx + ln + 1) ≤ a) → t.byteAt a = s.byteAt a)) ∧
    (p.type = 3 → (∃ i q, i < k ∧ f.rxq[i]? = some q ∧ q.type = 3 ∧ q.die = p.die ∧ s.stepClass q ≠ 2) → exec (.tokenPlace k) s = .next s) ∧
    (p.type = 3 → (∀ i q, i < k → f.rxq[i]? = some q → q.type = 3 → q.die = p.die → s.stepClass q = 2) → s.stepClass p = 0 → used + size ≤ f.bnd.cap → (rowHead p).testBit 47 = false → (rowHead p).testBit 35 = false →
      let die := p.die.toNat
      let x := rowHead p % 2 ^ 12
      (∀ j n, (List.range 64).find? (fun j => decide (s.ctxField die (0x440 + 16 * j) 12 1 = 1 ∧ s.ctxField die (0x440 + 16 * j) 0 12 = x)) = some j →
        (s.placedFor f.bnd.n die j).length = n → n ≤ s.ctxField die (0x440 + 16 * j) 13 5 → ∃ t, exec (.tokenPlace k) s = .next t ∧ after t ∧
          t.hub.fab.gran = f.gran ++ [⟨f.bnd.n, p, some (die, j, n)⟩] ∧ t.mem = s.mem))) ∧
  (∀ (s : State),
    let f := s.hub.fab
    let b := f.bnd
    (b.st ≠ 1 ∨ s.hub.pod.stepnum ≠ b.n + 1 ∨ s.unflushed b.n = true → exec .flushComplete s = .next s) ∧
    (∀ c, b.st = 1 → s.hub.pod.stepnum = b.n + 1 → s.unflushed b.n = false → s.coordinator = some c → ∃ t q, exec .flushComplete s = .next t ∧
      t.hub.fab.bnd = { b with st := 2, told := f.newFailed } ∧ t.hub.fab.queues = f.queues ++ [q] ∧ q.pkt.type = 7 ∧ q.pkt.stepno = BitVec.ofNat 32 b.n ∧ q.pkt.dst = BitVec.ofNat 11 c) ∧
    (s.coordinator ≠ some s.hub.device.toNat ∨ b.st ≠ 2 ∨ s.missing ≠ [] → exec .coordinatorGo s = .next s) ∧
    (s.coordinator = some s.hub.device.toNat → b.st = 2 → s.missing = [] → ∃ t, exec .coordinatorGo s = .next t ∧
      t.hub.fab.flushed = f.flushed.filter (fun e => e.1 != b.n % 2 ^ 32) ∧ t.hub.fab.held = none ∧ t.hub.fab.bnd = b ∧ t.hub.fab.newFailed = [] ∧ (∃ x, t.hub.fab.lastGo = some (b.n % 2 ^ 32, x)) ∧
      (s.liveMembers = [s.hub.device.toNat] → ∃ q, t.hub.fab.queues = f.queues ++ [q] ∧ q.pkt.type = 8 ∧ q.pkt.stepno = BitVec.ofNat 32 b.n ∧
        q.pkt.umask = BitVec.ofNat 32 ((if f.newFailed = [] then 0 else 1 + 2 * f.newFailed.foldl (fun a d => Min.min a d) 2047) + b2n f.skewed * 2 ^ 12))) ∧
    (∀ port p, p.dst = s.hub.device →
      (p.type = 7 → f.lastGo.map Prod.fst ≠ some p.stepno.toNat → ∃ t, exec (.packetRoute port p) s = .next t ∧
        t.hub.fab = { f with flushed := t.hub.fab.flushed, held := some (f.held.getD s.cycle) } ∧ (p.stepno.toNat, p.src.toNat) ∈ t.hub.fab.flushed ∧
        ∀ e, e ∈ t.hub.fab.flushed → e ∈ f.flushed ∨ e = (p.stepno.toNat, p.src.toNat)) ∧
      (∀ x, p.type = 7 → f.lastGo = some (p.stepno.toNat, x) → ∃ t q, exec (.packetRoute port p) s = .next t ∧ t.hub.fab.flushed = f.flushed ∧
        t.hub.fab.queues = f.queues ++ [q] ∧ q.pkt.type = 8 ∧ q.pkt.dst = p.src ∧ q.pkt.stepno = p.stepno ∧ q.pkt.umask = x) ∧
      (p.type = 8 → b.st ≠ 2 ∨ p.stepno.toNat ≠ b.n % 2 ^ 32 → exec (.packetRoute port p) s = .next s) ∧
      (p.type = 8 → b.st = 2 → p.stepno.toNat = b.n % 2 ^ 32 → exec (.packetRoute port p) s = .next { s with hub := { s.hub with fab := { f with
        bnd := { b with go := some (p.umask.getLsbD 0, p.umask.toNat / 2 % 2 ^ 11, p.umask.getLsbD 12) }, lastGo := some (p.stepno.toNat, p.umask),
        newFailed := if p.umask.getLsbD 0 = true then f.newFailed.filter (fun d =>
          !(d == p.umask.toNat / 2 % 2 ^ 11 || (decide (p.umask.toNat / 2 % 2 ^ 11 < d) && b.told.contains d))) else f.newFailed } } })) ∧
    (f.held = none ∨ s.missing = [] → exec .stepSkew s = .next s) ∧
    (∀ c m ms, f.held = some c → s.missing = m :: ms → s.coordinator = some s.hub.device.toNat → f.skewed = false → c + s.hub.pod.skewlim ≤ s.cycle →
      (∃ e ∈ f.flushed, e.1 = b.n % 2 ^ 32) → ∃ t, exec .stepSkew s = .next t ∧ t.hub = { s.hub with fab := { f with skewed := true }, irqs := s.hub.irqs + 1 } ∧
        t.threads = s.threads ∧ ∀ d, d < 2 → (s.die d).bb.frozen = false → ∃ n, (t.die d).bb.ents.getLast? = some n ∧ n.event = 0x0160 ∧ n.data0 = BitVec.ofNat 64 m) ∧
    (b.st ≠ 2 ∨ b.go = none → exec .harvestApply s = .next s) ∧
    (b.st = 2 → b.go.isSome = true → (∀ e ∈ f.gran, e.step = b.n → e.tok = none ∧ s.rejects e.pkt = false ∧ e.pkt.off.toNat % 4 = 0) →
      s.harvestBusy ((f.gran.filter (fun e => e.step == b.n)).map GranEnt.pkt) = false → MemOk s →
      s.hub.pod.dcb0 < 2 ^ 26 → s.hub.pod.dcb1 < 2 ^ 26 → (∀ d j, d < 2 → j < 64 → s.ctxField d (0x440 + 16 * j) 12 1 = 0) →
      ∃ t, exec .harvestApply s = .next t ∧ t.hub.fab.bnd.st = 3 ∧ t.threads = s.threads ∧
        (∀ c, c ∈ (f.gran.filter (fun e => e.step == b.n)).flatMap (fun e => contribs e.pkt) →
          t.read (locKey c.loc) 4 = (resolve (BitVec.ofNat 32 (s.read (locKey c.loc) 4))
            (((f.gran.filter (fun e => e.step == b.n)).flatMap (fun e => contribs e.pkt)).filter (fun x => x.loc == c.loc))).1.toNat)) ∧
    (b.st ≠ 3 → exec .boundaryComplete s = .next s) ∧
    (b.st = 3 → s.hub.pod.pcount ≠ 0 → b.arrivalsNext < s.hub.pod.pcount → ∃ t, exec .boundaryComplete s = .next t ∧ t.mem = s.mem ∧
      t.hub.fab.bnd.n = b.n + 1 ∧ t.hub.fab.bnd.st = 0 ∧ t.hub.fab.bnd.arrivals = b.arrivalsNext ∧ t.hub.fab.gran = f.gran.filter (fun e => e.step != b.n) ∧
      ∀ tid d id tr, s.threads.filter (fun x => x.1 == tid) = [(tid, s.thread tid)] → (s.thread tid).wait = some (.step d id tr b.n) → d ≠ 0 → d < 31 →
        (s.thread tid).st = .waiting → (s.thread tid).xwait = none → (s.thread tid).inner = [] →
        SoleWriter (s.thread tid) id (.s d) → SoleWriter (s.thread tid) id (.s (d + 1)) →
        (t.thread tid).st = .running ∧ (t.thread tid).wait = none ∧ (t.thread tid).sreg d = BitVec.ofNat 64 b.status.1 ∧
        (t.thread tid).sreg (d + 1) = BitVec.ofNat 64 b.status.2))

/-! ## The whole machine -/

/-- R12, R39, R84: the frame of the instructions of the S, V and Y slots and of pair words: where one goes on, nothing of the machine changes but its own thread, and of that only
the writes it has on their way, each to a register it names as a destination; $fstat and the generator change only where it rounds, saturates, draws or is a MOVZ, and the
select state only by YTOPK INIT and ADD. Before a draw a seed write of the same bundle gives way.
That a seed write of the same bundle gives way before a draw, and that the generator changes at issue, is log entry 20; that $fstat changes at issue is log entry 18. -/
def Obligations.RegisterFrame : Prop :=
  ∀ (s t : State) (i : Instr), OnRegisters i → s.cur.out = .ok → exec i s = .next t → t.cur = s.cur →
    ThreadsOnly s t ∧ OthersKept s t ∧
    (∃ fl fs, t.me = { s.me with
        flight := fl ++ fs, ctl := { s.me.ctl with fstat := t.me.ctl.fstat }, regs := { s.me.regs with seed := t.me.regs.seed }, sel := t.me.sel } ∧ (∀ f ∈ fs, f.dest ∈ writesOf i) ∧
      (fl = s.me.flight ∨ flagsOrDraws i = true ∧ fl = s.me.flight.filter (fun f => f.ord != s.me.ord || (List.range 4).all (fun n => f.dest != .sys (0x018 + n))))) ∧
    (flagsOrDraws i = false → t.me.ctl.fstat = s.me.ctl.fstat ∧ t.me.regs.seed = s.me.regs.seed) ∧
    (changesSelect i = false → t.me.sel = s.me.sel)

/-- R19, R82, R191, R236, R272, R299, R340, Tables 1-2, 1-3, 18-3 and 19-3: what the spec gives for reset: every sequencer FREE, MA in the cells with c0, c1 and h clear, tiles clear, both
banks of the code table at the fixed levels, entries invalid, credits full, every block of die memory with domain 0, the energy account clear, the pod context at its defaults,
cycle 0.
The memory of the machine at reset is in canonical form, and reads 0 everywhere (log entry 1: what unwritten memory reads as is the model's choice).
The zeros of the register files in sequencers that are FREE, and of tile modes and exponents, are log entry 2. -/
def Obligations.ResetState : Prop :=
  (State.reset.cycle = 0 ∧
   (∀ tid, let t := State.reset.thread tid
     t.st = .free ∧ t.loops = [] ∧ t.ctl.round = 0 ∧ t.ctl.fstat = 0 ∧ t.ctl.cause = 0 ∧ t.sel.isOpen = false ∧ t.grp = none ∧
     (∀ r, t.sreg r = 0 ∧ t.vreg r = 0 ∧ t.preg r = 0 ∧ t.qreg r = 0) ∧ (∀ r, 0 < r → t.greg r = false ∧ t.mreg r = 0)) ∧
   (∀ c, let a := (State.reset.core c).arr
     a.cell = ⟨[0x06020000, 0x31000000, 0xF0000000], 0, 0, none, true⟩ ∧ (∀ k, tget ⟨0, 0⟩ a.c0 k = ⟨0, 0⟩ ∧ tget ⟨0, 0⟩ a.c1 k = ⟨0, 0⟩ ∧ tget ⟨0, 0⟩ a.h k = ⟨0, 0⟩) ∧
     (∀ i, a.tile i = Tile.zero) ∧ a.code.bank0 = fixedLevels ∧ a.code.bank1 = fixedLevels ∧ a.code.flip = false ∧ (∀ e, tget 0 a.entries e = 0 ∧ tget 0 a.entryDom e = 0) ∧
     (∀ k, (State.reset.core c).credit k = 16 ∧ (State.reset.core c).msgCredit k = 8) ∧ (State.reset.core c).snap = none ∧ (State.reset.core c).inService = true) ∧
   (∀ d b, (State.reset.ownEntry d b).toNat = 0xC0) ∧ (∀ d, (State.reset.die d).draint = 16384 ∧ (State.reset.die d).fwLock = false) ∧
   (let e := State.reset.hub.energy
    e.g = 0 ∧ e.carry = 0 ∧ e.bal = 0 ∧ State.reset.held = 0 ∧ (∀ d, e.resvOf d = 0) ∧ e.spent = 0 ∧ e.intv = 0) ∧
   (let p := State.reset.hub.pod
    p.dom = 0 ∧ p.failed = [] ∧ p.pcount = 0 ∧ p.gback = 0 ∧ p.skewlim = 11000000 ∧ p.rq = 64 ∧ p.thr = 16 ∧ p.dcb0 = 0 ∧ p.dcb1 = 0 ∧ p.stepnum = 0) ∧
   (∀ dev, State.reset.isMember dev = true ↔ dev = State.reset.hub.device.toNat)) ∧
  (MemOk State.reset ∧ ∀ k, State.reset.byteAt k = 0)

/-- R21, R29, R34, R49, R50: a step. The event at the head of the agenda acts, but that a packet at port 1 lets those at port 0 go first (R381); with none, the lowest core that is yet to try issues; with no such core the cycle ends. Where the first
sequencer of that core's order may issue alone, and the bytes at its program counter decode to a bundle of one instruction that no interlock holds and that traps neither early
nor in execution, the step is exec of that instruction on that thread, followed by the move past the bundle or to its target, its stall count, and the round-robin order.
The order of the parts of a cycle is log entry 5. -/
def Obligations.StepRunsDecoded : Prop :=
  (∀ (s : State) (i : Instr) (rest : List Instr), s.agenda = i :: rest →
    let e := (nextEvent i rest).1
    let u := { s with agenda := (nextEvent i rest).2 }
    (isEvent e = true → step s = exec e u) ∧ (isEvent e = false → step s = .next u) ∧
    (arrivesAt 1 i = false ∨ (∀ j ∈ rest, arrivesAt 0 j = false) → e = i ∧ u.agenda = rest) ∧
    (∀ k j, arrivesAt 1 i = true → rest[k]? = some j → arrivesAt 0 j = true → (∀ m x, m < k → rest[m]? = some x → arrivesAt 0 x = false) →
      e = j ∧ u.agenda = i :: delNth rest k)) ∧
  (∀ s : State, s.agenda = [] → s.nextCore = none → step s = .next s.endCycle) ∧
  (∀ (s : State) (c : Nat) (bs : List Byte) (b : Bundle) (i : Instr) (t : State), s.agenda = [] → s.nextCore = some c →
    let u := s.updCore c (fun x => { x with tried := s.cycle + 1 })
    let tid := 4 * c + ((u.core c).last + 1) % 4
    let th := u.thread tid
    let v := u.touchLine tid th.pc.toNat
    u.faulted c = [] → u.issuers tid = some ([tid], false) → u.resident tid = none → u.fetch tid th th.pc.toNat = .bytes bs → leNat (bs.take 2) ≠ 0x8000 →
    decodeBundle bs = .ok b → b.ops = [i] → i ≠ .lineSkip → v.opLocked tid tid i = false → v.opBehind tid tid i = false → v.opShort tid tid i = false →
    v.levelTrap tid [i] = none →
    exec i { v.updThread tid (fun x => { x with ord := x.ord + 1 }) with
      cur := ⟨tid, tid, th.pc, BitVec.ofNat 48 (th.pc.toNat + b.len), slotBit i, b.stall, none, false, .ok⟩ } = .next t → t.cur.out = .ok →
    step s = .next ((t.afterIssue tid).updCore (coreOf tid) (fun x => { x with last := tid % 4 })))

/-- Tables 2-3 to 2-7: words written out field by field from the spec's encodings, guard g0 unless said: `add s3, s1, s2` (OP 0, d 3, a 1, b 2), `addi s4, s1` with -1 and with the
K word 0x12345678, `jmp s9` under not g3, `end`, a masked zeroing `vadd v1, v2, v3`, `ldv v5, [s6 + 64]`, `mzero a2` with mark 1, a descending `ysort` of FP32 keys, `rpush g2, s3, s4`;
and an ADD whose reserved bits are set is refused. -/
def Obligations.DecodedWords : Prop :=
  decodeSlot .S 0x00061100 none = some (.add ⟨false, 0⟩ 3 1 2 0) ∧
  decodeSlot .S 0x04081FFF none = some (.addi ⟨false, 0⟩ 4 1 0xFFF none) ∧
  decodeSlot .S 0x04081800 (some 0x12345678) = some (.addi ⟨false, 0⟩ 4 1 0x800 (some 0x12345678)) ∧
  decodeSlot .C 0x0AC09000 none = some (.jmp ⟨true, 3⟩ 9) ∧
  decodeSlot .C 0x24000000 none = some (.endThread ⟨false, 0⟩) ∧
  decodeSlot .V 0x0002218C none = some (.vadd ⟨false, 0⟩ 1 2 3 0 0 1 4) ∧
  decodeSlot .L 0x2C0A6040 none = some (.ldv ⟨false, 0⟩ 5 6 0x040 none) ∧
  decodeSlot .M 0x14040002 none = some (.mzero ⟨false, 0⟩ 2 0 0 0 1 0) ∧
  decodeSlot .Y 0x00081106 none = some (.ysort ⟨false, 0⟩ 4 1 2 1 2) ∧
  decodeSlot .X 0x0C043200 none = some (.rpush ⟨false, 0⟩ 2 3 4) ∧
  decodeSlot .S 0x0006117E none = none

/-- R32 to R43, Tables 2-1 to 2-7: decoding a word of the C, S or pair columns as the encoder writes it gives the instruction back, with every operand at every value. -/
def Obligations.ScalarWordsRoundTrip : Prop :=
  ∀ (i : Instr) (sl : Slot), slotOf i = some sl → sl = .C ∨ sl = .S ∨ sl = .P → i.wellFormed = true → encode i < 2 ^ 32 ∧ decodeSlot sl (encode i) (kWordOf i) = some i

/-- The same for the V, L, M, Y and X columns. -/
def Obligations.EngineWordsRoundTrip : Prop :=
  ∀ (i : Instr) (sl : Slot), slotOf i = some sl → sl = .V ∨ sl = .L ∨ sl = .M ∨ sl = .Y ∨ sl = .X → i.wellFormed = true →
    encode i < 2 ^ 32 ∧ decodeSlot sl (encode i) (kWordOf i) = some i

/-- No instruction of the table stops the machine: every instruction and every step answers a next state, from any state whatever; so every run is safe.
That an event whose condition does not hold changes nothing is log entry 7. -/
def Obligations.EveryStepAnswers : Prop := (∀ (i : Instr) (s : State), ∃ t, exec i s = .next t) ∧ (∀ s : State, ∃ t, step s = .next t) ∧ ∀ s : State, Safe s

/-- R3, R374: memory keeps its canonical form (the model's own invariant, log entry 1: addresses rising, no byte listed that reads as unlisted ones do) whatever the machine does: an access that
performs, an entry of an inbound queue, a delivery, a chunk of a copy, a packet, a hamper, a harvest, a boot; so every step keeps it. -/
def Obligations.MemoryStaysCanonical : Prop := ∀ s t : State, MemOk s → step s = .next t → MemOk t

/-- R120, R121, R186 to R188, R271, R272, R275, R277, R278: where the guard functions, the moves of system registers, the tile transfers, the messages and the two events of the inbound
queues complete, and what they leave: conditions on the state and the operands alone. A tile transfer completes at issue when its claim, its checks and its rows are
good and no earlier command uses its slot or tile; it joins the accesses that wait to perform. A predicated one whose bit is 0 does nothing.
The order of the checks of a transfer is log entry 6; what a TST with .raw draws is log entry 72. That a flag, and a MOVZ to $fstat, acts at issue is log entry 18. -/
def Obligations.Completions : Prop :=
  ∀ (s : State),
    (∀ (gd : Guard) (d a b : BitVec 5), s.guard gd = true →
      let core := coreOf s.cur.tid
      let arr := (s.core core).arr
      let x := (s.s a).toNat
      let truth (n : Nat) : Bool := n.testBit ((if s.g a = true then 2 else 0) + (if s.g b = true then 1 else 0))
      -- R120: GOP, the functions as truth tables over (g[a], g[b])
      (∀ f : BitVec 7, f.toNat < 8 → exec (.gop gd d a b f) s = .next (s.postG d (truth (nth 0 [0x8, 0xE, 0x6, 0x4, 0xD, 0x7, 0x1, 0x9] f.toNat)) 1)) ∧
      exec (.gop gd d a b 8) s = .next (s.postG d (decide (s.s a ≠ 0)) 1) ∧
      exec (.gop gd d a b 9) s = .next (s.postS d (if s.g a = true then 1 else 0) 1) ∧
      -- R121: MOVS and MOVZ, at a level that may reach the register
      (∀ (im : BitVec 17) (kw : Option (BitVec 32)) (r : SysRegInfo), sysRegInfo (immU17 im kw) = some r → (r.atT = true ∨ s.me.atF = true) →
        exec (.movs gd d im kw) s = .next (s.postS d (s.sysRead (immU17 im kw)) 2) ∧
        (movzOk (immU17 im kw) = true → movzReserved (immU17 im kw) (s.s d) = false →
          exec (.movz gd d im kw) s = .next (if immU17 im kw = 0x011 then
              s.updMe (fun t => { t with ctl := { t.ctl with fstat := t.ctl.fstat &&& ~~~((s.s d).setWidth 6) } })
            else s.post (.sys (immU17 im kw)) (s.s d).toNat 1))) ∧
      -- R186: TLD
      (∀ (t xx y : BitVec 1),
        let slot := d.toNat + 32 * y.toNat
        let entry := b.toNat + 32 * xx.toNat
        let te := arr.tensor entry
        let k0 := x % 2 ^ 20
        let row0 := x / 2 ^ 20 % 2 ^ 20
        let spans := (List.range (Min.min 32 (te.rows - row0))).flatMap (fun r => te.rowSpans (t == 1) (row0 + r) k0)
        s.entryPending entry = false → s.footBusy (footSlots [slot]) = false → arr.holdsSlot s.cur.tid slot = true →
        tldCheck te (tget 0 arr.entryDom entry != s.me.dom) (t == 1) row0 k0 = none → RowsAdmitted s .read spans → s.slotSpoiled core slot = false →
        ∃ u, exec (.tld gd d a b t xx y) s = .next u ∧
          Queued s u (.tld slot entry (t == 1) row0 k0 (spans.map (fun p => (padPlace core p.1, p.2)))) (17 + if te.sm = 0 ∧ te.sp = 0 then 0 else 2) [] false 0) ∧
      -- R187, R188: TLDA and TST
      (∀ (t : BitVec 4) (p : BitVec 1) (r f : BitVec 3),
        let on : Prop := p = 0 ∨ (s.q (BitVec.ofNat 3 ((s.s b).toNat / 2 ^ 32))).getLsbD ((s.s b).toNat / 2 ^ 40 % 64) = true
        let n := afBytes f.toNat
        let va := x % 2 ^ 48
        let str := (s.s b).toNat % 2 ^ 20
        let rows := (List.range 32).map (fun r => (va + r * str, 32 * n))
        (¬ on → exec (.tlda gd t a b p f) s = .next s ∧ exec (.tst gd t a b p r f) s = .next s) ∧
        (on → s.footBusy (footTiles [t.toNat]) = false → arr.holdsTile s.cur.tid t.toNat = true → va % n = 0 → str % n = 0 →
          (RowsAdmitted s .read rows → ∃ u, exec (.tlda gd t a b p f) s = .next u ∧ Queued s u (.tlda t.toNat f.toNat (padPlace core va) str) (8 * n + 1) [] false 0) ∧
          (RowsAdmitted s .write rows → s.cellErr core = none →
            ((s.roundCode3 r ≠ 5 ∨ 4 ≤ f.toNat) → ∃ u, exec (.tst gd t a b p r f) s = .next u ∧
              Queued s u (.tst t.toNat f.toNat (padPlace core va) str (s.roundCode3 r) []) (8 * n + 1) [] false 0) ∧
            (s.roundCode3 r = 5 → f.toNat < 4 → ∃ u, exec (.tst gd t a b p r f) s = .next u ∧
              Queued (s.draws16 1024).2 u (.tst t.toNat f.toNat (padPlace core va) str 5 (s.draws16 1024).1) (8 * n + 1) [] false 0)))) ∧
      -- R275: MQSEND
      (x / 2 ^ 3 % 2 ^ 5 = 0 → x / 2 ^ 13 % 2 ^ 19 = 0 →
        ((s.core core).credit (x % 8) = 0 ∨ (s.core core).msgCredit (x % 8) = 0 → exec (.mqsend gd d a b) s = .next (s.postVar (.g d.toNat) 0)) ∧
        ((s.core core).credit (x % 8) ≠ 0 → (s.core core).msgCredit (x % 8) ≠ 0 → ∃ t, exec (.mqsend gd d a b) s = .next t ∧
          t.me.flight = (s.postVar (.g d.toNat) 1).me.flight ∧ t.me.due = (s.postVar (.g d.toNat) 1).me.due ∧
          (t.core core).credit (x % 8) = (s.core core).credit (x % 8) - 1 ∧ (t.core core).msgCredit (x % 8) = (s.core core).msgCredit (x % 8) - 1)) ∧
      -- R277: MQRECV
      (x < 8 → ∀ (c : BitVec 1) (k : BitVec 3),
        ((s.core core).message (c == 1) x = none → exec (.mqrecv gd d a c k) s = .next (s.postVar (.g k.toNat) 0)) ∧
        (∀ q e, (s.core core).message (c == 1) x = some (q, e) →
          exec (.mqrecv gd d a c k) s = .next ((((s.freeEntry core q e).postVar (.v d.toNat) e.data).postVar (.s a.toNat)
            (e.tag.toNat * 2 ^ 32 + e.seq * 2 ^ 16 + e.ln * 8 + e.src)).postVar (.g k.toNat) 1))) ∧
      -- R278: MQSTAT
      (x < 16 → exec (.mqstat gd d a) s = .next (s.postVar (.s d.toNat) (
        if x < 8 then ((s.core core).queue x).tail % 65536 +
          (match ((s.core core).queue x).ents with | [] => ((s.core core).queue x).tail % 65536 | e :: _ => e.seq) * 2 ^ 16 +
          ((s.core core).queue x).ents.length * 2 ^ 32 + (((s.core core).queue x).ents.filter (fun e => e.isMsg && e.marked.isSome)).length * 2 ^ 37
        else (s.core core).credit (x - 8) + (s.core core).msgCredit (x - 8) * 2 ^ 5)))) ∧
    -- R271, R272: the events of the queues
    (∀ core j e, s.turn core = some (j, e) → ∃ t, exec (.queueEntryApply core) s = .next t ∧ (t.core core).served = j ∧
      ((e.kind = 1 ∨ e.kind = 2) → ((t.core core).queue j).ents = ((s.core core).queue j).ents.filter (fun y => y.place != e.place) ∧
        ⟨s.cycle + 4, core % 8, false⟩ ∈ (t.core (core / 8 * 8 + j)).back) ∧
      (e.kind = 3 → ((t.core core).queue j).ents = ((s.core core).queue j).ents.map (fun y => if y.place = e.place then { y with marked := some s.cycle } else y))) ∧
    (∀ core k, k < 8 → ∃ t, exec (.queueCreditReturn core) s = .next t ∧
      (t.core core).back = (s.core core).back.filter (fun b => decide (s.cycle < b.at_)) ∧
      (t.core core).credit k = (s.core core).credit k + ((s.core core).back.filter (fun b => decide (b.at_ ≤ s.cycle ∧ b.target = k))).length ∧
      (t.core core).msgCredit k = (s.core core).msgCredit k + ((s.core core).back.filter (fun b => decide (b.at_ ≤ s.cycle ∧ b.target = k ∧ b.msg = true))).length)
end

