-- ==== Sys2Proof/Laws/Exec.lean ====
section
/-! SUPPORT. The arm of each instruction, one lemma per constructor: what exec calls. -/

namespace Sys2Proof.Machine

open Sys2Proof

theorem exec_nop {s} {gd} : exec (.nop gd) s = execNop gd s := rfl
theorem exec_br {s} {gd} {o} {kw} : exec (.br gd o kw) s = execBr gd o kw s := rfl
theorem exec_jmp {s} {gd} {a} : exec (.jmp gd a) s = execJmp gd a s := rfl
theorem exec_call {s} {gd} {o} {kw} : exec (.call gd o kw) s = execCall gd o kw s := rfl
theorem exec_callr {s} {gd} {d} {a} : exec (.callr gd d a) s = execCallr gd d a s := rfl
theorem exec_ret {s} {gd} {a} : exec (.ret gd a) s = execRet gd a s := rfl
theorem exec_loop {s} {gd} {l} {c} {kw} : exec (.loop gd l c kw) s = execLoop gd l c kw s := rfl
theorem exec_loopr {s} {gd} {h} {a} {l} : exec (.loopr gd h a l) s = execLoopr gd h a l s := rfl
theorem exec_lbrk {s} {gd} {k} : exec (.lbrk gd k) s = execLbrk gd k s := rfl
theorem exec_endThread {s} {gd} : exec (.endThread gd) s = execEndThread gd s := rfl
theorem exec_yield {s} {gd} {a} : exec (.yield gd a) s = execYield gd a s := rfl
theorem exec_await {s} {gd} {d} {a} {im} {kw} : exec (.await gd d a im kw) s = execAwait gd d a im kw s := rfl
theorem exec_joinNew {s} {gd} : exec (.joinNew gd) s = execJoinNew gd s := rfl
theorem exec_join {s} {gd} {a} {im} {kw} : exec (.join gd a im kw) s = execJoin gd a im kw s := rfl
theorem exec_leave {s} {gd} : exec (.leave gd) s = execLeave gd s := rfl
theorem exec_bar {s} {gd} : exec (.bar gd) s = execBar gd s := rfl
theorem exec_fuse {s} {gd} {k} {f} : exec (.fuse gd k f) s = execFuse gd k f s := rfl
theorem exec_decouple {s} {gd} : exec (.decouple gd) s = execDecouple gd s := rfl
theorem exec_rejoin {s} {gd} {d} : exec (.rejoin gd d) s = execRejoin gd d s := rfl
theorem exec_suspend {s} {gd} {d} {a} : exec (.suspend gd d a) s = execSuspend gd d a s := rfl
theorem exec_suspendComplete {s} {die} {k} : exec (.suspendComplete die k) s = execSuspendComplete die k s := rfl
theorem exec_resume {s} {gd} {a} {p} : exec (.resume gd a p) s = execResume gd a p s := rfl
theorem exec_hamperLoadComplete {s} {die} {k} : exec (.hamperLoadComplete die k) s = execHamperLoadComplete die k s := rfl
theorem exec_hcopy {s} {gd} {d} {a} {b} : exec (.hcopy gd d a b) s = execHcopy gd d a b s := rfl
theorem exec_hcopyComplete {s} {die} {k} : exec (.hcopyComplete die k) s = execHcopyComplete die k s := rfl
theorem exec_hdiscard {s} {gd} {d} {a} : exec (.hdiscard gd d a) s = execHdiscard gd d a s := rfl
theorem exec_trap {s} {gd} {im} {kw} : exec (.trap gd im kw) s = execTrap gd im kw s := rfl
theorem exec_gate {s} {gd} {im} : exec (.gate gd im) s = execGate gd im s := rfl
theorem exec_rft {s} {gd} {a} : exec (.rft gd a) s = execRft gd a s := rfl
theorem exec_rftN {s} {gd} : exec (.rftN gd) s = execRftN gd s := rfl
theorem exec_snapst {s} {gd} {b} {o} {kw} : exec (.snapst gd b o kw) s = execSnapst gd b o kw s := rfl
theorem exec_snaprel {s} {gd} : exec (.snaprel gd) s = execSnaprel gd s := rfl
theorem exec_step {s} {gd} {d} {a} {t} : exec (.step gd d a t) s = execStep gd d a t s := rfl
theorem exec_add {s} {gd} {d} {a} {b} {k} : exec (.add gd d a b k) s = execAdd gd d a b k s := rfl
theorem exec_addi {s} {gd} {d} {a} {im} {kw} : exec (.addi gd d a im kw) s = execAddi gd d a im kw s := rfl
theorem exec_sub {s} {gd} {d} {a} {b} {k} : exec (.sub gd d a b k) s = execSub gd d a b k s := rfl
theorem exec_mul {s} {gd} {d} {a} {b} {k} : exec (.mul gd d a b k) s = execMul gd d a b k s := rfl
theorem exec_mulh {s} {gd} {d} {a} {b} : exec (.mulh gd d a b) s = execMulh gd d a b s := rfl
theorem exec_mulhu {s} {gd} {d} {a} {b} : exec (.mulhu gd d a b) s = execMulhu gd d a b s := rfl
theorem exec_div {s} {gd} {d} {a} {b} : exec (.div gd d a b) s = execDiv gd d a b s := rfl
theorem exec_divu {s} {gd} {d} {a} {b} : exec (.divu gd d a b) s = execDivu gd d a b s := rfl
theorem exec_rem {s} {gd} {d} {a} {b} : exec (.rem gd d a b) s = execRem gd d a b s := rfl
theorem exec_remu {s} {gd} {d} {a} {b} : exec (.remu gd d a b) s = execRemu gd d a b s := rfl
theorem exec_andS {s} {gd} {d} {a} {b} : exec (.andS gd d a b) s = execAndS gd d a b s := rfl
theorem exec_andi {s} {gd} {d} {a} {im} {kw} : exec (.andi gd d a im kw) s = execAndi gd d a im kw s := rfl
theorem exec_orS {s} {gd} {d} {a} {b} : exec (.orS gd d a b) s = execOrS gd d a b s := rfl
theorem exec_ori {s} {gd} {d} {a} {im} {kw} : exec (.ori gd d a im kw) s = execOri gd d a im kw s := rfl
theorem exec_xorS {s} {gd} {d} {a} {b} : exec (.xorS gd d a b) s = execXorS gd d a b s := rfl
theorem exec_xori {s} {gd} {d} {a} {im} {kw} : exec (.xori gd d a im kw) s = execXori gd d a im kw s := rfl
theorem exec_andn {s} {gd} {d} {a} {b} : exec (.andn gd d a b) s = execAndn gd d a b s := rfl
theorem exec_shl {s} {gd} {d} {a} {b} : exec (.shl gd d a b) s = execShl gd d a b s := rfl
theorem exec_shli {s} {gd} {d} {a} {im} {kw} : exec (.shli gd d a im kw) s = execShli gd d a im kw s := rfl
theorem exec_shr {s} {gd} {d} {a} {b} : exec (.shr gd d a b) s = execShr gd d a b s := rfl
theorem exec_shri {s} {gd} {d} {a} {im} {kw} : exec (.shri gd d a im kw) s = execShri gd d a im kw s := rfl
theorem exec_sar {s} {gd} {d} {a} {b} : exec (.sar gd d a b) s = execSar gd d a b s := rfl
theorem exec_sari {s} {gd} {d} {a} {im} {kw} : exec (.sari gd d a im kw) s = execSari gd d a im kw s := rfl
theorem exec_cmp {s} {gd} {d} {a} {b} {c} : exec (.cmp gd d a b c) s = execCmp gd d a b c s := rfl
theorem exec_cmpi {s} {gd} {c} {q} {a} {im} {kw} : exec (.cmpi gd c q a im kw) s = execCmpi gd c q a im kw s := rfl
theorem exec_sel {s} {gd} {d} {a} {b} {x} {k} : exec (.sel gd d a b x k) s = execSel gd d a b x k s := rfl
theorem exec_min {s} {gd} {d} {a} {b} : exec (.min gd d a b) s = execMin gd d a b s := rfl
theorem exec_max {s} {gd} {d} {a} {b} : exec (.max gd d a b) s = execMax gd d a b s := rfl
theorem exec_minu {s} {gd} {d} {a} {b} : exec (.minu gd d a b) s = execMinu gd d a b s := rfl
theorem exec_maxu {s} {gd} {d} {a} {b} : exec (.maxu gd d a b) s = execMaxu gd d a b s := rfl
theorem exec_clz {s} {gd} {d} {a} : exec (.clz gd d a) s = execClz gd d a s := rfl
theorem exec_popc {s} {gd} {d} {a} : exec (.popc gd d a) s = execPopc gd d a s := rfl
theorem exec_bfx {s} {gd} {d} {a} {im} {kw} : exec (.bfx gd d a im kw) s = execBfx gd d a im kw s := rfl
theorem exec_bfi {s} {gd} {d} {a} {im} {kw} : exec (.bfi gd d a im kw) s = execBfi gd d a im kw s := rfl
theorem exec_li {s} {gd} {d} {im} {kw} : exec (.li gd d im kw) s = execLi gd d im kw s := rfl
theorem exec_lih {s} {gd} {d} {im} {kw} : exec (.lih gd d im kw) s = execLih gd d im kw s := rfl
theorem exec_lea {s} {gd} {d} {a} {im} {kw} : exec (.lea gd d a im kw) s = execLea gd d a im kw s := rfl
theorem exec_addpc {s} {gd} {d} {im} {kw} : exec (.addpc gd d im kw) s = execAddpc gd d im kw s := rfl
theorem exec_gop {s} {gd} {d} {a} {b} {f} : exec (.gop gd d a b f) s = execGop gd d a b f s := rfl
theorem exec_movs {s} {gd} {d} {im} {kw} : exec (.movs gd d im kw) s = execMovs gd d im kw s := rfl
theorem exec_movz {s} {gd} {d} {im} {kw} : exec (.movz gd d im kw) s = execMovz gd d im kw s := rfl
theorem exec_fadd {s} {gd} {d} {a} {b} {r} : exec (.fadd gd d a b r) s = execFadd gd d a b r s := rfl
theorem exec_fsub {s} {gd} {d} {a} {b} {r} : exec (.fsub gd d a b r) s = execFsub gd d a b r s := rfl
theorem exec_fmul {s} {gd} {d} {a} {b} {r} : exec (.fmul gd d a b r) s = execFmul gd d a b r s := rfl
theorem exec_fma {s} {gd} {d} {a} {b} {r} : exec (.fma gd d a b r) s = execFma gd d a b r s := rfl
theorem exec_fmin {s} {gd} {d} {a} {b} : exec (.fmin gd d a b) s = execFmin gd d a b s := rfl
theorem exec_fmax {s} {gd} {d} {a} {b} : exec (.fmax gd d a b) s = execFmax gd d a b s := rfl
theorem exec_fcmp {s} {gd} {d} {a} {b} {c} : exec (.fcmp gd d a b c) s = execFcmp gd d a b c s := rfl
theorem exec_fcvti {s} {gd} {d} {a} {u} {r} : exec (.fcvti gd d a u r) s = execFcvti gd d a u r s := rfl
theorem exec_fcvtf {s} {gd} {d} {a} {u} {r} : exec (.fcvtf gd d a u r) s = execFcvtf gd d a u r s := rfl
theorem exec_pairWord {s} {gd} {sf} {d} {a} {b} {v} {x} {y} {z} : exec (.pairWord gd sf d a b v x y z) s = execPairWord gd sf d a b v x y z s := rfl
theorem exec_vadd {s} {gd} {d} {a} {b} {e} {sf} {z} {k} : exec (.vadd gd d a b e sf z k) s = execVadd gd d a b e sf z k s := rfl
theorem exec_vsub {s} {gd} {d} {a} {b} {e} {sf} {z} {k} : exec (.vsub gd d a b e sf z k) s = execVsub gd d a b e sf z k s := rfl
theorem exec_vmul {s} {gd} {d} {a} {b} {e} {z} {k} : exec (.vmul gd d a b e z k) s = execVmul gd d a b e z k s := rfl
theorem exec_vmulh {s} {gd} {d} {a} {b} {e} {u} {z} {k} : exec (.vmulh gd d a b e u z k) s = execVmulh gd d a b e u z k s := rfl
theorem exec_vmad {s} {gd} {d} {a} {b} {e} {sf} {z} {k} : exec (.vmad gd d a b e sf z k) s = execVmad gd d a b e sf z k s := rfl
theorem exec_vand {s} {gd} {d} {a} {b} {e} {z} {k} : exec (.vand gd d a b e z k) s = execVand gd d a b e z k s := rfl
theorem exec_vor {s} {gd} {d} {a} {b} {e} {z} {k} : exec (.vor gd d a b e z k) s = execVor gd d a b e z k s := rfl
theorem exec_vxor {s} {gd} {d} {a} {b} {e} {z} {k} : exec (.vxor gd d a b e z k) s = execVxor gd d a b e z k s := rfl
theorem exec_vshl {s} {gd} {d} {a} {b} {e} {z} {k} : exec (.vshl gd d a b e z k) s = execVshl gd d a b e z k s := rfl
theorem exec_vshr {s} {gd} {d} {a} {b} {e} {z} {k} : exec (.vshr gd d a b e z k) s = execVshr gd d a b e z k s := rfl
theorem exec_vsar {s} {gd} {d} {a} {b} {e} {z} {k} : exec (.vsar gd d a b e z k) s = execVsar gd d a b e z k s := rfl
theorem exec_vmin {s} {gd} {d} {a} {b} {e} {u} {z} {k} : exec (.vmin gd d a b e u z k) s = execVmin gd d a b e u z k s := rfl
theorem exec_vmax {s} {gd} {d} {a} {b} {e} {u} {z} {k} : exec (.vmax gd d a b e u z k) s = execVmax gd d a b e u z k s := rfl
theorem exec_vabs {s} {gd} {d} {a} {f} {z} {k} : exec (.vabs gd d a f z k) s = execVabs gd d a f z k s := rfl
theorem exec_vcmp {s} {gd} {d} {a} {b} {c} {z} {k} : exec (.vcmp gd d a b c z k) s = execVcmp gd d a b c z k s := rfl
theorem exec_vsel {s} {gd} {d} {a} {b} {x} {sf} : exec (.vsel gd d a b x sf) s = execVsel gd d a b x sf s := rfl
theorem exec_vfadd {s} {gd} {d} {a} {b} {r} {z} {k} : exec (.vfadd gd d a b r z k) s = execVfadd gd d a b r z k s := rfl
theorem exec_vfsub {s} {gd} {d} {a} {b} {r} {z} {k} : exec (.vfsub gd d a b r z k) s = execVfsub gd d a b r z k s := rfl
theorem exec_vfmul {s} {gd} {d} {a} {b} {r} {z} {k} : exec (.vfmul gd d a b r z k) s = execVfmul gd d a b r z k s := rfl
theorem exec_vfma {s} {gd} {d} {a} {b} {r} {z} {k} : exec (.vfma gd d a b r z k) s = execVfma gd d a b r z k s := rfl
theorem exec_vfmin {s} {gd} {d} {a} {b} {z} {k} : exec (.vfmin gd d a b z k) s = execVfmin gd d a b z k s := rfl
theorem exec_vfmax {s} {gd} {d} {a} {b} {z} {k} : exec (.vfmax gd d a b z k) s = execVfmax gd d a b z k s := rfl
theorem exec_vfcmp {s} {gd} {d} {a} {b} {c} {z} {k} : exec (.vfcmp gd d a b c z k) s = execVfcmp gd d a b c z k s := rfl
theorem exec_vrcp {s} {gd} {d} {a} {z} {k} : exec (.vrcp gd d a z k) s = execVrcp gd d a z k s := rfl
theorem exec_vrsq {s} {gd} {d} {a} {z} {k} : exec (.vrsq gd d a z k) s = execVrsq gd d a z k s := rfl
theorem exec_vexp2 {s} {gd} {d} {a} {z} {k} : exec (.vexp2 gd d a z k) s = execVexp2 gd d a z k s := rfl
theorem exec_vlog2 {s} {gd} {d} {a} {z} {k} : exec (.vlog2 gd d a z k) s = execVlog2 gd d a z k s := rfl
theorem exec_vcvt {s} {gd} {d} {a} {p} {r} {f} : exec (.vcvt gd d a p r f) s = execVcvt gd d a p r f s := rfl
theorem exec_vcvtWide {s} {gd} {d} {a} {p} {f} : exec (.vcvtWide gd d a p f) s = execVcvtWide gd d a p f s := rfl
theorem exec_vqnt {s} {gd} {d} {a} {b} {r} {h} {f} : exec (.vqnt gd d a b r h f) s = execVqnt gd d a b r h f s := rfl
theorem exec_vdqnt {s} {gd} {d} {a} {b} {r} {h} {f} : exec (.vdqnt gd d a b r h f) s = execVdqnt gd d a b r h f s := rfl
theorem exec_vbsc {s} {gd} {d} {a} {h} {f} : exec (.vbsc gd d a h f) s = execVbsc gd d a h f s := rfl
theorem exec_vperm {s} {gd} {d} {a} {b} {z} {k} : exec (.vperm gd d a b z k) s = execVperm gd d a b z k s := rfl
theorem exec_vbcast {s} {gd} {d} {a} {b} {l} {z} {k} : exec (.vbcast gd d a b l z k) s = execVbcast gd d a b l z k s := rfl
theorem exec_vslide {s} {gd} {d} {a} {r} {sf} : exec (.vslide gd d a r sf) s = execVslide gd d a r sf s := rfl
theorem exec_vred {s} {gd} {d} {a} {p} {k} : exec (.vred gd d a p k) s = execVred gd d a p k s := rfl
theorem exec_vscan {s} {gd} {d} {a} {x} {p} {k} : exec (.vscan gd d a x p k) s = execVscan gd d a x p k s := rfl
theorem exec_viota {s} {gd} {d} {a} {im} {kw} : exec (.viota gd d a im kw) s = execViota gd d a im kw s := rfl
theorem exec_vmop {s} {gd} {d} {a} {b} {f} : exec (.vmop gd d a b f) s = execVmop gd d a b f s := rfl
theorem exec_vmpopPopc {s} {gd} {d} {a} : exec (.vmpopPopc gd d a) s = execVmpopPopc gd d a s := rfl
theorem exec_vmpopFfs {s} {gd} {d} {a} : exec (.vmpopFfs gd d a) s = execVmpopFfs gd d a s := rfl
theorem exec_vmpopGet {s} {gd} {d} {a} : exec (.vmpopGet gd d a) s = execVmpopGet gd d a s := rfl
theorem exec_vmpopSet {s} {gd} {d} {a} : exec (.vmpopSet gd d a) s = execVmpopSet gd d a s := rfl
theorem exec_vrng {s} {gd} {d} {t} {z} {k} : exec (.vrng gd d t z k) s = execVrng gd d t z k s := rfl
theorem exec_vprune {s} {gd} {d} {a} {b} {z} {k} : exec (.vprune gd d a b z k) s = execVprune gd d a b z k s := rfl
theorem exec_vnm {s} {gd} {d} {a} {b} {im} {sf} : exec (.vnm gd d a b im sf) s = execVnm gd d a b im sf s := rfl
theorem exec_vmovs {s} {gd} {d} {a} {u} {l} : exec (.vmovs gd d a u l) s = execVmovs gd d a u l s := rfl
theorem exec_vins {s} {gd} {d} {a} {l} : exec (.vins gd d a l) s = execVins gd d a l s := rfl
theorem exec_ldB {s} {gd} {d} {b} {im} {kw} : exec (.ldB gd d b im kw) s = execLdB gd d b im kw s := rfl
theorem exec_ldH {s} {gd} {d} {b} {im} {kw} : exec (.ldH gd d b im kw) s = execLdH gd d b im kw s := rfl
theorem exec_ldW {s} {gd} {d} {b} {im} {kw} : exec (.ldW gd d b im kw) s = execLdW gd d b im kw s := rfl
theorem exec_ldD {s} {gd} {d} {b} {im} {kw} : exec (.ldD gd d b im kw) s = execLdD gd d b im kw s := rfl
theorem exec_lduB {s} {gd} {d} {b} {im} {kw} : exec (.lduB gd d b im kw) s = execLduB gd d b im kw s := rfl
theorem exec_lduH {s} {gd} {d} {b} {im} {kw} : exec (.lduH gd d b im kw) s = execLduH gd d b im kw s := rfl
theorem exec_lduW {s} {gd} {d} {b} {im} {kw} : exec (.lduW gd d b im kw) s = execLduW gd d b im kw s := rfl
theorem exec_stB {s} {gd} {d} {b} {im} {kw} : exec (.stB gd d b im kw) s = execStB gd d b im kw s := rfl
theorem exec_stH {s} {gd} {d} {b} {im} {kw} : exec (.stH gd d b im kw) s = execStH gd d b im kw s := rfl
theorem exec_stW {s} {gd} {d} {b} {im} {kw} : exec (.stW gd d b im kw) s = execStW gd d b im kw s := rfl
theorem exec_stD {s} {gd} {d} {b} {im} {kw} : exec (.stD gd d b im kw) s = execStD gd d b im kw s := rfl
theorem exec_ldv {s} {gd} {d} {b} {im} {kw} : exec (.ldv gd d b im kw) s = execLdv gd d b im kw s := rfl
theorem exec_stv {s} {gd} {d} {b} {im} {kw} : exec (.stv gd d b im kw) s = execStv gd d b im kw s := rfl
theorem exec_ldvs {s} {gd} {d} {a} {b} {z} {k} : exec (.ldvs gd d a b z k) s = execLdvs gd d a b z k s := rfl
theorem exec_stvs {s} {gd} {d} {a} {b} {k} : exec (.stvs gd d a b k) s = execStvs gd d a b k s := rfl
theorem exec_ldvx {s} {gd} {d} {a} {b} {z} {k} : exec (.ldvx gd d a b z k) s = execLdvx gd d a b z k s := rfl
theorem exec_stvx {s} {gd} {d} {a} {b} {k} : exec (.stvx gd d a b k) s = execStvx gd d a b k s := rfl
theorem exec_lda {s} {gd} {d} {a} {w} {sf} {o} : exec (.lda gd d a w sf o) s = execLda gd d a w sf o s := rfl
theorem exec_sta {s} {gd} {d} {a} {w} {sf} {o} : exec (.sta gd d a w sf o) s = execSta gd d a w sf o s := rfl
theorem exec_amo {s} {gd} {d} {a} {w} {sf} {p} {o} : exec (.amo gd d a w sf p o) s = execAmo gd d a w sf p o s := rfl
theorem exec_cas {s} {gd} {d} {a} {b} {w} {sf} {o} : exec (.cas gd d a b w sf o) s = execCas gd d a b w sf o s := rfl
theorem exec_vamo {s} {gd} {d} {a} {b} {sf} {o} : exec (.vamo gd d a b sf o) s = execVamo gd d a b sf o s := rfl
theorem exec_fence {s} {gd} {sf} {o} : exec (.fence gd sf o) s = execFence gd sf o s := rfl
theorem exec_tld {s} {gd} {d} {a} {b} {t} {x} {y} : exec (.tld gd d a b t x y) s = execTld gd d a b t x y s := rfl
theorem exec_tlda {s} {gd} {t} {a} {b} {p} {f} : exec (.tlda gd t a b p f) s = execTlda gd t a b p f s := rfl
theorem exec_tst {s} {gd} {t} {a} {b} {p} {r} {f} : exec (.tst gd t a b p r f) s = execTst gd t a b p r f s := rfl
theorem exec_mcall {s} {gd} {v} {q} {x} {w} {p} {r} : exec (.mcall gd v q x w p r) s = execMcall gd v q x w p r s := rfl
theorem exec_mcallEngineStart {s} {tid} : exec (.mcallEngineStart tid) s = execMcallEngineStart tid s := rfl
theorem exec_mcallRetire {s} {tid} : exec (.mcallRetire tid) s = execMcallRetire tid s := rfl
theorem exec_routineStop {s} {tid} {e} : exec (.routineStop tid e) s = execRoutineStop tid e s := rfl
theorem exec_msetp {s} {gd} {d} {a} {h} {y} : exec (.msetp gd d a h y) s = execMsetp gd d a h y s := rfl
theorem exec_mgetp {s} {gd} {d} {a} : exec (.mgetp gd d a) s = execMgetp gd d a s := rfl
theorem exec_mclaim {s} {gd} {d} {a} {t} : exec (.mclaim gd d a t) s = execMclaim gd d a t s := rfl
theorem exec_mrel {s} {gd} {a} {t} : exec (.mrel gd a t) s = execMrel gd a t s := rfl
theorem exec_mzero {s} {gd} {t} {a} {b} {p} {j} {im} : exec (.mzero gd t a b p j im) s = execMzero gd t a b p j im s := rfl
theorem exec_mnorm {s} {gd} {t} {a} {b} {p} {x} : exec (.mnorm gd t a b p x) s = execMnorm gd t a b p x s := rfl
theorem exec_mrdrow {s} {gd} {d} {t} {b} {r} {f} : exec (.mrdrow gd d t b r f) s = execMrdrow gd d t b r f s := rfl
theorem exec_mwrrow {s} {gd} {d} {t} {b} {f} : exec (.mwrrow gd d t b f) s = execMwrrow gd d t b f s := rfl
theorem exec_mcell {s} {gd} {a} {im} {kw} : exec (.mcell gd a im kw) s = execMcell gd a im kw s := rfl
theorem exec_mcellPre {s} {gd} {p} : exec (.mcellPre gd p) s = execMcellPre gd p s := rfl
theorem exec_mflow {s} {gd} {y} {p} {a} {im} {kw} : exec (.mflow gd y p a im kw) s = execMflow gd y p a im kw s := rfl
theorem exec_mrout {s} {gd} {d} {a} {im} {kw} : exec (.mrout gd d a im kw) s = execMrout gd d a im kw s := rfl
theorem exec_configCommandApply {s} {tid} : exec (.configCommandApply tid) s = execConfigCommandApply tid s := rfl
theorem exec_mtid {s} {gd} {a} {e} : exec (.mtid gd a e) s = execMtid gd a e s := rfl
theorem exec_mtidr {s} {gd} {d} {a} {k} {e} : exec (.mtidr gd d a k e) s = execMtidr gd d a k e s := rfl
theorem exec_mdup {s} {gd} {d} {a} {b} {q} {e} : exec (.mdup gd d a b q e) s = execMdup gd d a b q e s := rfl
theorem exec_tableCommandApply {s} {tid} : exec (.tableCommandApply tid) s = execTableCommandApply tid s := rfl
theorem exec_mcode {s} {gd} {a} {im} {kw} : exec (.mcode gd a im kw) s = execMcode gd a im kw s := rfl
theorem exec_mcodeFixed {s} {gd} : exec (.mcodeFixed gd) s = execMcodeFixed gd s := rfl
theorem exec_codeTableFlip {s} {core} : exec (.codeTableFlip core) s = execCodeTableFlip core s := rfl
theorem exec_mpred {s} {gd} {d} {a} {b} {f} : exec (.mpred gd d a b f) s = execMpred gd d a b f s := rfl
theorem exec_mwait {s} {gd} {c} : exec (.mwait gd c) s = execMwait gd c s := rfl
theorem exec_ysort {s} {gd} {d} {a} {b} {x} {t} : exec (.ysort gd d a b x t) s = execYsort gd d a b x t s := rfl
theorem exec_ymerge {s} {gd} {d} {a} {b} {h} {x} {t} : exec (.ymerge gd d a b h x t) s = execYmerge gd d a b h x t s := rfl
theorem exec_ytopkInit {s} {gd} {a} {x} {t} : exec (.ytopkInit gd a x t) s = execYtopkInit gd a x t s := rfl
theorem exec_ytopkAdd {s} {gd} {a} {b} {k} : exec (.ytopkAdd gd a b k) s = execYtopkAdd gd a b k s := rfl
theorem exec_ytopkOut {s} {gd} {d} {a} {b} : exec (.ytopkOut gd d a b) s = execYtopkOut gd d a b s := rfl
theorem exec_ysums {s} {gd} {d} {a} {b} {r} {y} {t} : exec (.ysums gd d a b r y t) s = execYsums gd d a b r y t s := rfl
theorem exec_yrank {s} {gd} {d} {a} {x} {t} : exec (.yrank gd d a x t) s = execYrank gd d a x t s := rfl
theorem exec_ybkt {s} {gd} {d} {a} {b} {k} {t} : exec (.ybkt gd d a b k t) s = execYbkt gd d a b k t s := rfl
theorem exec_ycmpr {s} {gd} {d} {a} {b} : exec (.ycmpr gd d a b) s = execYcmpr gd d a b s := rfl
theorem exec_yexpd {s} {gd} {d} {a} {b} {z} : exec (.yexpd gd d a b z) s = execYexpd gd d a b z s := rfl
theorem exec_yhist {s} {gd} {d} {a} {b} {w} {k} : exec (.yhist gd d a b w k) s = execYhist gd d a b w k s := rfl
theorem exec_yargx {s} {gd} {d} {a} {k} {x} {t} : exec (.yargx gd d a k x t) s = execYargx gd d a k x t s := rfl
theorem exec_cstage {s} {gd} {a} {im} {kw} : exec (.cstage gd a im kw) s = execCstage gd a im kw s := rfl
theorem exec_carrive {s} {gd} {a} {b} : exec (.carrive gd a b) s = execCarrive gd a b s := rfl
theorem exec_csched {s} {gd} {a} : exec (.csched gd a) s = execCsched gd a s := rfl
theorem exec_rpush {s} {gd} {d} {a} {b} : exec (.rpush gd d a b) s = execRpush gd d a b s := rfl
theorem exec_rpushOpen {s} {gd} {d} {a} {b} : exec (.rpushOpen gd d a b) s = execRpushOpen gd d a b s := rfl
theorem exec_rpushClose {s} {gd} {d} {a} : exec (.rpushClose gd d a) s = execRpushClose gd d a s := rfl
theorem exec_rpop {s} {gd} {d} {a} {k} : exec (.rpop gd d a k) s = execRpop gd d a k s := rfl
theorem exec_rstat {s} {gd} {d} {a} {k} : exec (.rstat gd d a k) s = execRstat gd d a k s := rfl
theorem exec_ringDeliveryLand {s} {clu} {k} : exec (.ringDeliveryLand clu k) s = execRingDeliveryLand clu k s := rfl
theorem exec_mqsend {s} {gd} {d} {a} {b} : exec (.mqsend gd d a b) s = execMqsend gd d a b s := rfl
theorem exec_mqrecv {s} {gd} {d} {a} {x} {k} : exec (.mqrecv gd d a x k) s = execMqrecv gd d a x k s := rfl
theorem exec_mqstat {s} {gd} {d} {a} : exec (.mqstat gd d a) s = execMqstat gd d a s := rfl
theorem exec_queueEntryApply {s} {core} : exec (.queueEntryApply core) s = execQueueEntryApply core s := rfl
theorem exec_queueCreditReturn {s} {core} : exec (.queueCreditReturn core) s = execQueueCreditReturn core s := rfl
theorem exec_tsubmit {s} {gd} {d} {a} : exec (.tsubmit gd d a) s = execTsubmit gd d a s := rfl
theorem exec_tsubmitRetry {s} {tid} : exec (.tsubmitRetry tid) s = execTsubmitRetry tid s := rfl
theorem exec_tsignal {s} {gd} {a} : exec (.tsignal gd a) s = execTsignal gd a s := rfl
theorem exec_launch {s} {gd} {a} {o} : exec (.launch gd a o) s = execLaunch gd a o s := rfl
theorem exec_launchNb {s} {gd} {d} {a} {o} : exec (.launchNb gd d a o) s = execLaunchNb gd d a o s := rfl
theorem exec_pendingLaunchDrain {s} {die} : exec (.pendingLaunchDrain die) s = execPendingLaunchDrain die s := rfl
theorem exec_fred {s} {gd} {d} {a} {b} : exec (.fred gd d a b) s = execFred gd d a b s := rfl
theorem exec_sladd {s} {gd} {d} {a} {b} : exec (.sladd gd d a b) s = execSladd gd d a b s := rfl
theorem exec_slsend {s} {gd} {d} : exec (.slsend gd d) s = execSlsend gd d s := rfl
theorem exec_slrecv {s} {gd} {d} {a} : exec (.slrecv gd d a) s = execSlrecv gd d a s := rfl
theorem exec_bbmark {s} {gd} {d} {a} {im} {kw} : exec (.bbmark gd d a im kw) s = execBbmark gd d a im kw s := rfl
theorem exec_pwrq {s} {gd} {d} {im} : exec (.pwrq gd d im) s = execPwrq gd d im s := rfl
theorem exec_pwrres {s} {gd} {d} {a} : exec (.pwrres gd d a) s = execPwrres gd d a s := rfl
theorem exec_pwrresRel {s} {gd} {d} : exec (.pwrresRel gd d) s = execPwrresRel gd d s := rfl
theorem exec_tlbi {s} {gd} {d} {a} {b} : exec (.tlbi gd d a b) s = execTlbi gd d a b s := rfl
theorem exec_tlbiComplete {s} {k} : exec (.tlbiComplete k) s = execTlbiComplete k s := rfl
theorem exec_selft {s} {gd} {d} {a} {w} : exec (.selft gd d a w) s = execSelft gd d a w s := rfl
theorem exec_emptyBundle {s} {stall} : exec (.emptyBundle stall) s = execEmptyBundle stall s := rfl
theorem exec_lineSkip {s} : exec (.lineSkip) s = execLineSkip s := rfl
theorem exec_lineFill {s} {tid} : exec (.lineFill tid) s = execLineFill tid s := rfl
theorem exec_asyncTrap {s} {tid} : exec (.asyncTrap tid) s = execAsyncTrap tid s := rfl
theorem exec_yieldExpiry {s} {tid} : exec (.yieldExpiry tid) s = execYieldExpiry tid s := rfl
theorem exec_threadFree {s} {tid} : exec (.threadFree tid) s = execThreadFree tid s := rfl
theorem exec_taskPlacement {s} {die} : exec (.taskPlacement die) s = execTaskPlacement die s := rfl
theorem exec_priorityAgeing {s} {die} {k} : exec (.priorityAgeing die k) s = execPriorityAgeing die k s := rfl
theorem exec_reservationTaken {s} {die} : exec (.reservationTaken die) s = execReservationTaken die s := rfl
theorem exec_readyQueueEntry {s} {die} : exec (.readyQueueEntry die) s = execReadyQueueEntry die s := rfl
theorem exec_stopLands {s} {tid} : exec (.stopLands tid) s = execStopLands tid s := rfl
theorem exec_stopRequestTimeout {s} {tid} : exec (.stopRequestTimeout tid) s = execStopRequestTimeout tid s := rfl
theorem exec_killRequeue {s} {die} {k} : exec (.killRequeue die k) s = execKillRequeue die k s := rfl
theorem exec_checkpointWrite {s} {die} {k} : exec (.checkpointWrite die k) s = execCheckpointWrite die k s := rfl
theorem exec_copyChunk {s} {die} {k} : exec (.copyChunk die k) s = execCopyChunk die k s := rfl
theorem exec_copyEntryComplete {s} {die} {k} : exec (.copyEntryComplete die k) s = execCopyEntryComplete die k s := rfl
theorem exec_copyEntryStop {s} {die} {k} : exec (.copyEntryStop die k) s = execCopyEntryStop die k s := rfl
theorem exec_translationWalk {s} {die} : exec (.translationWalk die) s = execTranslationWalk die s := rfl
theorem exec_packageReset {s} {boot} : exec (.packageReset boot) s = execPackageReset boot s := rfl
theorem exec_attestationQuote {s} {nonce} : exec (.attestationQuote nonce) s = execAttestationQuote nonce s := rfl
theorem exec_keySlotWrite {s} {slot} {dom} : exec (.keySlotWrite slot dom) s = execKeySlotWrite slot dom s := rfl
theorem exec_packetIngress {s} {p} : exec (.packetIngress p) s = execPacketIngress p s := rfl
theorem exec_hubRegisterWrite {s} {w} : exec (.hubRegisterWrite w) s = execHubRegisterWrite w s := rfl
theorem exec_grantWrite {s} {g} : exec (.grantWrite g) s = execGrantWrite g s := rfl
theorem exec_energySample {s} {nJ} : exec (.energySample nJ) s = execEnergySample nJ s := rfl
theorem exec_energyInterval {s} : exec (.energyInterval) s = execEnergyInterval s := rfl
theorem exec_selfTestVerdict {s} {unit} {lasting} : exec (.selfTestVerdict unit lasting) s = execSelfTestVerdict unit lasting s := rfl
theorem exec_blackBoxClear {s} {die} {thaw} {clear} : exec (.blackBoxClear die thaw clear) s = execBlackBoxClear die thaw clear s := rfl
theorem exec_fatalHardwareEvent {s} {die} {ev} {data0} {data1} : exec (.fatalHardwareEvent die ev data0 data1) s = execFatalHardwareEvent die ev data0 data1 s := rfl
theorem exec_flitCrcFail {s} {port} {lane} : exec (.flitCrcFail port lane) s = execFlitCrcFail port lane s := rfl
theorem exec_laneOutOfService {s} {port} {lane} : exec (.laneOutOfService port lane) s = execLaneOutOfService port lane s := rfl
theorem exec_linkDown {s} {port} : exec (.linkDown port) s = execLinkDown port s := rfl
theorem exec_packetRoute {s} {port} {p} : exec (.packetRoute port p) s = execPacketRoute port p s := rfl
theorem exec_escapeMove {s} {k} : exec (.escapeMove k) s = execEscapeMove k s := rfl
theorem exec_fabricPacketSend {s} {k} : exec (.fabricPacketSend k) s = execFabricPacketSend k s := rfl
theorem exec_creditRequest {s} {src} : exec (.creditRequest src) s = execCreditRequest src s := rfl
theorem exec_creditGrant {s} {src} {n} : exec (.creditGrant src n) s = execCreditGrant src n s := rfl
theorem exec_creditExpiry {s} {dst} : exec (.creditExpiry dst) s = execCreditExpiry dst s := rfl
theorem exec_ackReceive {s} {src} {seq} : exec (.ackReceive src seq) s = execAckReceive src seq s := rfl
theorem exec_writePlace {s} {k} : exec (.writePlace k) s = execWritePlace k s := rfl
theorem exec_fredApply {s} {k} : exec (.fredApply k) s = execFredApply k s := rfl
theorem exec_tokenPlace {s} {k} : exec (.tokenPlace k) s = execTokenPlace k s := rfl
theorem exec_flushComplete {s} : exec (.flushComplete) s = execFlushComplete s := rfl
theorem exec_coordinatorGo {s} : exec (.coordinatorGo) s = execCoordinatorGo s := rfl
theorem exec_harvestApply {s} : exec (.harvestApply) s = execHarvestApply s := rfl
theorem exec_boundaryComplete {s} : exec (.boundaryComplete) s = execBoundaryComplete s := rfl
theorem exec_stepSkew {s} : exec (.stepSkew) s = execStepSkew s := rfl
theorem exec_declareFailed {s} {dev} : exec (.declareFailed dev) s = execDeclareFailed dev s := rfl
theorem exec_failedNotice {s} {dev} : exec (.failedNotice dev) s = execFailedNotice dev s := rfl
theorem exec_fixedLatencyWriteLands {s} {tid} : exec (.fixedLatencyWriteLands tid) s = execFixedLatencyWriteLands tid s := rfl
theorem exec_accessPerformsAtHome {s} {tid} : exec (.accessPerformsAtHome tid) s = execAccessPerformsAtHome tid s := rfl
theorem exec_matrixCommandEngineApply {s} {tid} : exec (.matrixCommandEngineApply tid) s = execMatrixCommandEngineApply tid s := rfl
theorem exec_dieEngineCommandApply {s} {die} : exec (.dieEngineCommandApply die) s = execDieEngineCommandApply die s := rfl
theorem exec_thermalWarning {s} {die} {data0} : exec (.thermalWarning die data0) s = execThermalWarning die data0 s := rfl
theorem exec_systemCoreLineWriteback {s} {line} {data} : exec (.systemCoreLineWriteback line data) s = execSystemCoreLineWriteback line data s := rfl
theorem exec_decodeCheckTrap {s} {cause} {engine} {estat} : exec (.decodeCheckTrap cause engine estat) s = execDecodeCheckTrap cause engine estat s := rfl

end Sys2Proof.Machine
end

