-- ==== Sys2Proof/Laws/Table.lean ====
section
/-! SUPPORT. Laws of the finite maps: a read after a write, and the canonical form. -/

namespace Sys2Proof

@[simp] theorem tget_nil {α : Type} (d : α) (k : Nat) : tget d [] k = d := rfl

@[simp] theorem tget_tset_same {α : Type} (d : α) (t : Table α) (k : Nat) (v : α) : tget d (tset t k v) k = v := by
  induction t with
  | nil => simp [tset, tget]
  | cons e t ih =>
    obtain ⟨j, w⟩ := e
    by_cases h : j = k
    · simp [tset, tget, h]
    · by_cases g : k < j <;> simp [tset, tget, h, g, ih]

theorem tget_tset_other {α : Type} (d : α) (t : Table α) {j k : Nat} (v : α) (h : j ≠ k) : tget d (tset t k v) j = tget d t j := by
  induction t with
  | nil => simp [tset, tget, Ne.symm h]
  | cons e t ih =>
    obtain ⟨i, w⟩ := e
    by_cases g : i = k
    · subst g
      simp [tset, tget, Ne.symm h]
    · by_cases l : k < i
      · simp [tset, tget, g, l, Ne.symm h]
      · simp [tset, tget, g, l, ih]

/-- A key below every key of a canonical table reads as the default. -/
theorem tget_below {α : Type} [DecidableEq α] (d : α) {t : Table α} {lo k : Nat} (h : tcanon d lo t = true) (l : k < lo) : tget d t k = d := by
  induction t generalizing lo with
  | nil => rfl
  | cons e t ih =>
    obtain ⟨j, w⟩ := e
    simp only [tcanon, Bool.and_eq_true, decide_eq_true_eq] at h
    have hj : j ≠ k := by omega
    simp only [tget, hj, if_false]
    exact ih h.2 (by omega)

/-- The canonical form from a bound holds from every lower one. -/
theorem tcanon_mono {α : Type} [DecidableEq α] (d : α) {t : Table α} {lo lo' : Nat} (h : tcanon d lo t = true) (l : lo' ≤ lo) :
    tcanon d lo' t = true := by
  cases t with
  | nil => rfl
  | cons e t =>
    obtain ⟨j, w⟩ := e
    simp only [tcanon, Bool.and_eq_true, decide_eq_true_eq] at h ⊢
    exact ⟨⟨by omega, h.1.2⟩, h.2⟩

/-- A write keeps the canonical form. -/
theorem tcanon_tput {α : Type} [DecidableEq α] (d : α) {t : Table α} {lo k : Nat} (v : α) (h : tcanon d lo t = true) (l : lo ≤ k) :
    tcanon d lo (tput d t k v) = true := by
  induction t generalizing lo with
  | nil =>
    by_cases hv : v = d
    · simp [tput, hv, tcanon]
    · simp [tput, hv, tcanon, l]
  | cons e t ih =>
    obtain ⟨j, w⟩ := e
    have h' := h
    simp only [tcanon, Bool.and_eq_true, decide_eq_true_eq] at h
    obtain ⟨⟨hj, hw⟩, ht⟩ := h
    simp only [tput]
    by_cases g : j = k
    · subst g
      by_cases hv : v = d
      · simp only [hv, if_true]
        exact tcanon_mono d ht (by omega)
      · simp [hv, tcanon, hj, ht]
    · by_cases m : k < j
      · by_cases hv : v = d
        · simp only [g, m, hv, if_false, if_true]
          exact h'
        · simp only [g, m, hv, if_false, if_true, tcanon, Bool.and_eq_true, decide_eq_true_eq]
          exact ⟨⟨l, by simpa using hv⟩, ⟨by omega, hw⟩, ht⟩
      · simp only [g, m, if_false, tcanon, Bool.and_eq_true, decide_eq_true_eq]
        exact ⟨⟨hj, hw⟩, ih ht (by omega)⟩

/-- A read after a write to the same key gives the value. -/
theorem tget_tput_same {α : Type} [DecidableEq α] (d : α) {t : Table α} {lo k : Nat} (v : α) (h : tcanon d lo t = true) :
    tget d (tput d t k v) k = v := by
  induction t generalizing lo with
  | nil => by_cases hv : v = d <;> simp [tput, tget, hv]
  | cons e t ih =>
    obtain ⟨j, w⟩ := e
    simp only [tcanon, Bool.and_eq_true, decide_eq_true_eq] at h
    simp only [tput]
    by_cases g : j = k
    · subst g
      by_cases hv : v = d
      · simp only [hv, if_true]
        exact tget_below d h.2 (by omega)
      · simp [hv, tget]
    · by_cases m : k < j
      · by_cases hv : v = d
        · simp only [g, m, hv, if_false, if_true, tget]
          exact tget_below d h.2 (by omega)
        · simp [g, m, hv, tget]
      · simp only [g, m, if_false, tget]
        exact ih h.2

/-- A read of another key is as before the write. -/
theorem tget_tput_other {α : Type} [DecidableEq α] (d : α) (t : Table α) {j k : Nat} (v : α) (h : j ≠ k) :
    tget d (tput d t k v) j = tget d t j := by
  induction t with
  | nil => by_cases hv : v = d <;> simp [tput, tget, hv, Ne.symm h]
  | cons e t ih =>
    obtain ⟨i, w⟩ := e
    simp only [tput]
    by_cases g : i = k
    · subst g
      by_cases hv : v = d <;> simp [hv, tget, Ne.symm h]
    · by_cases l : k < i
      · by_cases hv : v = d <;> simp [g, l, hv, tget, Ne.symm h]
      · simp [g, l, tget, ih]

end Sys2Proof
end

