-- ==== Sys2Proof/Laws/Memory.lean ====
section
/-! SUPPORT. Laws of the memory operations: a read after a write, the bytes a write leaves alone, and the canonical form. -/

namespace Sys2Proof.Machine

open Sys2Proof

theorem wf_iff (m : List Host.Cell) : Memory.wf m = tcanon unlisted 0 m := rfl

/-- Memory after reset is in canonical form. -/
theorem reset_memory_wf : Memory.wf State.reset.mem = true := rfl

/-- Writing a byte keeps the canonical form. -/
theorem wf_putByte {s : State} (h : Memory.wf s.mem = true) (k : Nat) (b : Byte) : Memory.wf (s.putByte k b).mem = true :=
  tcanon_tput unlisted b h (Nat.zero_le k)

/-- Writing bytes keeps the canonical form. -/
theorem wf_putBytes {s : State} (h : Memory.wf s.mem = true) (k : Nat) (bs : List Byte) : Memory.wf (s.putBytes k bs).mem = true := by
  induction bs generalizing s k with
  | nil => exact h
  | cons b bs ih => exact ih (wf_putByte h k b) (k + 1)

/-- Storing a number keeps the canonical form. -/
theorem wf_write {s : State} (h : Memory.wf s.mem = true) (k n v : Nat) : Memory.wf (s.write k n v).mem = true := wf_putBytes h k _

/-- A byte reads as it was written. -/
theorem byteAt_putByte_same {s : State} (h : Memory.wf s.mem = true) (k : Nat) (b : Byte) : (s.putByte k b).byteAt k = b :=
  tget_tput_same unlisted b h

/-- A write of a byte leaves every other byte alone. -/
theorem byteAt_putByte_other (s : State) {j k : Nat} (b : Byte) (h : j ≠ k) : (s.putByte k b).byteAt j = s.byteAt j :=
  tget_tput_other unlisted s.mem b h

/-- A write of bytes leaves every byte outside them alone. -/
theorem byteAt_putBytes_outside (s : State) (k : Nat) (bs : List Byte) {j : Nat} (h : j < k ∨ k + bs.length ≤ j) :
    (s.putBytes k bs).byteAt j = s.byteAt j := by
  induction bs generalizing s k with
  | nil => rfl
  | cons b bs ih =>
    have h1 : j < k + 1 ∨ k + 1 + bs.length ≤ j := by simp only [List.length_cons] at h; omega
    have h2 : j ≠ k := by simp only [List.length_cons] at h; omega
    exact (ih (s.putByte k b) (k + 1) h1).trans (byteAt_putByte_other s b h2)

/-- The bytes written are read back. -/
theorem bytesAt_putBytes_same {s : State} (h : Memory.wf s.mem = true) (k : Nat) (bs : List Byte) : (s.putBytes k bs).bytesAt k bs.length = bs := by
  induction bs generalizing s k with
  | nil => rfl
  | cons b bs ih =>
    have h1 : ((s.putByte k b).putBytes (k + 1) bs).byteAt k = b :=
      (byteAt_putBytes_outside _ (k + 1) bs (Or.inl (Nat.lt_succ_self k))).trans (byteAt_putByte_same h k b)
    show ((s.putByte k b).putBytes (k + 1) bs).byteAt k :: _ = b :: bs
    rw [h1]
    exact congrArg (b :: ·) (ih (wf_putByte h k b) (k + 1))

end Sys2Proof.Machine
end

