-- ==== Sys2Proof/Laws/State.lean ====
section
/-! SUPPORT. The laws of the updates of State: for each update, what each field is after it, so that no proof unfolds a record update. -/

namespace Sys2Proof.Machine

open Sys2Proof

@[simp] theorem State.setThread_cycle (s : State) (t : Nat) (x : Thread) : (s.setThread t x).cycle = s.cycle := rfl
@[simp] theorem State.setThread_cur (s : State) (t : Nat) (x : Thread) : (s.setThread t x).cur = s.cur := rfl
@[simp] theorem State.setThread_agenda (s : State) (t : Nat) (x : Thread) : (s.setThread t x).agenda = s.agenda := rfl
@[simp] theorem State.setThread_free (s : State) (t : Nat) (x : Thread) : (s.setThread t x).free = s.free := rfl
@[simp] theorem State.setThread_mem (s : State) (t : Nat) (x : Thread) : (s.setThread t x).mem = s.mem := rfl
@[simp] theorem State.setThread_keyOf (s : State) (t : Nat) (x : Thread) : (s.setThread t x).keyOf = s.keyOf := rfl
@[simp] theorem State.setThread_ecc (s : State) (t : Nat) (x : Thread) : (s.setThread t x).ecc = s.ecc := rfl
@[simp] theorem State.setThread_tags (s : State) (t : Nat) (x : Thread) : (s.setThread t x).tags = s.tags := rfl
@[simp] theorem State.setThread_atoms (s : State) (t : Nat) (x : Thread) : (s.setThread t x).atoms = s.atoms := rfl
@[simp] theorem State.setThread_cores (s : State) (t : Nat) (x : Thread) : (s.setThread t x).cores = s.cores := rfl
@[simp] theorem State.setThread_clusters (s : State) (t : Nat) (x : Thread) : (s.setThread t x).clusters = s.clusters := rfl
@[simp] theorem State.setThread_dies (s : State) (t : Nat) (x : Thread) : (s.setThread t x).dies = s.dies := rfl
@[simp] theorem State.setThread_hub (s : State) (t : Nat) (x : Thread) : (s.setThread t x).hub = s.hub := rfl

@[simp] theorem State.updThread_cycle (s : State) (t : Nat) (f : Thread → Thread) : (s.updThread t f).cycle = s.cycle := rfl
@[simp] theorem State.updThread_cur (s : State) (t : Nat) (f : Thread → Thread) : (s.updThread t f).cur = s.cur := rfl
@[simp] theorem State.updThread_agenda (s : State) (t : Nat) (f : Thread → Thread) : (s.updThread t f).agenda = s.agenda := rfl
@[simp] theorem State.updThread_free (s : State) (t : Nat) (f : Thread → Thread) : (s.updThread t f).free = s.free := rfl
@[simp] theorem State.updThread_mem (s : State) (t : Nat) (f : Thread → Thread) : (s.updThread t f).mem = s.mem := rfl
@[simp] theorem State.updThread_keyOf (s : State) (t : Nat) (f : Thread → Thread) : (s.updThread t f).keyOf = s.keyOf := rfl
@[simp] theorem State.updThread_ecc (s : State) (t : Nat) (f : Thread → Thread) : (s.updThread t f).ecc = s.ecc := rfl
@[simp] theorem State.updThread_tags (s : State) (t : Nat) (f : Thread → Thread) : (s.updThread t f).tags = s.tags := rfl
@[simp] theorem State.updThread_atoms (s : State) (t : Nat) (f : Thread → Thread) : (s.updThread t f).atoms = s.atoms := rfl
@[simp] theorem State.updThread_cores (s : State) (t : Nat) (f : Thread → Thread) : (s.updThread t f).cores = s.cores := rfl
@[simp] theorem State.updThread_clusters (s : State) (t : Nat) (f : Thread → Thread) : (s.updThread t f).clusters = s.clusters := rfl
@[simp] theorem State.updThread_dies (s : State) (t : Nat) (f : Thread → Thread) : (s.updThread t f).dies = s.dies := rfl
@[simp] theorem State.updThread_hub (s : State) (t : Nat) (f : Thread → Thread) : (s.updThread t f).hub = s.hub := rfl

@[simp] theorem State.updMe_cycle (s : State) (f : Thread → Thread) : (s.updMe f).cycle = s.cycle := rfl
@[simp] theorem State.updMe_cur (s : State) (f : Thread → Thread) : (s.updMe f).cur = s.cur := rfl
@[simp] theorem State.updMe_agenda (s : State) (f : Thread → Thread) : (s.updMe f).agenda = s.agenda := rfl
@[simp] theorem State.updMe_free (s : State) (f : Thread → Thread) : (s.updMe f).free = s.free := rfl
@[simp] theorem State.updMe_mem (s : State) (f : Thread → Thread) : (s.updMe f).mem = s.mem := rfl
@[simp] theorem State.updMe_keyOf (s : State) (f : Thread → Thread) : (s.updMe f).keyOf = s.keyOf := rfl
@[simp] theorem State.updMe_ecc (s : State) (f : Thread → Thread) : (s.updMe f).ecc = s.ecc := rfl
@[simp] theorem State.updMe_tags (s : State) (f : Thread → Thread) : (s.updMe f).tags = s.tags := rfl
@[simp] theorem State.updMe_atoms (s : State) (f : Thread → Thread) : (s.updMe f).atoms = s.atoms := rfl
@[simp] theorem State.updMe_cores (s : State) (f : Thread → Thread) : (s.updMe f).cores = s.cores := rfl
@[simp] theorem State.updMe_clusters (s : State) (f : Thread → Thread) : (s.updMe f).clusters = s.clusters := rfl
@[simp] theorem State.updMe_dies (s : State) (f : Thread → Thread) : (s.updMe f).dies = s.dies := rfl
@[simp] theorem State.updMe_hub (s : State) (f : Thread → Thread) : (s.updMe f).hub = s.hub := rfl

@[simp] theorem State.setCore_cycle (s : State) (c : Nat) (x : Core) : (s.setCore c x).cycle = s.cycle := rfl
@[simp] theorem State.setCore_cur (s : State) (c : Nat) (x : Core) : (s.setCore c x).cur = s.cur := rfl
@[simp] theorem State.setCore_agenda (s : State) (c : Nat) (x : Core) : (s.setCore c x).agenda = s.agenda := rfl
@[simp] theorem State.setCore_free (s : State) (c : Nat) (x : Core) : (s.setCore c x).free = s.free := rfl
@[simp] theorem State.setCore_mem (s : State) (c : Nat) (x : Core) : (s.setCore c x).mem = s.mem := rfl
@[simp] theorem State.setCore_keyOf (s : State) (c : Nat) (x : Core) : (s.setCore c x).keyOf = s.keyOf := rfl
@[simp] theorem State.setCore_ecc (s : State) (c : Nat) (x : Core) : (s.setCore c x).ecc = s.ecc := rfl
@[simp] theorem State.setCore_tags (s : State) (c : Nat) (x : Core) : (s.setCore c x).tags = s.tags := rfl
@[simp] theorem State.setCore_atoms (s : State) (c : Nat) (x : Core) : (s.setCore c x).atoms = s.atoms := rfl
@[simp] theorem State.setCore_threads (s : State) (c : Nat) (x : Core) : (s.setCore c x).threads = s.threads := rfl
@[simp] theorem State.setCore_clusters (s : State) (c : Nat) (x : Core) : (s.setCore c x).clusters = s.clusters := rfl
@[simp] theorem State.setCore_dies (s : State) (c : Nat) (x : Core) : (s.setCore c x).dies = s.dies := rfl
@[simp] theorem State.setCore_hub (s : State) (c : Nat) (x : Core) : (s.setCore c x).hub = s.hub := rfl

@[simp] theorem State.updCore_cycle (s : State) (c : Nat) (f : Core → Core) : (s.updCore c f).cycle = s.cycle := rfl
@[simp] theorem State.updCore_cur (s : State) (c : Nat) (f : Core → Core) : (s.updCore c f).cur = s.cur := rfl
@[simp] theorem State.updCore_agenda (s : State) (c : Nat) (f : Core → Core) : (s.updCore c f).agenda = s.agenda := rfl
@[simp] theorem State.updCore_free (s : State) (c : Nat) (f : Core → Core) : (s.updCore c f).free = s.free := rfl
@[simp] theorem State.updCore_mem (s : State) (c : Nat) (f : Core → Core) : (s.updCore c f).mem = s.mem := rfl
@[simp] theorem State.updCore_keyOf (s : State) (c : Nat) (f : Core → Core) : (s.updCore c f).keyOf = s.keyOf := rfl
@[simp] theorem State.updCore_ecc (s : State) (c : Nat) (f : Core → Core) : (s.updCore c f).ecc = s.ecc := rfl
@[simp] theorem State.updCore_tags (s : State) (c : Nat) (f : Core → Core) : (s.updCore c f).tags = s.tags := rfl
@[simp] theorem State.updCore_atoms (s : State) (c : Nat) (f : Core → Core) : (s.updCore c f).atoms = s.atoms := rfl
@[simp] theorem State.updCore_threads (s : State) (c : Nat) (f : Core → Core) : (s.updCore c f).threads = s.threads := rfl
@[simp] theorem State.updCore_clusters (s : State) (c : Nat) (f : Core → Core) : (s.updCore c f).clusters = s.clusters := rfl
@[simp] theorem State.updCore_dies (s : State) (c : Nat) (f : Core → Core) : (s.updCore c f).dies = s.dies := rfl
@[simp] theorem State.updCore_hub (s : State) (c : Nat) (f : Core → Core) : (s.updCore c f).hub = s.hub := rfl

@[simp] theorem State.updArr_cycle (s : State) (c : Nat) (f : Array → Array) : (s.updArr c f).cycle = s.cycle := rfl
@[simp] theorem State.updArr_cur (s : State) (c : Nat) (f : Array → Array) : (s.updArr c f).cur = s.cur := rfl
@[simp] theorem State.updArr_agenda (s : State) (c : Nat) (f : Array → Array) : (s.updArr c f).agenda = s.agenda := rfl
@[simp] theorem State.updArr_free (s : State) (c : Nat) (f : Array → Array) : (s.updArr c f).free = s.free := rfl
@[simp] theorem State.updArr_mem (s : State) (c : Nat) (f : Array → Array) : (s.updArr c f).mem = s.mem := rfl
@[simp] theorem State.updArr_keyOf (s : State) (c : Nat) (f : Array → Array) : (s.updArr c f).keyOf = s.keyOf := rfl
@[simp] theorem State.updArr_ecc (s : State) (c : Nat) (f : Array → Array) : (s.updArr c f).ecc = s.ecc := rfl
@[simp] theorem State.updArr_tags (s : State) (c : Nat) (f : Array → Array) : (s.updArr c f).tags = s.tags := rfl
@[simp] theorem State.updArr_atoms (s : State) (c : Nat) (f : Array → Array) : (s.updArr c f).atoms = s.atoms := rfl
@[simp] theorem State.updArr_threads (s : State) (c : Nat) (f : Array → Array) : (s.updArr c f).threads = s.threads := rfl
@[simp] theorem State.updArr_clusters (s : State) (c : Nat) (f : Array → Array) : (s.updArr c f).clusters = s.clusters := rfl
@[simp] theorem State.updArr_dies (s : State) (c : Nat) (f : Array → Array) : (s.updArr c f).dies = s.dies := rfl
@[simp] theorem State.updArr_hub (s : State) (c : Nat) (f : Array → Array) : (s.updArr c f).hub = s.hub := rfl

@[simp] theorem State.updCluster_cycle (s : State) (c : Nat) (f : Cluster → Cluster) : (s.updCluster c f).cycle = s.cycle := rfl
@[simp] theorem State.updCluster_cur (s : State) (c : Nat) (f : Cluster → Cluster) : (s.updCluster c f).cur = s.cur := rfl
@[simp] theorem State.updCluster_agenda (s : State) (c : Nat) (f : Cluster → Cluster) : (s.updCluster c f).agenda = s.agenda := rfl
@[simp] theorem State.updCluster_free (s : State) (c : Nat) (f : Cluster → Cluster) : (s.updCluster c f).free = s.free := rfl
@[simp] theorem State.updCluster_mem (s : State) (c : Nat) (f : Cluster → Cluster) : (s.updCluster c f).mem = s.mem := rfl
@[simp] theorem State.updCluster_keyOf (s : State) (c : Nat) (f : Cluster → Cluster) : (s.updCluster c f).keyOf = s.keyOf := rfl
@[simp] theorem State.updCluster_ecc (s : State) (c : Nat) (f : Cluster → Cluster) : (s.updCluster c f).ecc = s.ecc := rfl
@[simp] theorem State.updCluster_tags (s : State) (c : Nat) (f : Cluster → Cluster) : (s.updCluster c f).tags = s.tags := rfl
@[simp] theorem State.updCluster_atoms (s : State) (c : Nat) (f : Cluster → Cluster) : (s.updCluster c f).atoms = s.atoms := rfl
@[simp] theorem State.updCluster_threads (s : State) (c : Nat) (f : Cluster → Cluster) : (s.updCluster c f).threads = s.threads := rfl
@[simp] theorem State.updCluster_cores (s : State) (c : Nat) (f : Cluster → Cluster) : (s.updCluster c f).cores = s.cores := rfl
@[simp] theorem State.updCluster_dies (s : State) (c : Nat) (f : Cluster → Cluster) : (s.updCluster c f).dies = s.dies := rfl
@[simp] theorem State.updCluster_hub (s : State) (c : Nat) (f : Cluster → Cluster) : (s.updCluster c f).hub = s.hub := rfl

@[simp] theorem State.updDie_cycle (s : State) (d : Nat) (f : Die → Die) : (s.updDie d f).cycle = s.cycle := rfl
@[simp] theorem State.updDie_cur (s : State) (d : Nat) (f : Die → Die) : (s.updDie d f).cur = s.cur := rfl
@[simp] theorem State.updDie_agenda (s : State) (d : Nat) (f : Die → Die) : (s.updDie d f).agenda = s.agenda := rfl
@[simp] theorem State.updDie_free (s : State) (d : Nat) (f : Die → Die) : (s.updDie d f).free = s.free := rfl
@[simp] theorem State.updDie_mem (s : State) (d : Nat) (f : Die → Die) : (s.updDie d f).mem = s.mem := rfl
@[simp] theorem State.updDie_keyOf (s : State) (d : Nat) (f : Die → Die) : (s.updDie d f).keyOf = s.keyOf := rfl
@[simp] theorem State.updDie_ecc (s : State) (d : Nat) (f : Die → Die) : (s.updDie d f).ecc = s.ecc := rfl
@[simp] theorem State.updDie_tags (s : State) (d : Nat) (f : Die → Die) : (s.updDie d f).tags = s.tags := rfl
@[simp] theorem State.updDie_atoms (s : State) (d : Nat) (f : Die → Die) : (s.updDie d f).atoms = s.atoms := rfl
@[simp] theorem State.updDie_threads (s : State) (d : Nat) (f : Die → Die) : (s.updDie d f).threads = s.threads := rfl
@[simp] theorem State.updDie_cores (s : State) (d : Nat) (f : Die → Die) : (s.updDie d f).cores = s.cores := rfl
@[simp] theorem State.updDie_clusters (s : State) (d : Nat) (f : Die → Die) : (s.updDie d f).clusters = s.clusters := rfl
@[simp] theorem State.updDie_hub (s : State) (d : Nat) (f : Die → Die) : (s.updDie d f).hub = s.hub := rfl

@[simp] theorem State.updHub_cycle (s : State) (f : Hub → Hub) : (s.updHub f).cycle = s.cycle := rfl
@[simp] theorem State.updHub_cur (s : State) (f : Hub → Hub) : (s.updHub f).cur = s.cur := rfl
@[simp] theorem State.updHub_agenda (s : State) (f : Hub → Hub) : (s.updHub f).agenda = s.agenda := rfl
@[simp] theorem State.updHub_free (s : State) (f : Hub → Hub) : (s.updHub f).free = s.free := rfl
@[simp] theorem State.updHub_mem (s : State) (f : Hub → Hub) : (s.updHub f).mem = s.mem := rfl
@[simp] theorem State.updHub_keyOf (s : State) (f : Hub → Hub) : (s.updHub f).keyOf = s.keyOf := rfl
@[simp] theorem State.updHub_ecc (s : State) (f : Hub → Hub) : (s.updHub f).ecc = s.ecc := rfl
@[simp] theorem State.updHub_tags (s : State) (f : Hub → Hub) : (s.updHub f).tags = s.tags := rfl
@[simp] theorem State.updHub_atoms (s : State) (f : Hub → Hub) : (s.updHub f).atoms = s.atoms := rfl
@[simp] theorem State.updHub_threads (s : State) (f : Hub → Hub) : (s.updHub f).threads = s.threads := rfl
@[simp] theorem State.updHub_cores (s : State) (f : Hub → Hub) : (s.updHub f).cores = s.cores := rfl
@[simp] theorem State.updHub_clusters (s : State) (f : Hub → Hub) : (s.updHub f).clusters = s.clusters := rfl
@[simp] theorem State.updHub_dies (s : State) (f : Hub → Hub) : (s.updHub f).dies = s.dies := rfl

@[simp] theorem State.putByte_cycle (s : State) (k : Nat) (b : Byte) : (s.putByte k b).cycle = s.cycle := rfl
@[simp] theorem State.putByte_cur (s : State) (k : Nat) (b : Byte) : (s.putByte k b).cur = s.cur := rfl
@[simp] theorem State.putByte_agenda (s : State) (k : Nat) (b : Byte) : (s.putByte k b).agenda = s.agenda := rfl
@[simp] theorem State.putByte_free (s : State) (k : Nat) (b : Byte) : (s.putByte k b).free = s.free := rfl
@[simp] theorem State.putByte_keyOf (s : State) (k : Nat) (b : Byte) : (s.putByte k b).keyOf = s.keyOf := rfl
@[simp] theorem State.putByte_ecc (s : State) (k : Nat) (b : Byte) : (s.putByte k b).ecc = s.ecc := rfl
@[simp] theorem State.putByte_tags (s : State) (k : Nat) (b : Byte) : (s.putByte k b).tags = s.tags := rfl
@[simp] theorem State.putByte_atoms (s : State) (k : Nat) (b : Byte) : (s.putByte k b).atoms = s.atoms := rfl
@[simp] theorem State.putByte_threads (s : State) (k : Nat) (b : Byte) : (s.putByte k b).threads = s.threads := rfl
@[simp] theorem State.putByte_cores (s : State) (k : Nat) (b : Byte) : (s.putByte k b).cores = s.cores := rfl
@[simp] theorem State.putByte_clusters (s : State) (k : Nat) (b : Byte) : (s.putByte k b).clusters = s.clusters := rfl
@[simp] theorem State.putByte_dies (s : State) (k : Nat) (b : Byte) : (s.putByte k b).dies = s.dies := rfl
@[simp] theorem State.putByte_hub (s : State) (k : Nat) (b : Byte) : (s.putByte k b).hub = s.hub := rfl

@[simp] theorem State.outcome_cycle (s : State) (o : Issued) : (s.outcome o).cycle = s.cycle := rfl
@[simp] theorem State.outcome_agenda (s : State) (o : Issued) : (s.outcome o).agenda = s.agenda := rfl
@[simp] theorem State.outcome_free (s : State) (o : Issued) : (s.outcome o).free = s.free := rfl
@[simp] theorem State.outcome_mem (s : State) (o : Issued) : (s.outcome o).mem = s.mem := rfl
@[simp] theorem State.outcome_keyOf (s : State) (o : Issued) : (s.outcome o).keyOf = s.keyOf := rfl
@[simp] theorem State.outcome_ecc (s : State) (o : Issued) : (s.outcome o).ecc = s.ecc := rfl
@[simp] theorem State.outcome_tags (s : State) (o : Issued) : (s.outcome o).tags = s.tags := rfl
@[simp] theorem State.outcome_atoms (s : State) (o : Issued) : (s.outcome o).atoms = s.atoms := rfl
@[simp] theorem State.outcome_threads (s : State) (o : Issued) : (s.outcome o).threads = s.threads := rfl
@[simp] theorem State.outcome_cores (s : State) (o : Issued) : (s.outcome o).cores = s.cores := rfl
@[simp] theorem State.outcome_clusters (s : State) (o : Issued) : (s.outcome o).clusters = s.clusters := rfl
@[simp] theorem State.outcome_dies (s : State) (o : Issued) : (s.outcome o).dies = s.dies := rfl
@[simp] theorem State.outcome_hub (s : State) (o : Issued) : (s.outcome o).hub = s.hub := rfl

@[simp] theorem State.transferTo_cycle (s : State) (a : VAddr) : (s.transferTo a).cycle = s.cycle := rfl
@[simp] theorem State.transferTo_agenda (s : State) (a : VAddr) : (s.transferTo a).agenda = s.agenda := rfl
@[simp] theorem State.transferTo_free (s : State) (a : VAddr) : (s.transferTo a).free = s.free := rfl
@[simp] theorem State.transferTo_mem (s : State) (a : VAddr) : (s.transferTo a).mem = s.mem := rfl
@[simp] theorem State.transferTo_keyOf (s : State) (a : VAddr) : (s.transferTo a).keyOf = s.keyOf := rfl
@[simp] theorem State.transferTo_ecc (s : State) (a : VAddr) : (s.transferTo a).ecc = s.ecc := rfl
@[simp] theorem State.transferTo_tags (s : State) (a : VAddr) : (s.transferTo a).tags = s.tags := rfl
@[simp] theorem State.transferTo_atoms (s : State) (a : VAddr) : (s.transferTo a).atoms = s.atoms := rfl
@[simp] theorem State.transferTo_threads (s : State) (a : VAddr) : (s.transferTo a).threads = s.threads := rfl
@[simp] theorem State.transferTo_cores (s : State) (a : VAddr) : (s.transferTo a).cores = s.cores := rfl
@[simp] theorem State.transferTo_clusters (s : State) (a : VAddr) : (s.transferTo a).clusters = s.clusters := rfl
@[simp] theorem State.transferTo_dies (s : State) (a : VAddr) : (s.transferTo a).dies = s.dies := rfl
@[simp] theorem State.transferTo_hub (s : State) (a : VAddr) : (s.transferTo a).hub = s.hub := rfl

/-! ## Reading a part after writing it -/

@[simp] theorem State.thread_setThread_same (s : State) (t : Nat) (x : Thread) : (s.setThread t x).thread t = x := tget_tset_same _ _ _ _
theorem State.thread_setThread_other (s : State) {t u : Nat} (x : Thread) (h : u ≠ t) : (s.setThread t x).thread u = s.thread u :=
  tget_tset_other _ _ _ h
@[simp] theorem State.thread_updThread_same (s : State) (t : Nat) (f : Thread → Thread) : (s.updThread t f).thread t = f (s.thread t) :=
  tget_tset_same _ _ _ _
theorem State.thread_updThread_other (s : State) {t u : Nat} (f : Thread → Thread) (h : u ≠ t) : (s.updThread t f).thread u = s.thread u :=
  tget_tset_other _ _ _ h
@[simp] theorem State.me_updMe (s : State) (f : Thread → Thread) : (s.updMe f).me = f s.me := tget_tset_same _ _ _ _
@[simp] theorem State.thread_updMe_same (s : State) (f : Thread → Thread) : (s.updMe f).thread s.cur.tid = f s.me := tget_tset_same _ _ _ _
theorem State.thread_updMe_other (s : State) {u : Nat} (f : Thread → Thread) (h : u ≠ s.cur.tid) : (s.updMe f).thread u = s.thread u :=
  tget_tset_other _ _ _ h
@[simp] theorem State.core_setCore_same (s : State) (c : Nat) (x : Core) : (s.setCore c x).core c = x := tget_tset_same _ _ _ _
@[simp] theorem State.core_updCore_same (s : State) (c : Nat) (f : Core → Core) : (s.updCore c f).core c = f (s.core c) := tget_tset_same _ _ _ _
theorem State.core_updCore_other (s : State) {c d : Nat} (f : Core → Core) (h : d ≠ c) : (s.updCore c f).core d = s.core d :=
  tget_tset_other _ _ _ h
@[simp] theorem State.core_updArr_same (s : State) (c : Nat) (f : Array → Array) : ((s.updArr c f).core c).arr = f (s.core c).arr := by
  simp [State.updArr]
@[simp] theorem State.cluster_updCluster_same (s : State) (c : Nat) (f : Cluster → Cluster) : (s.updCluster c f).cluster c = f (s.cluster c) :=
  tget_tset_same _ _ _ _
@[simp] theorem State.die_updDie_same (s : State) (d : Nat) (f : Die → Die) : (s.updDie d f).die d = f (s.die d) := tget_tset_same _ _ _ _
theorem State.die_updDie_other (s : State) {d e : Nat} (f : Die → Die) (h : e ≠ d) : (s.updDie d f).die e = s.die e := tget_tset_other _ _ _ h
@[simp] theorem State.hub_updHub (s : State) (f : Hub → Hub) : (s.updHub f).hub = f s.hub := rfl
@[simp] theorem State.outcome_out (s : State) (o : Issued) : (s.outcome o).cur.out = o := rfl
@[simp] theorem State.outcome_tid (s : State) (o : Issued) : (s.outcome o).cur.tid = s.cur.tid := rfl

/-! ## Updates of another part leave the threads, cores and dies as they read -/

@[simp] theorem State.setThread_core (s : State) (t : Nat) (x : Thread) (x1 : Nat) : (s.setThread t x).core x1 = s.core x1 := rfl
@[simp] theorem State.setThread_cluster (s : State) (t : Nat) (x : Thread) (x1 : Nat) : (s.setThread t x).cluster x1 = s.cluster x1 := rfl
@[simp] theorem State.setThread_die (s : State) (t : Nat) (x : Thread) (x1 : Nat) : (s.setThread t x).die x1 = s.die x1 := rfl

@[simp] theorem State.updThread_core (s : State) (t : Nat) (f : Thread → Thread) (x1 : Nat) : (s.updThread t f).core x1 = s.core x1 := rfl
@[simp] theorem State.updThread_cluster (s : State) (t : Nat) (f : Thread → Thread) (x1 : Nat) : (s.updThread t f).cluster x1 = s.cluster x1 := rfl
@[simp] theorem State.updThread_die (s : State) (t : Nat) (f : Thread → Thread) (x1 : Nat) : (s.updThread t f).die x1 = s.die x1 := rfl

@[simp] theorem State.updMe_core (s : State) (f : Thread → Thread) (x1 : Nat) : (s.updMe f).core x1 = s.core x1 := rfl
@[simp] theorem State.updMe_cluster (s : State) (f : Thread → Thread) (x1 : Nat) : (s.updMe f).cluster x1 = s.cluster x1 := rfl
@[simp] theorem State.updMe_die (s : State) (f : Thread → Thread) (x1 : Nat) : (s.updMe f).die x1 = s.die x1 := rfl

@[simp] theorem State.setCore_thread (s : State) (c : Nat) (x : Core) (x1 : Nat) : (s.setCore c x).thread x1 = s.thread x1 := rfl
@[simp] theorem State.setCore_cluster (s : State) (c : Nat) (x : Core) (x1 : Nat) : (s.setCore c x).cluster x1 = s.cluster x1 := rfl
@[simp] theorem State.setCore_die (s : State) (c : Nat) (x : Core) (x1 : Nat) : (s.setCore c x).die x1 = s.die x1 := rfl
@[simp] theorem State.setCore_me (s : State) (c : Nat) (x : Core) : (s.setCore c x).me = s.me := rfl
@[simp] theorem State.setCore_src (s : State) (c : Nat) (x : Core) : (s.setCore c x).src = s.src := rfl

@[simp] theorem State.updCore_thread (s : State) (c : Nat) (f : Core → Core) (x1 : Nat) : (s.updCore c f).thread x1 = s.thread x1 := rfl
@[simp] theorem State.updCore_cluster (s : State) (c : Nat) (f : Core → Core) (x1 : Nat) : (s.updCore c f).cluster x1 = s.cluster x1 := rfl
@[simp] theorem State.updCore_die (s : State) (c : Nat) (f : Core → Core) (x1 : Nat) : (s.updCore c f).die x1 = s.die x1 := rfl
@[simp] theorem State.updCore_me (s : State) (c : Nat) (f : Core → Core) : (s.updCore c f).me = s.me := rfl
@[simp] theorem State.updCore_src (s : State) (c : Nat) (f : Core → Core) : (s.updCore c f).src = s.src := rfl

@[simp] theorem State.updArr_thread (s : State) (c : Nat) (f : Array → Array) (x1 : Nat) : (s.updArr c f).thread x1 = s.thread x1 := rfl
@[simp] theorem State.updArr_cluster (s : State) (c : Nat) (f : Array → Array) (x1 : Nat) : (s.updArr c f).cluster x1 = s.cluster x1 := rfl
@[simp] theorem State.updArr_die (s : State) (c : Nat) (f : Array → Array) (x1 : Nat) : (s.updArr c f).die x1 = s.die x1 := rfl
@[simp] theorem State.updArr_me (s : State) (c : Nat) (f : Array → Array) : (s.updArr c f).me = s.me := rfl
@[simp] theorem State.updArr_src (s : State) (c : Nat) (f : Array → Array) : (s.updArr c f).src = s.src := rfl

@[simp] theorem State.updCluster_thread (s : State) (c : Nat) (f : Cluster → Cluster) (x1 : Nat) : (s.updCluster c f).thread x1 = s.thread x1 := rfl
@[simp] theorem State.updCluster_core (s : State) (c : Nat) (f : Cluster → Cluster) (x1 : Nat) : (s.updCluster c f).core x1 = s.core x1 := rfl
@[simp] theorem State.updCluster_die (s : State) (c : Nat) (f : Cluster → Cluster) (x1 : Nat) : (s.updCluster c f).die x1 = s.die x1 := rfl
@[simp] theorem State.updCluster_me (s : State) (c : Nat) (f : Cluster → Cluster) : (s.updCluster c f).me = s.me := rfl
@[simp] theorem State.updCluster_src (s : State) (c : Nat) (f : Cluster → Cluster) : (s.updCluster c f).src = s.src := rfl

@[simp] theorem State.updDie_thread (s : State) (d : Nat) (f : Die → Die) (x1 : Nat) : (s.updDie d f).thread x1 = s.thread x1 := rfl
@[simp] theorem State.updDie_core (s : State) (d : Nat) (f : Die → Die) (x1 : Nat) : (s.updDie d f).core x1 = s.core x1 := rfl
@[simp] theorem State.updDie_cluster (s : State) (d : Nat) (f : Die → Die) (x1 : Nat) : (s.updDie d f).cluster x1 = s.cluster x1 := rfl
@[simp] theorem State.updDie_me (s : State) (d : Nat) (f : Die → Die) : (s.updDie d f).me = s.me := rfl
@[simp] theorem State.updDie_src (s : State) (d : Nat) (f : Die → Die) : (s.updDie d f).src = s.src := rfl

@[simp] theorem State.updHub_thread (s : State) (f : Hub → Hub) (x1 : Nat) : (s.updHub f).thread x1 = s.thread x1 := rfl
@[simp] theorem State.updHub_core (s : State) (f : Hub → Hub) (x1 : Nat) : (s.updHub f).core x1 = s.core x1 := rfl
@[simp] theorem State.updHub_cluster (s : State) (f : Hub → Hub) (x1 : Nat) : (s.updHub f).cluster x1 = s.cluster x1 := rfl
@[simp] theorem State.updHub_die (s : State) (f : Hub → Hub) (x1 : Nat) : (s.updHub f).die x1 = s.die x1 := rfl
@[simp] theorem State.updHub_me (s : State) (f : Hub → Hub) : (s.updHub f).me = s.me := rfl
@[simp] theorem State.updHub_src (s : State) (f : Hub → Hub) : (s.updHub f).src = s.src := rfl

@[simp] theorem State.putByte_thread (s : State) (k : Nat) (b : Byte) (x1 : Nat) : (s.putByte k b).thread x1 = s.thread x1 := rfl
@[simp] theorem State.putByte_core (s : State) (k : Nat) (b : Byte) (x1 : Nat) : (s.putByte k b).core x1 = s.core x1 := rfl
@[simp] theorem State.putByte_cluster (s : State) (k : Nat) (b : Byte) (x1 : Nat) : (s.putByte k b).cluster x1 = s.cluster x1 := rfl
@[simp] theorem State.putByte_die (s : State) (k : Nat) (b : Byte) (x1 : Nat) : (s.putByte k b).die x1 = s.die x1 := rfl
@[simp] theorem State.putByte_me (s : State) (k : Nat) (b : Byte) : (s.putByte k b).me = s.me := rfl
@[simp] theorem State.putByte_src (s : State) (k : Nat) (b : Byte) : (s.putByte k b).src = s.src := rfl

@[simp] theorem State.outcome_thread (s : State) (o : Issued) (x1 : Nat) : (s.outcome o).thread x1 = s.thread x1 := rfl
@[simp] theorem State.outcome_core (s : State) (o : Issued) (x1 : Nat) : (s.outcome o).core x1 = s.core x1 := rfl
@[simp] theorem State.outcome_cluster (s : State) (o : Issued) (x1 : Nat) : (s.outcome o).cluster x1 = s.cluster x1 := rfl
@[simp] theorem State.outcome_die (s : State) (o : Issued) (x1 : Nat) : (s.outcome o).die x1 = s.die x1 := rfl

@[simp] theorem State.transferTo_thread (s : State) (a : VAddr) (x1 : Nat) : (s.transferTo a).thread x1 = s.thread x1 := rfl
@[simp] theorem State.transferTo_core (s : State) (a : VAddr) (x1 : Nat) : (s.transferTo a).core x1 = s.core x1 := rfl
@[simp] theorem State.transferTo_cluster (s : State) (a : VAddr) (x1 : Nat) : (s.transferTo a).cluster x1 = s.cluster x1 := rfl
@[simp] theorem State.transferTo_die (s : State) (a : VAddr) (x1 : Nat) : (s.transferTo a).die x1 = s.die x1 := rfl

end Sys2Proof.Machine
end

