-- ==== Sys2Proof/Laws/Ops.lean ====
section
/-! SUPPORT. What each shared operation can do: the guard, results in flight and their landing, traps, waits, the queues of accesses and of
matrix commands. -/

namespace Sys2Proof.Machine

open Sys2Proof

/-! ## The guard (R39) -/

theorem guarded_true {gd : Guard} {s : State} (f : State → State) (h : s.guard gd = true) : guarded gd s f = .next (f s) := by
  simp [guarded, h]

theorem guarded_false {gd : Guard} {s : State} (f : State → State) (h : s.guard gd = false) : guarded gd s f = .next s := by
  simp [guarded, h]

/-- A guarded operation always answers a next state. -/
theorem guarded_next (gd : Guard) (s : State) (f : State → State) : ∃ t, guarded gd s f = .next t := by
  unfold guarded
  split
  · exact ⟨_, rfl⟩
  · exact ⟨_, rfl⟩

/-! ## Results in flight (R12, R51) -/

theorem post_discarded (s : State) {d : Dest} (v lat : Nat) (h : d.discards = true) : s.post d v lat = s := by
  simp [State.post, h]

theorem post_me (s : State) {d : Dest} (v lat : Nat) (h : d.discards = false) :
    (s.post d v lat).me = { s.me with flight := s.me.flight ++ [⟨d, v, s.cycle + lat - 1, s.me.ord, s.cur.slot⟩] } := by
  simp [State.post, h]

/-- A result in flight changes nothing but the flight list of the thread in issue. -/
theorem post_frame (s : State) (d : Dest) (v lat : Nat) :
    s.post d v lat = s ∨ s.post d v lat = s.updMe (fun t => { t with flight := t.flight ++ [⟨d, v, s.cycle + lat - 1, t.ord, s.cur.slot⟩] }) := by
  unfold State.post
  split
  · exact Or.inl rfl
  · exact Or.inr rfl

@[simp] theorem post_mem (s : State) (d : Dest) (v lat : Nat) : (s.post d v lat).mem = s.mem := by
  rcases post_frame s d v lat with h | h <;> rw [h]; rfl
@[simp] theorem post_cur (s : State) (d : Dest) (v lat : Nat) : (s.post d v lat).cur = s.cur := by
  rcases post_frame s d v lat with h | h <;> rw [h]; rfl
@[simp] theorem post_cycle (s : State) (d : Dest) (v lat : Nat) : (s.post d v lat).cycle = s.cycle := by
  rcases post_frame s d v lat with h | h <;> rw [h]; rfl
@[simp] theorem post_cores (s : State) (d : Dest) (v lat : Nat) : (s.post d v lat).cores = s.cores := by
  rcases post_frame s d v lat with h | h <;> rw [h]; rfl
@[simp] theorem post_clusters (s : State) (d : Dest) (v lat : Nat) : (s.post d v lat).clusters = s.clusters := by
  rcases post_frame s d v lat with h | h <;> rw [h]; rfl
@[simp] theorem post_dies (s : State) (d : Dest) (v lat : Nat) : (s.post d v lat).dies = s.dies := by
  rcases post_frame s d v lat with h | h <;> rw [h]; rfl
@[simp] theorem post_hub (s : State) (d : Dest) (v lat : Nat) : (s.post d v lat).hub = s.hub := by
  rcases post_frame s d v lat with h | h <;> rw [h]; rfl

/-- A result in flight touches no other thread. -/
theorem post_other (s : State) (d : Dest) (v lat : Nat) {u : Nat} (h : u ≠ s.cur.tid) : (s.post d v lat).thread u = s.thread u := by
  rcases post_frame s d v lat with e | e <;> rw [e]
  exact State.thread_updMe_other s _ h

/-! ## Traps (R247 to R249) -/

/-- A precise cause either holds the bundle, where another thread's snapshot masks it, or is taken. -/
theorem raise_masked (s : State) (i : TrapInfo) (h : (s.updMe (fun t => { t with walked := [] })).masked s.cur.tid = true) :
    s.raise i = (s.updMe (fun t => { t with walked := [] })).outcome .held := by
  simp [State.raise, h]

theorem takeTrap_free (s : State) (t : Nat) (i : TrapInfo) (xpc : VAddr) (h : (s.core (coreOf t)).snap = none) :
    s.takeTrap t i xpc = (s.enterTrap t i xpc).stopLock t := by
  simp [State.takeTrap, h]

/-- A trap of a thread while another holds the core's snapshot changes nothing. -/
theorem takeTrap_masked (s : State) (t : Nat) (i : TrapInfo) (xpc : VAddr) {sn : Snap} (h : (s.core (coreOf t)).snap = some sn) (g : sn.tid ≠ t) :
    s.takeTrap t i xpc = s := by
  simp [State.takeTrap, h, g]

/-- What the thread is in its handler. -/
theorem enterTrap_thread (s : State) (t : Nat) (i : TrapInfo) (xpc : VAddr) :
    (s.enterTrap t i xpc).thread t = { s.thread t with
      st := .trapped, ret := ⟨(s.thread t).atF, (s.thread t).retState⟩, atF := true, paused := false, traps := (s.thread t).ord :: (s.thread t).traps, walked := [],
      flight := [], parked := [],
      snapped := (s.thread t).snapped ++ ((s.thread t).flight.map (snapRec ((s.thread t).firstIssue s.cycle)) ++ (s.thread t).parked).map (fun r => (r, (s.thread t).ord)), wdone := false,
      pc := BitVec.ofNat 48 (64 * causeCode i.cause), ready := s.cycle + 6,
      ctl := { (s.thread t).ctl with cause := BitVec.ofNat 8 (causeCode i.cause), cmdidx := i.cmdidx, engine := i.engine, estat := i.estat,
                                     badaddr := i.badaddr, xpc := xpc } } := by
  simp [State.enterTrap]

/-! ## The queue of accesses (R169) and of matrix commands (R220) -/

@[simp] theorem lock_memQ (t : Thread) (slot : Nat) (d : Dest) (id : Nat) : (t.lock slot d id).memQ = t.memQ := by
  unfold Thread.lock
  split <;> rfl
@[simp] theorem lock_nextId (t : Thread) (slot : Nat) (d : Dest) (id : Nat) : (t.lock slot d id).nextId = t.nextId := by
  unfold Thread.lock
  split <;> rfl
@[simp] theorem lock_ord (t : Thread) (slot : Nat) (d : Dest) (id : Nat) : (t.lock slot d id).ord = t.ord := by
  unfold Thread.lock
  split <;> rfl
@[simp] theorem lock_mat (t : Thread) (slot : Nat) (d : Dest) (id : Nat) : (t.lock slot d id).mat = t.mat := by
  unfold Thread.lock
  split <;> rfl
@[simp] theorem lock_regs (t : Thread) (slot : Nat) (d : Dest) (id : Nat) : (t.lock slot d id).regs = t.regs := by
  unfold Thread.lock
  split <;> rfl

@[simp] theorem lockAll_memQ (slot : Nat) (ds : List Dest) (t : Thread) : (ds.foldl (fun t d => t.lock slot d t.nextId) t).memQ = t.memQ := by
  induction ds generalizing t with
  | nil => rfl
  | cons d ds ih => simp [ih]
@[simp] theorem lockAll_nextId (slot : Nat) (ds : List Dest) (t : Thread) : (ds.foldl (fun t d => t.lock slot d t.nextId) t).nextId = t.nextId := by
  induction ds generalizing t with
  | nil => rfl
  | cons d ds ih => simp [ih]
@[simp] theorem lockAll_ord (slot : Nat) (ds : List Dest) (t : Thread) : (ds.foldl (fun t d => t.lock slot d t.nextId) t).ord = t.ord := by
  induction ds generalizing t with
  | nil => rfl
  | cons d ds ih => simp [ih]
@[simp] theorem lockAll_regs (slot : Nat) (ds : List Dest) (t : Thread) : (ds.foldl (fun t d => t.lock slot d t.nextId) t).regs = t.regs := by
  induction ds generalizing t with
  | nil => rfl
  | cons d ds ih => simp [ih]

/-- An access joins the end of its thread's queue, with the next command number. -/
theorem enqueue_me (s : State) (op : MemOp) (lat : Nat) (dests : List Dest) (sync : Bool) (rel : Nat) :
    (s.enqueue op lat dests sync rel).me.memQ = s.me.memQ ++ [⟨s.me.nextId, s.cycle, s.cycle + lat - 1, s.me.ord, op, sync, rel⟩] := by
  simp [State.enqueue]

@[simp] theorem enqueue_mem (s : State) (op : MemOp) (lat : Nat) (dests : List Dest) (sync : Bool) (rel : Nat) :
    (s.enqueue op lat dests sync rel).mem = s.mem := rfl
@[simp] theorem enqueue_hub (s : State) (op : MemOp) (lat : Nat) (dests : List Dest) (sync : Bool) (rel : Nat) :
    (s.enqueue op lat dests sync rel).hub = s.hub := rfl

/-- A result known at issue lands after the cycle, behind earlier writes of its register; a register that discards writes takes none (R52). -/
theorem postVar_me (s : State) (d : Dest) (v : Nat) :
    (s.postVar d v).me = if d.discards then s.me else { s.me with due := s.me.due ++ [⟨d, v, s.cycle, s.me.ord, s.cur.slot⟩] } := by
  unfold State.postVar
  split <;> simp

@[simp] theorem postVar_mem (s : State) (d : Dest) (v : Nat) : (s.postVar d v).mem = s.mem := by
  unfold State.postVar
  split <;> rfl

/-- A command at issue leaves memory alone. -/
@[simp] theorem matCmd_mem (s : State) (op : MatOp) (foot : Nat) (image : Bool) (dests : List Dest) : (s.matCmd op foot image dests).mem = s.mem := rfl

/-! ## Waits -/

/-- A running thread with no wait registered waits in WAITING (R19). -/
theorem park_running (t : Thread) (p : VAddr × List LoopEntry) (w : Option Wait) (x : Option Nat) (h : t.st = .running) (hw : t.wait = none)
    (hx : t.xwait = none) (hi : t.inner = []) (hp : t.paused = false) :
    t.park p w x = { t with st := .waiting, back := some (t.back.getD p), wait := w, xwait := x } := by
  simp [Thread.park, h, hw, hx, hi, hp]

/-- A handler waits in TRAPPED, above the waits registered before it (R19, R24). -/
theorem park_trapped (t : Thread) (p : VAddr × List LoopEntry) (w : Option Wait) (x : Option Nat) (h : t.st = .trapped) (hp : t.paused = false) :
    t.park p w x = { t with inner := ⟨w, x, p⟩ :: t.inner, paused := true } := by
  simp [Thread.park, h, hp]

theorem waitFor_me (s : State) (w : Wait) : (s.waitFor w).me = s.me.park (s.cur.pc, s.me.loops) (some w) none := by
  simp [State.waitFor]

theorem whenDrained_true (s : State) (f : State → State) (h : s.drained = true) : s.whenDrained f = f s := by
  simp [State.whenDrained, h]

theorem whenDrained_false (s : State) (f : State → State) (h : s.drained = false) : s.whenDrained f = s.hold := by
  simp [State.whenDrained, h]

end Sys2Proof.Machine
end

