-- ==== Sys2Proof/Laws/PerInstr.lean ====
section
/-! SUPPORT. The family WellFormedEncodes: every instruction's first word fits 32 bits, and its guard field is the guard of the instruction (R36, R38, R39). -/

namespace Sys2Proof.Laws

open Sys2Proof Sys2Proof.Machine

set_option Elab.async false

/-- The word of an instruction fits 32 bits, and bits 25:22 of it are its guard, but for the pair word, which has its own layout (R44). -/
def WellFormedEncodes.Statement (i : Instr) : Prop := encode i < 2 ^ 32 ∧ ∀ gd, guardOfInstr i = some gd → slotOf i ≠ some .P → guardOf (encode i) = gd

/-- A word made of an operation code, a guard and operands below bit 22 fits 32 bits, and gives the guard back. -/
theorem guard_of_sum (op lo : Nat) (gd : Guard) (ho : op < 64) (hl : lo < 2 ^ 22) :
    op * 2 ^ 26 + encodeGuard gd + lo < 2 ^ 32 ∧ guardOf (op * 2 ^ 26 + encodeGuard gd + lo) = gd := by
  obtain ⟨neg, reg⟩ := gd
  have hr := reg.isLt
  cases neg
  all_goals
    refine ⟨by simp only [encodeGuard]; split <;> simp_all <;> omega, ?_⟩
    simp only [guardOf, seg, fld, encodeGuard, Guard.mk.injEq]
    refine ⟨?_, ?_⟩
    · simp <;> omega
    · apply BitVec.eq_of_toNat_eq
      simp only [BitVec.toNat_ofNat]
      simp <;> omega

/-- The statement for an instruction whose word is such a sum. -/
theorem word_encodes {i : Instr} {op lo : Nat} {gd : Guard} (hg : guardOfInstr i = some gd) (he : encode i = op * 2 ^ 26 + encodeGuard gd + lo)
    (ho : op < 64) (hl : lo < 2 ^ 22) : WellFormedEncodes.Statement i := by
  obtain ⟨h1, h2⟩ := guard_of_sum op lo gd ho hl
  exact ⟨he ▸ h1, fun g h _ => by cases hg.symm.trans h; exact he ▸ h2⟩

theorem WellFormedEncodes.nop (gd : Guard) : WellFormedEncodes.Statement (.nop gd) :=
  word_encodes (op := 0) (lo := 0) rfl (by show encodeGuard gd = _; omega) (by decide) (by omega)
theorem WellFormedEncodes.br (gd : Guard) (o : BitVec 21) (kw : Option (BitVec 32)) : WellFormedEncodes.Statement (.br gd o kw) :=
  word_encodes (op := 1) (lo := o.toNat) rfl (by show 67108864 + encodeGuard gd + o.toNat = _; omega) (by decide) (by have := o.isLt; omega)
theorem WellFormedEncodes.jmp (gd : Guard) (a : BitVec 5) : WellFormedEncodes.Statement (.jmp gd a) :=
  word_encodes (op := 2) (lo := a.toNat * 4096) rfl (by show 134217728 + encodeGuard gd + a.toNat * 4096 = _; omega) (by decide) (by have := a.isLt; omega)
theorem WellFormedEncodes.call (gd : Guard) (o : BitVec 21) (kw : Option (BitVec 32)) : WellFormedEncodes.Statement (.call gd o kw) :=
  word_encodes (op := 3) (lo := o.toNat) rfl (by show 201326592 + encodeGuard gd + o.toNat = _; omega) (by decide) (by have := o.isLt; omega)
theorem WellFormedEncodes.callr (gd : Guard) (d : BitVec 5) (a : BitVec 5) : WellFormedEncodes.Statement (.callr gd d a) :=
  word_encodes (op := 4) (lo := d.toNat * 131072 + a.toNat * 4096) rfl (by show 268435456 + encodeGuard gd + d.toNat * 131072 + a.toNat * 4096 = _; omega) (by decide) (by have := d.isLt; have := a.isLt; omega)
theorem WellFormedEncodes.ret (gd : Guard) (a : BitVec 5) : WellFormedEncodes.Statement (.ret gd a) :=
  word_encodes (op := 5) (lo := a.toNat * 4096) rfl (by show 335544320 + encodeGuard gd + a.toNat * 4096 = _; omega) (by decide) (by have := a.isLt; omega)
theorem WellFormedEncodes.loop (gd : Guard) (l : BitVec 10) (c : BitVec 12) (kw : Option (BitVec 32)) : WellFormedEncodes.Statement (.loop gd l c kw) :=
  word_encodes (op := 6) (lo := l.toNat * 4096 + c.toNat) rfl (by show 402653184 + encodeGuard gd + l.toNat * 4096 + c.toNat = _; omega) (by decide) (by have := l.isLt; have := c.isLt; omega)
theorem WellFormedEncodes.loopr (gd : Guard) (h : BitVec 5) (a : BitVec 5) (l : BitVec 5) : WellFormedEncodes.Statement (.loopr gd h a l) :=
  word_encodes (op := 7) (lo := h.toNat * 131072 + a.toNat * 4096 + l.toNat * 128) rfl (by show 469762048 + encodeGuard gd + h.toNat * 131072 + a.toNat * 4096 + l.toNat * 128 = _; omega) (by decide) (by have := h.isLt; have := a.isLt; have := l.isLt; omega)
theorem WellFormedEncodes.lbrk (gd : Guard) (k : BitVec 5) : WellFormedEncodes.Statement (.lbrk gd k) :=
  word_encodes (op := 8) (lo := k.toNat * 131072) rfl (by show 536870912 + encodeGuard gd + k.toNat * 131072 = _; omega) (by decide) (by have := k.isLt; omega)
theorem WellFormedEncodes.endThread (gd : Guard) : WellFormedEncodes.Statement (.endThread gd) :=
  word_encodes (op := 9) (lo := 0) rfl (by show 603979776 + encodeGuard gd = _; omega) (by decide) (by omega)
theorem WellFormedEncodes.yield (gd : Guard) (a : BitVec 5) : WellFormedEncodes.Statement (.yield gd a) :=
  word_encodes (op := 10) (lo := a.toNat * 4096) rfl (by show 671088640 + encodeGuard gd + a.toNat * 4096 = _; omega) (by decide) (by have := a.isLt; omega)
theorem WellFormedEncodes.await (gd : Guard) (d : BitVec 5) (a : BitVec 5) (i : BitVec 12) (kw : Option (BitVec 32)) : WellFormedEncodes.Statement (.await gd d a i kw) :=
  word_encodes (op := 11) (lo := d.toNat * 131072 + a.toNat * 4096 + i.toNat) rfl (by show 738197504 + encodeGuard gd + d.toNat * 131072 + a.toNat * 4096 + i.toNat = _; omega) (by decide) (by have := d.isLt; have := a.isLt; have := i.isLt; omega)
theorem WellFormedEncodes.joinNew (gd : Guard) : WellFormedEncodes.Statement (.joinNew gd) :=
  word_encodes (op := 12) (lo := 2097152) rfl (by show 807403520 + encodeGuard gd = _; omega) (by decide) (by omega)
theorem WellFormedEncodes.join (gd : Guard) (a : BitVec 5) (i : BitVec 12) (kw : Option (BitVec 32)) : WellFormedEncodes.Statement (.join gd a i kw) :=
  word_encodes (op := 12) (lo := a.toNat * 4096 + i.toNat) rfl (by show 805306368 + encodeGuard gd + a.toNat * 4096 + i.toNat = _; omega) (by decide) (by have := a.isLt; have := i.isLt; omega)
theorem WellFormedEncodes.leave (gd : Guard) : WellFormedEncodes.Statement (.leave gd) :=
  word_encodes (op := 13) (lo := 0) rfl (by show 872415232 + encodeGuard gd = _; omega) (by decide) (by omega)
theorem WellFormedEncodes.bar (gd : Guard) : WellFormedEncodes.Statement (.bar gd) :=
  word_encodes (op := 14) (lo := 0) rfl (by show 939524096 + encodeGuard gd = _; omega) (by decide) (by omega)
theorem WellFormedEncodes.fuse (gd : Guard) (k : BitVec 4) (f : BitVec 3) : WellFormedEncodes.Statement (.fuse gd k f) :=
  word_encodes (op := 15) (lo := k.toNat * 8 + f.toNat) rfl (by show 1006632960 + encodeGuard gd + k.toNat * 8 + f.toNat = _; omega) (by decide) (by have := k.isLt; have := f.isLt; omega)
theorem WellFormedEncodes.decouple (gd : Guard) : WellFormedEncodes.Statement (.decouple gd) :=
  word_encodes (op := 16) (lo := 0) rfl (by show 1073741824 + encodeGuard gd = _; omega) (by decide) (by omega)
theorem WellFormedEncodes.rejoin (gd : Guard) (d : BitVec 5) : WellFormedEncodes.Statement (.rejoin gd d) :=
  word_encodes (op := 17) (lo := d.toNat * 131072) rfl (by show 1140850688 + encodeGuard gd + d.toNat * 131072 = _; omega) (by decide) (by have := d.isLt; omega)
theorem WellFormedEncodes.suspend (gd : Guard) (d : BitVec 5) (a : BitVec 5) : WellFormedEncodes.Statement (.suspend gd d a) :=
  word_encodes (op := 18) (lo := d.toNat * 131072 + a.toNat * 4096) rfl (by show 1207959552 + encodeGuard gd + d.toNat * 131072 + a.toNat * 4096 = _; omega) (by decide) (by have := d.isLt; have := a.isLt; omega)
theorem WellFormedEncodes.suspendComplete (die : Nat) (k : Nat) : WellFormedEncodes.Statement (.suspendComplete die k) := ⟨Nat.two_pow_pos 32, fun _ h _ => by cases h⟩
theorem WellFormedEncodes.resume (gd : Guard) (a : BitVec 5) (p : BitVec 4) : WellFormedEncodes.Statement (.resume gd a p) :=
  word_encodes (op := 19) (lo := a.toNat * 4096 + p.toNat) rfl (by show 1275068416 + encodeGuard gd + a.toNat * 4096 + p.toNat = _; omega) (by decide) (by have := a.isLt; have := p.isLt; omega)
theorem WellFormedEncodes.hamperLoadComplete (die : Nat) (k : Nat) : WellFormedEncodes.Statement (.hamperLoadComplete die k) := ⟨Nat.two_pow_pos 32, fun _ h _ => by cases h⟩
theorem WellFormedEncodes.hcopy (gd : Guard) (d : BitVec 5) (a : BitVec 5) (b : BitVec 5) : WellFormedEncodes.Statement (.hcopy gd d a b) :=
  word_encodes (op := 20) (lo := d.toNat * 131072 + a.toNat * 4096 + b.toNat * 128) rfl (by show 1342177280 + encodeGuard gd + d.toNat * 131072 + a.toNat * 4096 + b.toNat * 128 = _; omega) (by decide) (by have := d.isLt; have := a.isLt; have := b.isLt; omega)
theorem WellFormedEncodes.hcopyComplete (die : Nat) (k : Nat) : WellFormedEncodes.Statement (.hcopyComplete die k) := ⟨Nat.two_pow_pos 32, fun _ h _ => by cases h⟩
theorem WellFormedEncodes.hdiscard (gd : Guard) (d : BitVec 5) (a : BitVec 5) : WellFormedEncodes.Statement (.hdiscard gd d a) :=
  word_encodes (op := 21) (lo := d.toNat * 131072 + a.toNat * 4096) rfl (by show 1409286144 + encodeGuard gd + d.toNat * 131072 + a.toNat * 4096 = _; omega) (by decide) (by have := d.isLt; have := a.isLt; omega)
theorem WellFormedEncodes.trap (gd : Guard) (i : BitVec 17) (kw : Option (BitVec 32)) : WellFormedEncodes.Statement (.trap gd i kw) :=
  word_encodes (op := 22) (lo := i.toNat) rfl (by show 1476395008 + encodeGuard gd + i.toNat = _; omega) (by decide) (by have := i.isLt; omega)
theorem WellFormedEncodes.gate (gd : Guard) (i : BitVec 8) : WellFormedEncodes.Statement (.gate gd i) :=
  word_encodes (op := 23) (lo := i.toNat) rfl (by show 1543503872 + encodeGuard gd + i.toNat = _; omega) (by decide) (by have := i.isLt; omega)
theorem WellFormedEncodes.rft (gd : Guard) (a : BitVec 5) : WellFormedEncodes.Statement (.rft gd a) :=
  word_encodes (op := 24) (lo := a.toNat * 4096) rfl (by show 1610612736 + encodeGuard gd + a.toNat * 4096 = _; omega) (by decide) (by have := a.isLt; omega)
theorem WellFormedEncodes.rftN (gd : Guard) : WellFormedEncodes.Statement (.rftN gd) :=
  word_encodes (op := 24) (lo := 1) rfl (by show 1610612737 + encodeGuard gd = _; omega) (by decide) (by omega)
theorem WellFormedEncodes.snapst (gd : Guard) (b : BitVec 5) (o : BitVec 12) (kw : Option (BitVec 32)) : WellFormedEncodes.Statement (.snapst gd b o kw) :=
  word_encodes (op := 25) (lo := b.toNat * 4096 + o.toNat) rfl (by show 1677721600 + encodeGuard gd + b.toNat * 4096 + o.toNat = _; omega) (by decide) (by have := b.isLt; have := o.isLt; omega)
theorem WellFormedEncodes.snaprel (gd : Guard) : WellFormedEncodes.Statement (.snaprel gd) :=
  word_encodes (op := 26) (lo := 0) rfl (by show 1744830464 + encodeGuard gd = _; omega) (by decide) (by omega)
theorem WellFormedEncodes.step (gd : Guard) (d : BitVec 5) (a : BitVec 5) (t : BitVec 1) : WellFormedEncodes.Statement (.step gd d a t) :=
  word_encodes (op := 27) (lo := d.toNat * 131072 + a.toNat * 4096 + t.toNat) rfl (by show 1811939328 + encodeGuard gd + d.toNat * 131072 + a.toNat * 4096 + t.toNat = _; omega) (by decide) (by have := d.isLt; have := a.isLt; have := t.isLt; omega)
theorem WellFormedEncodes.add (gd : Guard) (d : BitVec 5) (a : BitVec 5) (b : BitVec 5) (k : BitVec 1) : WellFormedEncodes.Statement (.add gd d a b k) :=
  word_encodes (op := 0) (lo := d.toNat * 131072 + a.toNat * 4096 + b.toNat * 128 + k.toNat) rfl (by show encodeGuard gd + d.toNat * 131072 + a.toNat * 4096 + b.toNat * 128 + k.toNat = _; omega) (by decide) (by have := d.isLt; have := a.isLt; have := b.isLt; have := k.isLt; omega)
theorem WellFormedEncodes.addi (gd : Guard) (d : BitVec 5) (a : BitVec 5) (i : BitVec 12) (kw : Option (BitVec 32)) : WellFormedEncodes.Statement (.addi gd d a i kw) :=
  word_encodes (op := 1) (lo := d.toNat * 131072 + a.toNat * 4096 + i.toNat) rfl (by show 67108864 + encodeGuard gd + d.toNat * 131072 + a.toNat * 4096 + i.toNat = _; omega) (by decide) (by have := d.isLt; have := a.isLt; have := i.isLt; omega)
theorem WellFormedEncodes.sub (gd : Guard) (d : BitVec 5) (a : BitVec 5) (b : BitVec 5) (k : BitVec 1) : WellFormedEncodes.Statement (.sub gd d a b k) :=
  word_encodes (op := 2) (lo := d.toNat * 131072 + a.toNat * 4096 + b.toNat * 128 + k.toNat) rfl (by show 134217728 + encodeGuard gd + d.toNat * 131072 + a.toNat * 4096 + b.toNat * 128 + k.toNat = _; omega) (by decide) (by have := d.isLt; have := a.isLt; have := b.isLt; have := k.isLt; omega)
theorem WellFormedEncodes.mul (gd : Guard) (d : BitVec 5) (a : BitVec 5) (b : BitVec 5) (k : BitVec 1) : WellFormedEncodes.Statement (.mul gd d a b k) :=
  word_encodes (op := 3) (lo := d.toNat * 131072 + a.toNat * 4096 + b.toNat * 128 + k.toNat) rfl (by show 201326592 + encodeGuard gd + d.toNat * 131072 + a.toNat * 4096 + b.toNat * 128 + k.toNat = _; omega) (by decide) (by have := d.isLt; have := a.isLt; have := b.isLt; have := k.isLt; omega)
theorem WellFormedEncodes.mulh (gd : Guard) (d : BitVec 5) (a : BitVec 5) (b : BitVec 5) : WellFormedEncodes.Statement (.mulh gd d a b) :=
  word_encodes (op := 4) (lo := d.toNat * 131072 + a.toNat * 4096 + b.toNat * 128) rfl (by show 268435456 + encodeGuard gd + d.toNat * 131072 + a.toNat * 4096 + b.toNat * 128 = _; omega) (by decide) (by have := d.isLt; have := a.isLt; have := b.isLt; omega)
theorem WellFormedEncodes.mulhu (gd : Guard) (d : BitVec 5) (a : BitVec 5) (b : BitVec 5) : WellFormedEncodes.Statement (.mulhu gd d a b) :=
  word_encodes (op := 5) (lo := d.toNat * 131072 + a.toNat * 4096 + b.toNat * 128) rfl (by show 335544320 + encodeGuard gd + d.toNat * 131072 + a.toNat * 4096 + b.toNat * 128 = _; omega) (by decide) (by have := d.isLt; have := a.isLt; have := b.isLt; omega)
theorem WellFormedEncodes.div (gd : Guard) (d : BitVec 5) (a : BitVec 5) (b : BitVec 5) : WellFormedEncodes.Statement (.div gd d a b) :=
  word_encodes (op := 6) (lo := d.toNat * 131072 + a.toNat * 4096 + b.toNat * 128) rfl (by show 402653184 + encodeGuard gd + d.toNat * 131072 + a.toNat * 4096 + b.toNat * 128 = _; omega) (by decide) (by have := d.isLt; have := a.isLt; have := b.isLt; omega)
theorem WellFormedEncodes.divu (gd : Guard) (d : BitVec 5) (a : BitVec 5) (b : BitVec 5) : WellFormedEncodes.Statement (.divu gd d a b) :=
  word_encodes (op := 7) (lo := d.toNat * 131072 + a.toNat * 4096 + b.toNat * 128) rfl (by show 469762048 + encodeGuard gd + d.toNat * 131072 + a.toNat * 4096 + b.toNat * 128 = _; omega) (by decide) (by have := d.isLt; have := a.isLt; have := b.isLt; omega)
theorem WellFormedEncodes.rem (gd : Guard) (d : BitVec 5) (a : BitVec 5) (b : BitVec 5) : WellFormedEncodes.Statement (.rem gd d a b) :=
  word_encodes (op := 8) (lo := d.toNat * 131072 + a.toNat * 4096 + b.toNat * 128) rfl (by show 536870912 + encodeGuard gd + d.toNat * 131072 + a.toNat * 4096 + b.toNat * 128 = _; omega) (by decide) (by have := d.isLt; have := a.isLt; have := b.isLt; omega)
theorem WellFormedEncodes.remu (gd : Guard) (d : BitVec 5) (a : BitVec 5) (b : BitVec 5) : WellFormedEncodes.Statement (.remu gd d a b) :=
  word_encodes (op := 9) (lo := d.toNat * 131072 + a.toNat * 4096 + b.toNat * 128) rfl (by show 603979776 + encodeGuard gd + d.toNat * 131072 + a.toNat * 4096 + b.toNat * 128 = _; omega) (by decide) (by have := d.isLt; have := a.isLt; have := b.isLt; omega)
theorem WellFormedEncodes.andS (gd : Guard) (d : BitVec 5) (a : BitVec 5) (b : BitVec 5) : WellFormedEncodes.Statement (.andS gd d a b) :=
  word_encodes (op := 10) (lo := d.toNat * 131072 + a.toNat * 4096 + b.toNat * 128) rfl (by show 671088640 + encodeGuard gd + d.toNat * 131072 + a.toNat * 4096 + b.toNat * 128 = _; omega) (by decide) (by have := d.isLt; have := a.isLt; have := b.isLt; omega)
theorem WellFormedEncodes.andi (gd : Guard) (d : BitVec 5) (a : BitVec 5) (i : BitVec 12) (kw : Option (BitVec 32)) : WellFormedEncodes.Statement (.andi gd d a i kw) :=
  word_encodes (op := 11) (lo := d.toNat * 131072 + a.toNat * 4096 + i.toNat) rfl (by show 738197504 + encodeGuard gd + d.toNat * 131072 + a.toNat * 4096 + i.toNat = _; omega) (by decide) (by have := d.isLt; have := a.isLt; have := i.isLt; omega)
theorem WellFormedEncodes.orS (gd : Guard) (d : BitVec 5) (a : BitVec 5) (b : BitVec 5) : WellFormedEncodes.Statement (.orS gd d a b) :=
  word_encodes (op := 12) (lo := d.toNat * 131072 + a.toNat * 4096 + b.toNat * 128) rfl (by show 805306368 + encodeGuard gd + d.toNat * 131072 + a.toNat * 4096 + b.toNat * 128 = _; omega) (by decide) (by have := d.isLt; have := a.isLt; have := b.isLt; omega)
theorem WellFormedEncodes.ori (gd : Guard) (d : BitVec 5) (a : BitVec 5) (i : BitVec 12) (kw : Option (BitVec 32)) : WellFormedEncodes.Statement (.ori gd d a i kw) :=
  word_encodes (op := 13) (lo := d.toNat * 131072 + a.toNat * 4096 + i.toNat) rfl (by show 872415232 + encodeGuard gd + d.toNat * 131072 + a.toNat * 4096 + i.toNat = _; omega) (by decide) (by have := d.isLt; have := a.isLt; have := i.isLt; omega)
theorem WellFormedEncodes.xorS (gd : Guard) (d : BitVec 5) (a : BitVec 5) (b : BitVec 5) : WellFormedEncodes.Statement (.xorS gd d a b) :=
  word_encodes (op := 14) (lo := d.toNat * 131072 + a.toNat * 4096 + b.toNat * 128) rfl (by show 939524096 + encodeGuard gd + d.toNat * 131072 + a.toNat * 4096 + b.toNat * 128 = _; omega) (by decide) (by have := d.isLt; have := a.isLt; have := b.isLt; omega)
theorem WellFormedEncodes.xori (gd : Guard) (d : BitVec 5) (a : BitVec 5) (i : BitVec 12) (kw : Option (BitVec 32)) : WellFormedEncodes.Statement (.xori gd d a i kw) :=
  word_encodes (op := 15) (lo := d.toNat * 131072 + a.toNat * 4096 + i.toNat) rfl (by show 1006632960 + encodeGuard gd + d.toNat * 131072 + a.toNat * 4096 + i.toNat = _; omega) (by decide) (by have := d.isLt; have := a.isLt; have := i.isLt; omega)
theorem WellFormedEncodes.andn (gd : Guard) (d : BitVec 5) (a : BitVec 5) (b : BitVec 5) : WellFormedEncodes.Statement (.andn gd d a b) :=
  word_encodes (op := 16) (lo := d.toNat * 131072 + a.toNat * 4096 + b.toNat * 128) rfl (by show 1073741824 + encodeGuard gd + d.toNat * 131072 + a.toNat * 4096 + b.toNat * 128 = _; omega) (by decide) (by have := d.isLt; have := a.isLt; have := b.isLt; omega)
theorem WellFormedEncodes.shl (gd : Guard) (d : BitVec 5) (a : BitVec 5) (b : BitVec 5) : WellFormedEncodes.Statement (.shl gd d a b) :=
  word_encodes (op := 17) (lo := d.toNat * 131072 + a.toNat * 4096 + b.toNat * 128) rfl (by show 1140850688 + encodeGuard gd + d.toNat * 131072 + a.toNat * 4096 + b.toNat * 128 = _; omega) (by decide) (by have := d.isLt; have := a.isLt; have := b.isLt; omega)
theorem WellFormedEncodes.shli (gd : Guard) (d : BitVec 5) (a : BitVec 5) (i : BitVec 12) (kw : Option (BitVec 32)) : WellFormedEncodes.Statement (.shli gd d a i kw) :=
  word_encodes (op := 18) (lo := d.toNat * 131072 + a.toNat * 4096 + i.toNat) rfl (by show 1207959552 + encodeGuard gd + d.toNat * 131072 + a.toNat * 4096 + i.toNat = _; omega) (by decide) (by have := d.isLt; have := a.isLt; have := i.isLt; omega)
theorem WellFormedEncodes.shr (gd : Guard) (d : BitVec 5) (a : BitVec 5) (b : BitVec 5) : WellFormedEncodes.Statement (.shr gd d a b) :=
  word_encodes (op := 19) (lo := d.toNat * 131072 + a.toNat * 4096 + b.toNat * 128) rfl (by show 1275068416 + encodeGuard gd + d.toNat * 131072 + a.toNat * 4096 + b.toNat * 128 = _; omega) (by decide) (by have := d.isLt; have := a.isLt; have := b.isLt; omega)
theorem WellFormedEncodes.shri (gd : Guard) (d : BitVec 5) (a : BitVec 5) (i : BitVec 12) (kw : Option (BitVec 32)) : WellFormedEncodes.Statement (.shri gd d a i kw) :=
  word_encodes (op := 20) (lo := d.toNat * 131072 + a.toNat * 4096 + i.toNat) rfl (by show 1342177280 + encodeGuard gd + d.toNat * 131072 + a.toNat * 4096 + i.toNat = _; omega) (by decide) (by have := d.isLt; have := a.isLt; have := i.isLt; omega)
theorem WellFormedEncodes.sar (gd : Guard) (d : BitVec 5) (a : BitVec 5) (b : BitVec 5) : WellFormedEncodes.Statement (.sar gd d a b) :=
  word_encodes (op := 21) (lo := d.toNat * 131072 + a.toNat * 4096 + b.toNat * 128) rfl (by show 1409286144 + encodeGuard gd + d.toNat * 131072 + a.toNat * 4096 + b.toNat * 128 = _; omega) (by decide) (by have := d.isLt; have := a.isLt; have := b.isLt; omega)
theorem WellFormedEncodes.sari (gd : Guard) (d : BitVec 5) (a : BitVec 5) (i : BitVec 12) (kw : Option (BitVec 32)) : WellFormedEncodes.Statement (.sari gd d a i kw) :=
  word_encodes (op := 22) (lo := d.toNat * 131072 + a.toNat * 4096 + i.toNat) rfl (by show 1476395008 + encodeGuard gd + d.toNat * 131072 + a.toNat * 4096 + i.toNat = _; omega) (by decide) (by have := d.isLt; have := a.isLt; have := i.isLt; omega)
theorem WellFormedEncodes.cmp (gd : Guard) (d : BitVec 5) (a : BitVec 5) (b : BitVec 5) (c : BitVec 3) : WellFormedEncodes.Statement (.cmp gd d a b c) :=
  word_encodes (op := 23) (lo := d.toNat * 131072 + a.toNat * 4096 + b.toNat * 128 + c.toNat) rfl (by show 1543503872 + encodeGuard gd + d.toNat * 131072 + a.toNat * 4096 + b.toNat * 128 + c.toNat = _; omega) (by decide) (by have := d.isLt; have := a.isLt; have := b.isLt; have := c.isLt; omega)
theorem WellFormedEncodes.cmpi (gd : Guard) (c : BitVec 2) (q : BitVec 3) (a : BitVec 5) (i : BitVec 12) (kw : Option (BitVec 32)) : WellFormedEncodes.Statement (.cmpi gd c q a i kw) :=
  word_encodes (op := 24) (lo := c.toNat * 1048576 + q.toNat * 131072 + a.toNat * 4096 + i.toNat) rfl (by show 1610612736 + encodeGuard gd + c.toNat * 1048576 + q.toNat * 131072 + a.toNat * 4096 + i.toNat = _; omega) (by decide) (by have := c.isLt; have := q.isLt; have := a.isLt; have := i.isLt; omega)
theorem WellFormedEncodes.sel (gd : Guard) (d : BitVec 5) (a : BitVec 5) (b : BitVec 5) (x : BitVec 1) (k : BitVec 3) : WellFormedEncodes.Statement (.sel gd d a b x k) :=
  word_encodes (op := 25) (lo := d.toNat * 131072 + a.toNat * 4096 + b.toNat * 128 + x.toNat * 8 + k.toNat) rfl (by show 1677721600 + encodeGuard gd + d.toNat * 131072 + a.toNat * 4096 + b.toNat * 128 + x.toNat * 8 + k.toNat = _; omega) (by decide) (by have := d.isLt; have := a.isLt; have := b.isLt; have := x.isLt; have := k.isLt; omega)
theorem WellFormedEncodes.min (gd : Guard) (d : BitVec 5) (a : BitVec 5) (b : BitVec 5) : WellFormedEncodes.Statement (.min gd d a b) :=
  word_encodes (op := 26) (lo := d.toNat * 131072 + a.toNat * 4096 + b.toNat * 128) rfl (by show 1744830464 + encodeGuard gd + d.toNat * 131072 + a.toNat * 4096 + b.toNat * 128 = _; omega) (by decide) (by have := d.isLt; have := a.isLt; have := b.isLt; omega)
theorem WellFormedEncodes.max (gd : Guard) (d : BitVec 5) (a : BitVec 5) (b : BitVec 5) : WellFormedEncodes.Statement (.max gd d a b) :=
  word_encodes (op := 27) (lo := d.toNat * 131072 + a.toNat * 4096 + b.toNat * 128) rfl (by show 1811939328 + encodeGuard gd + d.toNat * 131072 + a.toNat * 4096 + b.toNat * 128 = _; omega) (by decide) (by have := d.isLt; have := a.isLt; have := b.isLt; omega)
theorem WellFormedEncodes.minu (gd : Guard) (d : BitVec 5) (a : BitVec 5) (b : BitVec 5) : WellFormedEncodes.Statement (.minu gd d a b) :=
  word_encodes (op := 28) (lo := d.toNat * 131072 + a.toNat * 4096 + b.toNat * 128) rfl (by show 1879048192 + encodeGuard gd + d.toNat * 131072 + a.toNat * 4096 + b.toNat * 128 = _; omega) (by decide) (by have := d.isLt; have := a.isLt; have := b.isLt; omega)
theorem WellFormedEncodes.maxu (gd : Guard) (d : BitVec 5) (a : BitVec 5) (b : BitVec 5) : WellFormedEncodes.Statement (.maxu gd d a b) :=
  word_encodes (op := 29) (lo := d.toNat * 131072 + a.toNat * 4096 + b.toNat * 128) rfl (by show 1946157056 + encodeGuard gd + d.toNat * 131072 + a.toNat * 4096 + b.toNat * 128 = _; omega) (by decide) (by have := d.isLt; have := a.isLt; have := b.isLt; omega)
theorem WellFormedEncodes.clz (gd : Guard) (d : BitVec 5) (a : BitVec 5) : WellFormedEncodes.Statement (.clz gd d a) :=
  word_encodes (op := 30) (lo := d.toNat * 131072 + a.toNat * 4096) rfl (by show 2013265920 + encodeGuard gd + d.toNat * 131072 + a.toNat * 4096 = _; omega) (by decide) (by have := d.isLt; have := a.isLt; omega)
theorem WellFormedEncodes.popc (gd : Guard) (d : BitVec 5) (a : BitVec 5) : WellFormedEncodes.Statement (.popc gd d a) :=
  word_encodes (op := 31) (lo := d.toNat * 131072 + a.toNat * 4096) rfl (by show 2080374784 + encodeGuard gd + d.toNat * 131072 + a.toNat * 4096 = _; omega) (by decide) (by have := d.isLt; have := a.isLt; omega)
theorem WellFormedEncodes.bfx (gd : Guard) (d : BitVec 5) (a : BitVec 5) (i : BitVec 12) (kw : Option (BitVec 32)) : WellFormedEncodes.Statement (.bfx gd d a i kw) :=
  word_encodes (op := 32) (lo := d.toNat * 131072 + a.toNat * 4096 + i.toNat) rfl (by show 2147483648 + encodeGuard gd + d.toNat * 131072 + a.toNat * 4096 + i.toNat = _; omega) (by decide) (by have := d.isLt; have := a.isLt; have := i.isLt; omega)
theorem WellFormedEncodes.bfi (gd : Guard) (d : BitVec 5) (a : BitVec 5) (i : BitVec 12) (kw : Option (BitVec 32)) : WellFormedEncodes.Statement (.bfi gd d a i kw) :=
  word_encodes (op := 33) (lo := d.toNat * 131072 + a.toNat * 4096 + i.toNat) rfl (by show 2214592512 + encodeGuard gd + d.toNat * 131072 + a.toNat * 4096 + i.toNat = _; omega) (by decide) (by have := d.isLt; have := a.isLt; have := i.isLt; omega)
theorem WellFormedEncodes.li (gd : Guard) (d : BitVec 5) (i : BitVec 17) (kw : Option (BitVec 32)) : WellFormedEncodes.Statement (.li gd d i kw) :=
  word_encodes (op := 34) (lo := d.toNat * 131072 + i.toNat) rfl (by show 2281701376 + encodeGuard gd + d.toNat * 131072 + i.toNat = _; omega) (by decide) (by have := d.isLt; have := i.isLt; omega)
theorem WellFormedEncodes.lih (gd : Guard) (d : BitVec 5) (i : BitVec 17) (kw : Option (BitVec 32)) : WellFormedEncodes.Statement (.lih gd d i kw) :=
  word_encodes (op := 35) (lo := d.toNat * 131072 + i.toNat) rfl (by show 2348810240 + encodeGuard gd + d.toNat * 131072 + i.toNat = _; omega) (by decide) (by have := d.isLt; have := i.isLt; omega)
theorem WellFormedEncodes.lea (gd : Guard) (d : BitVec 5) (a : BitVec 5) (i : BitVec 12) (kw : Option (BitVec 32)) : WellFormedEncodes.Statement (.lea gd d a i kw) :=
  word_encodes (op := 36) (lo := d.toNat * 131072 + a.toNat * 4096 + i.toNat) rfl (by show 2415919104 + encodeGuard gd + d.toNat * 131072 + a.toNat * 4096 + i.toNat = _; omega) (by decide) (by have := d.isLt; have := a.isLt; have := i.isLt; omega)
theorem WellFormedEncodes.addpc (gd : Guard) (d : BitVec 5) (i : BitVec 17) (kw : Option (BitVec 32)) : WellFormedEncodes.Statement (.addpc gd d i kw) :=
  word_encodes (op := 37) (lo := d.toNat * 131072 + i.toNat) rfl (by show 2483027968 + encodeGuard gd + d.toNat * 131072 + i.toNat = _; omega) (by decide) (by have := d.isLt; have := i.isLt; omega)
theorem WellFormedEncodes.gop (gd : Guard) (d : BitVec 5) (a : BitVec 5) (b : BitVec 5) (f : BitVec 7) : WellFormedEncodes.Statement (.gop gd d a b f) :=
  word_encodes (op := 38) (lo := d.toNat * 131072 + a.toNat * 4096 + b.toNat * 128 + f.toNat) rfl (by show 2550136832 + encodeGuard gd + d.toNat * 131072 + a.toNat * 4096 + b.toNat * 128 + f.toNat = _; omega) (by decide) (by have := d.isLt; have := a.isLt; have := b.isLt; have := f.isLt; omega)
theorem WellFormedEncodes.movs (gd : Guard) (d : BitVec 5) (i : BitVec 17) (kw : Option (BitVec 32)) : WellFormedEncodes.Statement (.movs gd d i kw) :=
  word_encodes (op := 39) (lo := d.toNat * 131072 + i.toNat) rfl (by show 2617245696 + encodeGuard gd + d.toNat * 131072 + i.toNat = _; omega) (by decide) (by have := d.isLt; have := i.isLt; omega)
theorem WellFormedEncodes.movz (gd : Guard) (d : BitVec 5) (i : BitVec 17) (kw : Option (BitVec 32)) : WellFormedEncodes.Statement (.movz gd d i kw) :=
  word_encodes (op := 40) (lo := d.toNat * 131072 + i.toNat) rfl (by show 2684354560 + encodeGuard gd + d.toNat * 131072 + i.toNat = _; omega) (by decide) (by have := d.isLt; have := i.isLt; omega)
theorem WellFormedEncodes.fadd (gd : Guard) (d : BitVec 5) (a : BitVec 5) (b : BitVec 5) (r : BitVec 4) : WellFormedEncodes.Statement (.fadd gd d a b r) :=
  word_encodes (op := 41) (lo := d.toNat * 131072 + a.toNat * 4096 + b.toNat * 128 + r.toNat) rfl (by show 2751463424 + encodeGuard gd + d.toNat * 131072 + a.toNat * 4096 + b.toNat * 128 + r.toNat = _; omega) (by decide) (by have := d.isLt; have := a.isLt; have := b.isLt; have := r.isLt; omega)
theorem WellFormedEncodes.fsub (gd : Guard) (d : BitVec 5) (a : BitVec 5) (b : BitVec 5) (r : BitVec 4) : WellFormedEncodes.Statement (.fsub gd d a b r) :=
  word_encodes (op := 42) (lo := d.toNat * 131072 + a.toNat * 4096 + b.toNat * 128 + r.toNat) rfl (by show 2818572288 + encodeGuard gd + d.toNat * 131072 + a.toNat * 4096 + b.toNat * 128 + r.toNat = _; omega) (by decide) (by have := d.isLt; have := a.isLt; have := b.isLt; have := r.isLt; omega)
theorem WellFormedEncodes.fmul (gd : Guard) (d : BitVec 5) (a : BitVec 5) (b : BitVec 5) (r : BitVec 4) : WellFormedEncodes.Statement (.fmul gd d a b r) :=
  word_encodes (op := 43) (lo := d.toNat * 131072 + a.toNat * 4096 + b.toNat * 128 + r.toNat) rfl (by show 2885681152 + encodeGuard gd + d.toNat * 131072 + a.toNat * 4096 + b.toNat * 128 + r.toNat = _; omega) (by decide) (by have := d.isLt; have := a.isLt; have := b.isLt; have := r.isLt; omega)
theorem WellFormedEncodes.fma (gd : Guard) (d : BitVec 5) (a : BitVec 5) (b : BitVec 5) (r : BitVec 4) : WellFormedEncodes.Statement (.fma gd d a b r) :=
  word_encodes (op := 44) (lo := d.toNat * 131072 + a.toNat * 4096 + b.toNat * 128 + r.toNat) rfl (by show 2952790016 + encodeGuard gd + d.toNat * 131072 + a.toNat * 4096 + b.toNat * 128 + r.toNat = _; omega) (by decide) (by have := d.isLt; have := a.isLt; have := b.isLt; have := r.isLt; omega)
theorem WellFormedEncodes.fmin (gd : Guard) (d : BitVec 5) (a : BitVec 5) (b : BitVec 5) : WellFormedEncodes.Statement (.fmin gd d a b) :=
  word_encodes (op := 45) (lo := d.toNat * 131072 + a.toNat * 4096 + b.toNat * 128) rfl (by show 3019898880 + encodeGuard gd + d.toNat * 131072 + a.toNat * 4096 + b.toNat * 128 = _; omega) (by decide) (by have := d.isLt; have := a.isLt; have := b.isLt; omega)
theorem WellFormedEncodes.fmax (gd : Guard) (d : BitVec 5) (a : BitVec 5) (b : BitVec 5) : WellFormedEncodes.Statement (.fmax gd d a b) :=
  word_encodes (op := 46) (lo := d.toNat * 131072 + a.toNat * 4096 + b.toNat * 128) rfl (by show 3087007744 + encodeGuard gd + d.toNat * 131072 + a.toNat * 4096 + b.toNat * 128 = _; omega) (by decide) (by have := d.isLt; have := a.isLt; have := b.isLt; omega)
theorem WellFormedEncodes.fcmp (gd : Guard) (d : BitVec 5) (a : BitVec 5) (b : BitVec 5) (c : BitVec 3) : WellFormedEncodes.Statement (.fcmp gd d a b c) :=
  word_encodes (op := 47) (lo := d.toNat * 131072 + a.toNat * 4096 + b.toNat * 128 + c.toNat) rfl (by show 3154116608 + encodeGuard gd + d.toNat * 131072 + a.toNat * 4096 + b.toNat * 128 + c.toNat = _; omega) (by decide) (by have := d.isLt; have := a.isLt; have := b.isLt; have := c.isLt; omega)
theorem WellFormedEncodes.fcvti (gd : Guard) (d : BitVec 5) (a : BitVec 5) (u : BitVec 1) (r : BitVec 4) : WellFormedEncodes.Statement (.fcvti gd d a u r) :=
  word_encodes (op := 48) (lo := d.toNat * 131072 + a.toNat * 4096 + u.toNat * 16 + r.toNat) rfl (by show 3221225472 + encodeGuard gd + d.toNat * 131072 + a.toNat * 4096 + u.toNat * 16 + r.toNat = _; omega) (by decide) (by have := d.isLt; have := a.isLt; have := u.isLt; have := r.isLt; omega)
theorem WellFormedEncodes.fcvtf (gd : Guard) (d : BitVec 5) (a : BitVec 5) (u : BitVec 1) (r : BitVec 4) : WellFormedEncodes.Statement (.fcvtf gd d a u r) :=
  word_encodes (op := 49) (lo := d.toNat * 131072 + a.toNat * 4096 + u.toNat * 16 + r.toNat) rfl (by show 3288334336 + encodeGuard gd + d.toNat * 131072 + a.toNat * 4096 + u.toNat * 16 + r.toNat = _; omega) (by decide) (by have := d.isLt; have := a.isLt; have := u.isLt; have := r.isLt; omega)
theorem WellFormedEncodes.pairWord (gd : Guard) (s : BitVec 4) (d : BitVec 3) (a : BitVec 3) (b : BitVec 3) (v : BitVec 4) (x : BitVec 3) (y : BitVec 3) (z : BitVec 3) : WellFormedEncodes.Statement (.pairWord gd s d a b v x y z) := by
  refine ⟨?_, fun _ _ h => absurd rfl h⟩
  have := gd.reg.isLt
  have := s.isLt
  have := d.isLt
  have := a.isLt
  have := b.isLt
  have := v.isLt
  have := x.isLt
  have := y.isLt
  have := z.isLt
  show (if gd.neg then 2147483648 else 0) + gd.reg.toNat * 268435456 + s.toNat * 16777216 + d.toNat * 2097152 + a.toNat * 262144 + b.toNat * 32768 + v.toNat * 1024 + x.toNat * 128 + y.toNat * 16 + z.toNat * 2 < 2 ^ 32
  split <;> omega
theorem WellFormedEncodes.vadd (gd : Guard) (d : BitVec 5) (a : BitVec 5) (b : BitVec 5) (e : BitVec 1) (s : BitVec 2) (z : BitVec 1) (k : BitVec 3) : WellFormedEncodes.Statement (.vadd gd d a b e s z k) :=
  word_encodes (op := 0) (lo := d.toNat * 131072 + a.toNat * 4096 + b.toNat * 128 + e.toNat * 64 + s.toNat * 16 + z.toNat * 8 + k.toNat) rfl (by show encodeGuard gd + d.toNat * 131072 + a.toNat * 4096 + b.toNat * 128 + e.toNat * 64 + s.toNat * 16 + z.toNat * 8 + k.toNat = _; omega) (by decide) (by have := d.isLt; have := a.isLt; have := b.isLt; have := e.isLt; have := s.isLt; have := z.isLt; have := k.isLt; omega)
theorem WellFormedEncodes.vsub (gd : Guard) (d : BitVec 5) (a : BitVec 5) (b : BitVec 5) (e : BitVec 1) (s : BitVec 2) (z : BitVec 1) (k : BitVec 3) : WellFormedEncodes.Statement (.vsub gd d a b e s z k) :=
  word_encodes (op := 1) (lo := d.toNat * 131072 + a.toNat * 4096 + b.toNat * 128 + e.toNat * 64 + s.toNat * 16 + z.toNat * 8 + k.toNat) rfl (by show 67108864 + encodeGuard gd + d.toNat * 131072 + a.toNat * 4096 + b.toNat * 128 + e.toNat * 64 + s.toNat * 16 + z.toNat * 8 + k.toNat = _; omega) (by decide) (by have := d.isLt; have := a.isLt; have := b.isLt; have := e.isLt; have := s.isLt; have := z.isLt; have := k.isLt; omega)
theorem WellFormedEncodes.vmul (gd : Guard) (d : BitVec 5) (a : BitVec 5) (b : BitVec 5) (e : BitVec 1) (z : BitVec 1) (k : BitVec 3) : WellFormedEncodes.Statement (.vmul gd d a b e z k) :=
  word_encodes (op := 2) (lo := d.toNat * 131072 + a.toNat * 4096 + b.toNat * 128 + e.toNat * 64 + z.toNat * 8 + k.toNat) rfl (by show 134217728 + encodeGuard gd + d.toNat * 131072 + a.toNat * 4096 + b.toNat * 128 + e.toNat * 64 + z.toNat * 8 + k.toNat = _; omega) (by decide) (by have := d.isLt; have := a.isLt; have := b.isLt; have := e.isLt; have := z.isLt; have := k.isLt; omega)
theorem WellFormedEncodes.vmulh (gd : Guard) (d : BitVec 5) (a : BitVec 5) (b : BitVec 5) (e : BitVec 1) (u : BitVec 1) (z : BitVec 1) (k : BitVec 3) : WellFormedEncodes.Statement (.vmulh gd d a b e u z k) :=
  word_encodes (op := 3) (lo := d.toNat * 131072 + a.toNat * 4096 + b.toNat * 128 + e.toNat * 64 + u.toNat * 16 + z.toNat * 8 + k.toNat) rfl (by show 201326592 + encodeGuard gd + d.toNat * 131072 + a.toNat * 4096 + b.toNat * 128 + e.toNat * 64 + u.toNat * 16 + z.toNat * 8 + k.toNat = _; omega) (by decide) (by have := d.isLt; have := a.isLt; have := b.isLt; have := e.isLt; have := u.isLt; have := z.isLt; have := k.isLt; omega)
theorem WellFormedEncodes.vmad (gd : Guard) (d : BitVec 5) (a : BitVec 5) (b : BitVec 5) (e : BitVec 1) (s : BitVec 2) (z : BitVec 1) (k : BitVec 3) : WellFormedEncodes.Statement (.vmad gd d a b e s z k) :=
  word_encodes (op := 4) (lo := d.toNat * 131072 + a.toNat * 4096 + b.toNat * 128 + e.toNat * 64 + s.toNat * 16 + z.toNat * 8 + k.toNat) rfl (by show 268435456 + encodeGuard gd + d.toNat * 131072 + a.toNat * 4096 + b.toNat * 128 + e.toNat * 64 + s.toNat * 16 + z.toNat * 8 + k.toNat = _; omega) (by decide) (by have := d.isLt; have := a.isLt; have := b.isLt; have := e.isLt; have := s.isLt; have := z.isLt; have := k.isLt; omega)
theorem WellFormedEncodes.vand (gd : Guard) (d : BitVec 5) (a : BitVec 5) (b : BitVec 5) (e : BitVec 1) (z : BitVec 1) (k : BitVec 3) : WellFormedEncodes.Statement (.vand gd d a b e z k) :=
  word_encodes (op := 5) (lo := d.toNat * 131072 + a.toNat * 4096 + b.toNat * 128 + e.toNat * 64 + z.toNat * 8 + k.toNat) rfl (by show 335544320 + encodeGuard gd + d.toNat * 131072 + a.toNat * 4096 + b.toNat * 128 + e.toNat * 64 + z.toNat * 8 + k.toNat = _; omega) (by decide) (by have := d.isLt; have := a.isLt; have := b.isLt; have := e.isLt; have := z.isLt; have := k.isLt; omega)
theorem WellFormedEncodes.vor (gd : Guard) (d : BitVec 5) (a : BitVec 5) (b : BitVec 5) (e : BitVec 1) (z : BitVec 1) (k : BitVec 3) : WellFormedEncodes.Statement (.vor gd d a b e z k) :=
  word_encodes (op := 6) (lo := d.toNat * 131072 + a.toNat * 4096 + b.toNat * 128 + e.toNat * 64 + z.toNat * 8 + k.toNat) rfl (by show 402653184 + encodeGuard gd + d.toNat * 131072 + a.toNat * 4096 + b.toNat * 128 + e.toNat * 64 + z.toNat * 8 + k.toNat = _; omega) (by decide) (by have := d.isLt; have := a.isLt; have := b.isLt; have := e.isLt; have := z.isLt; have := k.isLt; omega)
theorem WellFormedEncodes.vxor (gd : Guard) (d : BitVec 5) (a : BitVec 5) (b : BitVec 5) (e : BitVec 1) (z : BitVec 1) (k : BitVec 3) : WellFormedEncodes.Statement (.vxor gd d a b e z k) :=
  word_encodes (op := 7) (lo := d.toNat * 131072 + a.toNat * 4096 + b.toNat * 128 + e.toNat * 64 + z.toNat * 8 + k.toNat) rfl (by show 469762048 + encodeGuard gd + d.toNat * 131072 + a.toNat * 4096 + b.toNat * 128 + e.toNat * 64 + z.toNat * 8 + k.toNat = _; omega) (by decide) (by have := d.isLt; have := a.isLt; have := b.isLt; have := e.isLt; have := z.isLt; have := k.isLt; omega)
theorem WellFormedEncodes.vshl (gd : Guard) (d : BitVec 5) (a : BitVec 5) (b : BitVec 5) (e : BitVec 1) (z : BitVec 1) (k : BitVec 3) : WellFormedEncodes.Statement (.vshl gd d a b e z k) :=
  word_encodes (op := 8) (lo := d.toNat * 131072 + a.toNat * 4096 + b.toNat * 128 + e.toNat * 64 + z.toNat * 8 + k.toNat) rfl (by show 536870912 + encodeGuard gd + d.toNat * 131072 + a.toNat * 4096 + b.toNat * 128 + e.toNat * 64 + z.toNat * 8 + k.toNat = _; omega) (by decide) (by have := d.isLt; have := a.isLt; have := b.isLt; have := e.isLt; have := z.isLt; have := k.isLt; omega)
theorem WellFormedEncodes.vshr (gd : Guard) (d : BitVec 5) (a : BitVec 5) (b : BitVec 5) (e : BitVec 1) (z : BitVec 1) (k : BitVec 3) : WellFormedEncodes.Statement (.vshr gd d a b e z k) :=
  word_encodes (op := 9) (lo := d.toNat * 131072 + a.toNat * 4096 + b.toNat * 128 + e.toNat * 64 + z.toNat * 8 + k.toNat) rfl (by show 603979776 + encodeGuard gd + d.toNat * 131072 + a.toNat * 4096 + b.toNat * 128 + e.toNat * 64 + z.toNat * 8 + k.toNat = _; omega) (by decide) (by have := d.isLt; have := a.isLt; have := b.isLt; have := e.isLt; have := z.isLt; have := k.isLt; omega)
theorem WellFormedEncodes.vsar (gd : Guard) (d : BitVec 5) (a : BitVec 5) (b : BitVec 5) (e : BitVec 1) (z : BitVec 1) (k : BitVec 3) : WellFormedEncodes.Statement (.vsar gd d a b e z k) :=
  word_encodes (op := 10) (lo := d.toNat * 131072 + a.toNat * 4096 + b.toNat * 128 + e.toNat * 64 + z.toNat * 8 + k.toNat) rfl (by show 671088640 + encodeGuard gd + d.toNat * 131072 + a.toNat * 4096 + b.toNat * 128 + e.toNat * 64 + z.toNat * 8 + k.toNat = _; omega) (by decide) (by have := d.isLt; have := a.isLt; have := b.isLt; have := e.isLt; have := z.isLt; have := k.isLt; omega)
theorem WellFormedEncodes.vmin (gd : Guard) (d : BitVec 5) (a : BitVec 5) (b : BitVec 5) (e : BitVec 1) (u : BitVec 1) (z : BitVec 1) (k : BitVec 3) : WellFormedEncodes.Statement (.vmin gd d a b e u z k) :=
  word_encodes (op := 11) (lo := d.toNat * 131072 + a.toNat * 4096 + b.toNat * 128 + e.toNat * 64 + u.toNat * 16 + z.toNat * 8 + k.toNat) rfl (by show 738197504 + encodeGuard gd + d.toNat * 131072 + a.toNat * 4096 + b.toNat * 128 + e.toNat * 64 + u.toNat * 16 + z.toNat * 8 + k.toNat = _; omega) (by decide) (by have := d.isLt; have := a.isLt; have := b.isLt; have := e.isLt; have := u.isLt; have := z.isLt; have := k.isLt; omega)
theorem WellFormedEncodes.vmax (gd : Guard) (d : BitVec 5) (a : BitVec 5) (b : BitVec 5) (e : BitVec 1) (u : BitVec 1) (z : BitVec 1) (k : BitVec 3) : WellFormedEncodes.Statement (.vmax gd d a b e u z k) :=
  word_encodes (op := 12) (lo := d.toNat * 131072 + a.toNat * 4096 + b.toNat * 128 + e.toNat * 64 + u.toNat * 16 + z.toNat * 8 + k.toNat) rfl (by show 805306368 + encodeGuard gd + d.toNat * 131072 + a.toNat * 4096 + b.toNat * 128 + e.toNat * 64 + u.toNat * 16 + z.toNat * 8 + k.toNat = _; omega) (by decide) (by have := d.isLt; have := a.isLt; have := b.isLt; have := e.isLt; have := u.isLt; have := z.isLt; have := k.isLt; omega)
theorem WellFormedEncodes.vabs (gd : Guard) (d : BitVec 5) (a : BitVec 5) (f : BitVec 1) (z : BitVec 1) (k : BitVec 3) : WellFormedEncodes.Statement (.vabs gd d a f z k) :=
  word_encodes (op := 13) (lo := d.toNat * 131072 + a.toNat * 4096 + f.toNat * 16 + z.toNat * 8 + k.toNat) rfl (by show 872415232 + encodeGuard gd + d.toNat * 131072 + a.toNat * 4096 + f.toNat * 16 + z.toNat * 8 + k.toNat = _; omega) (by decide) (by have := d.isLt; have := a.isLt; have := f.isLt; have := z.isLt; have := k.isLt; omega)
theorem WellFormedEncodes.vcmp (gd : Guard) (d : BitVec 5) (a : BitVec 5) (b : BitVec 5) (c : BitVec 3) (z : BitVec 1) (k : BitVec 3) : WellFormedEncodes.Statement (.vcmp gd d a b c z k) :=
  word_encodes (op := 14) (lo := d.toNat * 131072 + a.toNat * 4096 + b.toNat * 128 + c.toNat * 16 + z.toNat * 8 + k.toNat) rfl (by show 939524096 + encodeGuard gd + d.toNat * 131072 + a.toNat * 4096 + b.toNat * 128 + c.toNat * 16 + z.toNat * 8 + k.toNat = _; omega) (by decide) (by have := d.isLt; have := a.isLt; have := b.isLt; have := c.isLt; have := z.isLt; have := k.isLt; omega)
theorem WellFormedEncodes.vsel (gd : Guard) (d : BitVec 5) (a : BitVec 5) (b : BitVec 5) (x : BitVec 1) (s : BitVec 3) : WellFormedEncodes.Statement (.vsel gd d a b x s) :=
  word_encodes (op := 15) (lo := d.toNat * 131072 + a.toNat * 4096 + b.toNat * 128 + x.toNat * 8 + s.toNat) rfl (by show 1006632960 + encodeGuard gd + d.toNat * 131072 + a.toNat * 4096 + b.toNat * 128 + x.toNat * 8 + s.toNat = _; omega) (by decide) (by have := d.isLt; have := a.isLt; have := b.isLt; have := x.isLt; have := s.isLt; omega)
theorem WellFormedEncodes.vfadd (gd : Guard) (d : BitVec 5) (a : BitVec 5) (b : BitVec 5) (r : BitVec 3) (z : BitVec 1) (k : BitVec 3) : WellFormedEncodes.Statement (.vfadd gd d a b r z k) :=
  word_encodes (op := 16) (lo := d.toNat * 131072 + a.toNat * 4096 + b.toNat * 128 + r.toNat * 16 + z.toNat * 8 + k.toNat) rfl (by show 1073741824 + encodeGuard gd + d.toNat * 131072 + a.toNat * 4096 + b.toNat * 128 + r.toNat * 16 + z.toNat * 8 + k.toNat = _; omega) (by decide) (by have := d.isLt; have := a.isLt; have := b.isLt; have := r.isLt; have := z.isLt; have := k.isLt; omega)
theorem WellFormedEncodes.vfsub (gd : Guard) (d : BitVec 5) (a : BitVec 5) (b : BitVec 5) (r : BitVec 3) (z : BitVec 1) (k : BitVec 3) : WellFormedEncodes.Statement (.vfsub gd d a b r z k) :=
  word_encodes (op := 17) (lo := d.toNat * 131072 + a.toNat * 4096 + b.toNat * 128 + r.toNat * 16 + z.toNat * 8 + k.toNat) rfl (by show 1140850688 + encodeGuard gd + d.toNat * 131072 + a.toNat * 4096 + b.toNat * 128 + r.toNat * 16 + z.toNat * 8 + k.toNat = _; omega) (by decide) (by have := d.isLt; have := a.isLt; have := b.isLt; have := r.isLt; have := z.isLt; have := k.isLt; omega)
theorem WellFormedEncodes.vfmul (gd : Guard) (d : BitVec 5) (a : BitVec 5) (b : BitVec 5) (r : BitVec 3) (z : BitVec 1) (k : BitVec 3) : WellFormedEncodes.Statement (.vfmul gd d a b r z k) :=
  word_encodes (op := 18) (lo := d.toNat * 131072 + a.toNat * 4096 + b.toNat * 128 + r.toNat * 16 + z.toNat * 8 + k.toNat) rfl (by show 1207959552 + encodeGuard gd + d.toNat * 131072 + a.toNat * 4096 + b.toNat * 128 + r.toNat * 16 + z.toNat * 8 + k.toNat = _; omega) (by decide) (by have := d.isLt; have := a.isLt; have := b.isLt; have := r.isLt; have := z.isLt; have := k.isLt; omega)
theorem WellFormedEncodes.vfma (gd : Guard) (d : BitVec 5) (a : BitVec 5) (b : BitVec 5) (r : BitVec 3) (z : BitVec 1) (k : BitVec 3) : WellFormedEncodes.Statement (.vfma gd d a b r z k) :=
  word_encodes (op := 19) (lo := d.toNat * 131072 + a.toNat * 4096 + b.toNat * 128 + r.toNat * 16 + z.toNat * 8 + k.toNat) rfl (by show 1275068416 + encodeGuard gd + d.toNat * 131072 + a.toNat * 4096 + b.toNat * 128 + r.toNat * 16 + z.toNat * 8 + k.toNat = _; omega) (by decide) (by have := d.isLt; have := a.isLt; have := b.isLt; have := r.isLt; have := z.isLt; have := k.isLt; omega)
theorem WellFormedEncodes.vfmin (gd : Guard) (d : BitVec 5) (a : BitVec 5) (b : BitVec 5) (z : BitVec 1) (k : BitVec 3) : WellFormedEncodes.Statement (.vfmin gd d a b z k) :=
  word_encodes (op := 20) (lo := d.toNat * 131072 + a.toNat * 4096 + b.toNat * 128 + z.toNat * 8 + k.toNat) rfl (by show 1342177280 + encodeGuard gd + d.toNat * 131072 + a.toNat * 4096 + b.toNat * 128 + z.toNat * 8 + k.toNat = _; omega) (by decide) (by have := d.isLt; have := a.isLt; have := b.isLt; have := z.isLt; have := k.isLt; omega)
theorem WellFormedEncodes.vfmax (gd : Guard) (d : BitVec 5) (a : BitVec 5) (b : BitVec 5) (z : BitVec 1) (k : BitVec 3) : WellFormedEncodes.Statement (.vfmax gd d a b z k) :=
  word_encodes (op := 21) (lo := d.toNat * 131072 + a.toNat * 4096 + b.toNat * 128 + z.toNat * 8 + k.toNat) rfl (by show 1409286144 + encodeGuard gd + d.toNat * 131072 + a.toNat * 4096 + b.toNat * 128 + z.toNat * 8 + k.toNat = _; omega) (by decide) (by have := d.isLt; have := a.isLt; have := b.isLt; have := z.isLt; have := k.isLt; omega)
theorem WellFormedEncodes.vfcmp (gd : Guard) (d : BitVec 5) (a : BitVec 5) (b : BitVec 5) (c : BitVec 3) (z : BitVec 1) (k : BitVec 3) : WellFormedEncodes.Statement (.vfcmp gd d a b c z k) :=
  word_encodes (op := 22) (lo := d.toNat * 131072 + a.toNat * 4096 + b.toNat * 128 + c.toNat * 16 + z.toNat * 8 + k.toNat) rfl (by show 1476395008 + encodeGuard gd + d.toNat * 131072 + a.toNat * 4096 + b.toNat * 128 + c.toNat * 16 + z.toNat * 8 + k.toNat = _; omega) (by decide) (by have := d.isLt; have := a.isLt; have := b.isLt; have := c.isLt; have := z.isLt; have := k.isLt; omega)
theorem WellFormedEncodes.vrcp (gd : Guard) (d : BitVec 5) (a : BitVec 5) (z : BitVec 1) (k : BitVec 3) : WellFormedEncodes.Statement (.vrcp gd d a z k) :=
  word_encodes (op := 23) (lo := d.toNat * 131072 + a.toNat * 4096 + z.toNat * 8 + k.toNat) rfl (by show 1543503872 + encodeGuard gd + d.toNat * 131072 + a.toNat * 4096 + z.toNat * 8 + k.toNat = _; omega) (by decide) (by have := d.isLt; have := a.isLt; have := z.isLt; have := k.isLt; omega)
theorem WellFormedEncodes.vrsq (gd : Guard) (d : BitVec 5) (a : BitVec 5) (z : BitVec 1) (k : BitVec 3) : WellFormedEncodes.Statement (.vrsq gd d a z k) :=
  word_encodes (op := 24) (lo := d.toNat * 131072 + a.toNat * 4096 + z.toNat * 8 + k.toNat) rfl (by show 1610612736 + encodeGuard gd + d.toNat * 131072 + a.toNat * 4096 + z.toNat * 8 + k.toNat = _; omega) (by decide) (by have := d.isLt; have := a.isLt; have := z.isLt; have := k.isLt; omega)
theorem WellFormedEncodes.vexp2 (gd : Guard) (d : BitVec 5) (a : BitVec 5) (z : BitVec 1) (k : BitVec 3) : WellFormedEncodes.Statement (.vexp2 gd d a z k) :=
  word_encodes (op := 25) (lo := d.toNat * 131072 + a.toNat * 4096 + z.toNat * 8 + k.toNat) rfl (by show 1677721600 + encodeGuard gd + d.toNat * 131072 + a.toNat * 4096 + z.toNat * 8 + k.toNat = _; omega) (by decide) (by have := d.isLt; have := a.isLt; have := z.isLt; have := k.isLt; omega)
theorem WellFormedEncodes.vlog2 (gd : Guard) (d : BitVec 5) (a : BitVec 5) (z : BitVec 1) (k : BitVec 3) : WellFormedEncodes.Statement (.vlog2 gd d a z k) :=
  word_encodes (op := 26) (lo := d.toNat * 131072 + a.toNat * 4096 + z.toNat * 8 + k.toNat) rfl (by show 1744830464 + encodeGuard gd + d.toNat * 131072 + a.toNat * 4096 + z.toNat * 8 + k.toNat = _; omega) (by decide) (by have := d.isLt; have := a.isLt; have := z.isLt; have := k.isLt; omega)
theorem WellFormedEncodes.vcvt (gd : Guard) (d : BitVec 5) (a : BitVec 5) (p : BitVec 5) (r : BitVec 3) (f : BitVec 4) : WellFormedEncodes.Statement (.vcvt gd d a p r f) :=
  word_encodes (op := 27) (lo := d.toNat * 131072 + a.toNat * 4096 + p.toNat * 128 + r.toNat * 16 + f.toNat) rfl (by show 1811939328 + encodeGuard gd + d.toNat * 131072 + a.toNat * 4096 + p.toNat * 128 + r.toNat * 16 + f.toNat = _; omega) (by decide) (by have := d.isLt; have := a.isLt; have := p.isLt; have := r.isLt; have := f.isLt; omega)
theorem WellFormedEncodes.vcvtWide (gd : Guard) (d : BitVec 5) (a : BitVec 5) (p : BitVec 5) (f : BitVec 4) : WellFormedEncodes.Statement (.vcvtWide gd d a p f) :=
  word_encodes (op := 27) (lo := d.toNat * 131072 + a.toNat * 4096 + p.toNat * 128 + f.toNat + 112) rfl (by show 1811939440 + encodeGuard gd + d.toNat * 131072 + a.toNat * 4096 + p.toNat * 128 + f.toNat = _; omega) (by decide) (by have := d.isLt; have := a.isLt; have := p.isLt; have := f.isLt; omega)
theorem WellFormedEncodes.vqnt (gd : Guard) (d : BitVec 5) (a : BitVec 5) (b : BitVec 5) (r : BitVec 3) (h : BitVec 1) (f : BitVec 3) : WellFormedEncodes.Statement (.vqnt gd d a b r h f) :=
  word_encodes (op := 28) (lo := d.toNat * 131072 + a.toNat * 4096 + b.toNat * 128 + r.toNat * 16 + h.toNat * 8 + f.toNat) rfl (by show 1879048192 + encodeGuard gd + d.toNat * 131072 + a.toNat * 4096 + b.toNat * 128 + r.toNat * 16 + h.toNat * 8 + f.toNat = _; omega) (by decide) (by have := d.isLt; have := a.isLt; have := b.isLt; have := r.isLt; have := h.isLt; have := f.isLt; omega)
theorem WellFormedEncodes.vdqnt (gd : Guard) (d : BitVec 5) (a : BitVec 5) (b : BitVec 5) (r : BitVec 3) (h : BitVec 1) (f : BitVec 3) : WellFormedEncodes.Statement (.vdqnt gd d a b r h f) :=
  word_encodes (op := 29) (lo := d.toNat * 131072 + a.toNat * 4096 + b.toNat * 128 + r.toNat * 16 + h.toNat * 8 + f.toNat) rfl (by show 1946157056 + encodeGuard gd + d.toNat * 131072 + a.toNat * 4096 + b.toNat * 128 + r.toNat * 16 + h.toNat * 8 + f.toNat = _; omega) (by decide) (by have := d.isLt; have := a.isLt; have := b.isLt; have := r.isLt; have := h.isLt; have := f.isLt; omega)
theorem WellFormedEncodes.vbsc (gd : Guard) (d : BitVec 5) (a : BitVec 5) (h : BitVec 1) (f : BitVec 3) : WellFormedEncodes.Statement (.vbsc gd d a h f) :=
  word_encodes (op := 30) (lo := d.toNat * 131072 + a.toNat * 4096 + h.toNat * 8 + f.toNat) rfl (by show 2013265920 + encodeGuard gd + d.toNat * 131072 + a.toNat * 4096 + h.toNat * 8 + f.toNat = _; omega) (by decide) (by have := d.isLt; have := a.isLt; have := h.isLt; have := f.isLt; omega)
theorem WellFormedEncodes.vperm (gd : Guard) (d : BitVec 5) (a : BitVec 5) (b : BitVec 5) (z : BitVec 1) (k : BitVec 3) : WellFormedEncodes.Statement (.vperm gd d a b z k) :=
  word_encodes (op := 31) (lo := d.toNat * 131072 + a.toNat * 4096 + b.toNat * 128 + z.toNat * 8 + k.toNat) rfl (by show 2080374784 + encodeGuard gd + d.toNat * 131072 + a.toNat * 4096 + b.toNat * 128 + z.toNat * 8 + k.toNat = _; omega) (by decide) (by have := d.isLt; have := a.isLt; have := b.isLt; have := z.isLt; have := k.isLt; omega)
theorem WellFormedEncodes.vbcast (gd : Guard) (d : BitVec 5) (a : BitVec 5) (b : BitVec 5) (l : BitVec 1) (z : BitVec 1) (k : BitVec 3) : WellFormedEncodes.Statement (.vbcast gd d a b l z k) :=
  word_encodes (op := 32) (lo := d.toNat * 131072 + a.toNat * 4096 + b.toNat * 128 + l.toNat * 16 + z.toNat * 8 + k.toNat) rfl (by show 2147483648 + encodeGuard gd + d.toNat * 131072 + a.toNat * 4096 + b.toNat * 128 + l.toNat * 16 + z.toNat * 8 + k.toNat = _; omega) (by decide) (by have := d.isLt; have := a.isLt; have := b.isLt; have := l.isLt; have := z.isLt; have := k.isLt; omega)
theorem WellFormedEncodes.vslide (gd : Guard) (d : BitVec 5) (a : BitVec 5) (r : BitVec 1) (s : BitVec 6) : WellFormedEncodes.Statement (.vslide gd d a r s) :=
  word_encodes (op := 33) (lo := d.toNat * 131072 + a.toNat * 4096 + r.toNat * 64 + s.toNat) rfl (by show 2214592512 + encodeGuard gd + d.toNat * 131072 + a.toNat * 4096 + r.toNat * 64 + s.toNat = _; omega) (by decide) (by have := d.isLt; have := a.isLt; have := r.isLt; have := s.isLt; omega)
theorem WellFormedEncodes.vred (gd : Guard) (d : BitVec 5) (a : BitVec 5) (p : BitVec 4) (k : BitVec 3) : WellFormedEncodes.Statement (.vred gd d a p k) :=
  word_encodes (op := 34) (lo := d.toNat * 131072 + a.toNat * 4096 + p.toNat * 8 + k.toNat) rfl (by show 2281701376 + encodeGuard gd + d.toNat * 131072 + a.toNat * 4096 + p.toNat * 8 + k.toNat = _; omega) (by decide) (by have := d.isLt; have := a.isLt; have := p.isLt; have := k.isLt; omega)
theorem WellFormedEncodes.vscan (gd : Guard) (d : BitVec 5) (a : BitVec 5) (x : BitVec 1) (p : BitVec 4) (k : BitVec 3) : WellFormedEncodes.Statement (.vscan gd d a x p k) :=
  word_encodes (op := 35) (lo := d.toNat * 131072 + a.toNat * 4096 + x.toNat * 128 + p.toNat * 8 + k.toNat) rfl (by show 2348810240 + encodeGuard gd + d.toNat * 131072 + a.toNat * 4096 + x.toNat * 128 + p.toNat * 8 + k.toNat = _; omega) (by decide) (by have := d.isLt; have := a.isLt; have := x.isLt; have := p.isLt; have := k.isLt; omega)
theorem WellFormedEncodes.viota (gd : Guard) (d : BitVec 5) (a : BitVec 5) (i : BitVec 12) (kw : Option (BitVec 32)) : WellFormedEncodes.Statement (.viota gd d a i kw) :=
  word_encodes (op := 36) (lo := d.toNat * 131072 + a.toNat * 4096 + i.toNat) rfl (by show 2415919104 + encodeGuard gd + d.toNat * 131072 + a.toNat * 4096 + i.toNat = _; omega) (by decide) (by have := d.isLt; have := a.isLt; have := i.isLt; omega)
theorem WellFormedEncodes.vmop (gd : Guard) (d : BitVec 5) (a : BitVec 5) (b : BitVec 5) (f : BitVec 7) : WellFormedEncodes.Statement (.vmop gd d a b f) :=
  word_encodes (op := 37) (lo := d.toNat * 131072 + a.toNat * 4096 + b.toNat * 128 + f.toNat) rfl (by show 2483027968 + encodeGuard gd + d.toNat * 131072 + a.toNat * 4096 + b.toNat * 128 + f.toNat = _; omega) (by decide) (by have := d.isLt; have := a.isLt; have := b.isLt; have := f.isLt; omega)
theorem WellFormedEncodes.vmpopPopc (gd : Guard) (d : BitVec 5) (a : BitVec 5) : WellFormedEncodes.Statement (.vmpopPopc gd d a) :=
  word_encodes (op := 38) (lo := d.toNat * 131072 + a.toNat * 4096) rfl (by show 2550136832 + encodeGuard gd + d.toNat * 131072 + a.toNat * 4096 = _; omega) (by decide) (by have := d.isLt; have := a.isLt; omega)
theorem WellFormedEncodes.vmpopFfs (gd : Guard) (d : BitVec 5) (a : BitVec 5) : WellFormedEncodes.Statement (.vmpopFfs gd d a) :=
  word_encodes (op := 38) (lo := d.toNat * 131072 + a.toNat * 4096 + 1) rfl (by show 2550136833 + encodeGuard gd + d.toNat * 131072 + a.toNat * 4096 = _; omega) (by decide) (by have := d.isLt; have := a.isLt; omega)
theorem WellFormedEncodes.vmpopGet (gd : Guard) (d : BitVec 5) (a : BitVec 5) : WellFormedEncodes.Statement (.vmpopGet gd d a) :=
  word_encodes (op := 38) (lo := d.toNat * 131072 + a.toNat * 4096 + 2) rfl (by show 2550136834 + encodeGuard gd + d.toNat * 131072 + a.toNat * 4096 = _; omega) (by decide) (by have := d.isLt; have := a.isLt; omega)
theorem WellFormedEncodes.vmpopSet (gd : Guard) (d : BitVec 5) (a : BitVec 5) : WellFormedEncodes.Statement (.vmpopSet gd d a) :=
  word_encodes (op := 38) (lo := d.toNat * 131072 + a.toNat * 4096 + 3) rfl (by show 2550136835 + encodeGuard gd + d.toNat * 131072 + a.toNat * 4096 = _; omega) (by decide) (by have := d.isLt; have := a.isLt; omega)
theorem WellFormedEncodes.vrng (gd : Guard) (d : BitVec 5) (t : BitVec 2) (z : BitVec 1) (k : BitVec 3) : WellFormedEncodes.Statement (.vrng gd d t z k) :=
  word_encodes (op := 39) (lo := d.toNat * 131072 + t.toNat * 16 + z.toNat * 8 + k.toNat) rfl (by show 2617245696 + encodeGuard gd + d.toNat * 131072 + t.toNat * 16 + z.toNat * 8 + k.toNat = _; omega) (by decide) (by have := d.isLt; have := t.isLt; have := z.isLt; have := k.isLt; omega)
theorem WellFormedEncodes.vprune (gd : Guard) (d : BitVec 5) (a : BitVec 5) (b : BitVec 5) (z : BitVec 1) (k : BitVec 3) : WellFormedEncodes.Statement (.vprune gd d a b z k) :=
  word_encodes (op := 40) (lo := d.toNat * 131072 + a.toNat * 4096 + b.toNat * 128 + z.toNat * 8 + k.toNat) rfl (by show 2684354560 + encodeGuard gd + d.toNat * 131072 + a.toNat * 4096 + b.toNat * 128 + z.toNat * 8 + k.toNat = _; omega) (by decide) (by have := d.isLt; have := a.isLt; have := b.isLt; have := z.isLt; have := k.isLt; omega)
theorem WellFormedEncodes.vnm (gd : Guard) (d : BitVec 5) (a : BitVec 5) (b : BitVec 5) (i : BitVec 1) (s : BitVec 2) : WellFormedEncodes.Statement (.vnm gd d a b i s) :=
  word_encodes (op := 41) (lo := d.toNat * 131072 + a.toNat * 4096 + b.toNat * 128 + i.toNat * 64 + s.toNat * 16) rfl (by show 2751463424 + encodeGuard gd + d.toNat * 131072 + a.toNat * 4096 + b.toNat * 128 + i.toNat * 64 + s.toNat * 16 = _; omega) (by decide) (by have := d.isLt; have := a.isLt; have := b.isLt; have := i.isLt; have := s.isLt; omega)
theorem WellFormedEncodes.vmovs (gd : Guard) (d : BitVec 5) (a : BitVec 5) (u : BitVec 1) (l : BitVec 5) : WellFormedEncodes.Statement (.vmovs gd d a u l) :=
  word_encodes (op := 42) (lo := d.toNat * 131072 + a.toNat * 4096 + u.toNat * 32 + l.toNat) rfl (by show 2818572288 + encodeGuard gd + d.toNat * 131072 + a.toNat * 4096 + u.toNat * 32 + l.toNat = _; omega) (by decide) (by have := d.isLt; have := a.isLt; have := u.isLt; have := l.isLt; omega)
theorem WellFormedEncodes.vins (gd : Guard) (d : BitVec 5) (a : BitVec 5) (l : BitVec 5) : WellFormedEncodes.Statement (.vins gd d a l) :=
  word_encodes (op := 43) (lo := d.toNat * 131072 + a.toNat * 4096 + l.toNat) rfl (by show 2885681152 + encodeGuard gd + d.toNat * 131072 + a.toNat * 4096 + l.toNat = _; omega) (by decide) (by have := d.isLt; have := a.isLt; have := l.isLt; omega)
theorem WellFormedEncodes.ldB (gd : Guard) (d : BitVec 5) (b : BitVec 5) (i : BitVec 12) (kw : Option (BitVec 32)) : WellFormedEncodes.Statement (.ldB gd d b i kw) :=
  word_encodes (op := 0) (lo := d.toNat * 131072 + b.toNat * 4096 + i.toNat) rfl (by show encodeGuard gd + d.toNat * 131072 + b.toNat * 4096 + i.toNat = _; omega) (by decide) (by have := d.isLt; have := b.isLt; have := i.isLt; omega)
theorem WellFormedEncodes.ldH (gd : Guard) (d : BitVec 5) (b : BitVec 5) (i : BitVec 12) (kw : Option (BitVec 32)) : WellFormedEncodes.Statement (.ldH gd d b i kw) :=
  word_encodes (op := 1) (lo := d.toNat * 131072 + b.toNat * 4096 + i.toNat) rfl (by show 67108864 + encodeGuard gd + d.toNat * 131072 + b.toNat * 4096 + i.toNat = _; omega) (by decide) (by have := d.isLt; have := b.isLt; have := i.isLt; omega)
theorem WellFormedEncodes.ldW (gd : Guard) (d : BitVec 5) (b : BitVec 5) (i : BitVec 12) (kw : Option (BitVec 32)) : WellFormedEncodes.Statement (.ldW gd d b i kw) :=
  word_encodes (op := 2) (lo := d.toNat * 131072 + b.toNat * 4096 + i.toNat) rfl (by show 134217728 + encodeGuard gd + d.toNat * 131072 + b.toNat * 4096 + i.toNat = _; omega) (by decide) (by have := d.isLt; have := b.isLt; have := i.isLt; omega)
theorem WellFormedEncodes.ldD (gd : Guard) (d : BitVec 5) (b : BitVec 5) (i : BitVec 12) (kw : Option (BitVec 32)) : WellFormedEncodes.Statement (.ldD gd d b i kw) :=
  word_encodes (op := 3) (lo := d.toNat * 131072 + b.toNat * 4096 + i.toNat) rfl (by show 201326592 + encodeGuard gd + d.toNat * 131072 + b.toNat * 4096 + i.toNat = _; omega) (by decide) (by have := d.isLt; have := b.isLt; have := i.isLt; omega)
theorem WellFormedEncodes.lduB (gd : Guard) (d : BitVec 5) (b : BitVec 5) (i : BitVec 12) (kw : Option (BitVec 32)) : WellFormedEncodes.Statement (.lduB gd d b i kw) :=
  word_encodes (op := 4) (lo := d.toNat * 131072 + b.toNat * 4096 + i.toNat) rfl (by show 268435456 + encodeGuard gd + d.toNat * 131072 + b.toNat * 4096 + i.toNat = _; omega) (by decide) (by have := d.isLt; have := b.isLt; have := i.isLt; omega)
theorem WellFormedEncodes.lduH (gd : Guard) (d : BitVec 5) (b : BitVec 5) (i : BitVec 12) (kw : Option (BitVec 32)) : WellFormedEncodes.Statement (.lduH gd d b i kw) :=
  word_encodes (op := 5) (lo := d.toNat * 131072 + b.toNat * 4096 + i.toNat) rfl (by show 335544320 + encodeGuard gd + d.toNat * 131072 + b.toNat * 4096 + i.toNat = _; omega) (by decide) (by have := d.isLt; have := b.isLt; have := i.isLt; omega)
theorem WellFormedEncodes.lduW (gd : Guard) (d : BitVec 5) (b : BitVec 5) (i : BitVec 12) (kw : Option (BitVec 32)) : WellFormedEncodes.Statement (.lduW gd d b i kw) :=
  word_encodes (op := 6) (lo := d.toNat * 131072 + b.toNat * 4096 + i.toNat) rfl (by show 402653184 + encodeGuard gd + d.toNat * 131072 + b.toNat * 4096 + i.toNat = _; omega) (by decide) (by have := d.isLt; have := b.isLt; have := i.isLt; omega)
theorem WellFormedEncodes.stB (gd : Guard) (d : BitVec 5) (b : BitVec 5) (i : BitVec 12) (kw : Option (BitVec 32)) : WellFormedEncodes.Statement (.stB gd d b i kw) :=
  word_encodes (op := 7) (lo := d.toNat * 131072 + b.toNat * 4096 + i.toNat) rfl (by show 469762048 + encodeGuard gd + d.toNat * 131072 + b.toNat * 4096 + i.toNat = _; omega) (by decide) (by have := d.isLt; have := b.isLt; have := i.isLt; omega)
theorem WellFormedEncodes.stH (gd : Guard) (d : BitVec 5) (b : BitVec 5) (i : BitVec 12) (kw : Option (BitVec 32)) : WellFormedEncodes.Statement (.stH gd d b i kw) :=
  word_encodes (op := 8) (lo := d.toNat * 131072 + b.toNat * 4096 + i.toNat) rfl (by show 536870912 + encodeGuard gd + d.toNat * 131072 + b.toNat * 4096 + i.toNat = _; omega) (by decide) (by have := d.isLt; have := b.isLt; have := i.isLt; omega)
theorem WellFormedEncodes.stW (gd : Guard) (d : BitVec 5) (b : BitVec 5) (i : BitVec 12) (kw : Option (BitVec 32)) : WellFormedEncodes.Statement (.stW gd d b i kw) :=
  word_encodes (op := 9) (lo := d.toNat * 131072 + b.toNat * 4096 + i.toNat) rfl (by show 603979776 + encodeGuard gd + d.toNat * 131072 + b.toNat * 4096 + i.toNat = _; omega) (by decide) (by have := d.isLt; have := b.isLt; have := i.isLt; omega)
theorem WellFormedEncodes.stD (gd : Guard) (d : BitVec 5) (b : BitVec 5) (i : BitVec 12) (kw : Option (BitVec 32)) : WellFormedEncodes.Statement (.stD gd d b i kw) :=
  word_encodes (op := 10) (lo := d.toNat * 131072 + b.toNat * 4096 + i.toNat) rfl (by show 671088640 + encodeGuard gd + d.toNat * 131072 + b.toNat * 4096 + i.toNat = _; omega) (by decide) (by have := d.isLt; have := b.isLt; have := i.isLt; omega)
theorem WellFormedEncodes.ldv (gd : Guard) (d : BitVec 5) (b : BitVec 5) (i : BitVec 12) (kw : Option (BitVec 32)) : WellFormedEncodes.Statement (.ldv gd d b i kw) :=
  word_encodes (op := 11) (lo := d.toNat * 131072 + b.toNat * 4096 + i.toNat) rfl (by show 738197504 + encodeGuard gd + d.toNat * 131072 + b.toNat * 4096 + i.toNat = _; omega) (by decide) (by have := d.isLt; have := b.isLt; have := i.isLt; omega)
theorem WellFormedEncodes.stv (gd : Guard) (d : BitVec 5) (b : BitVec 5) (i : BitVec 12) (kw : Option (BitVec 32)) : WellFormedEncodes.Statement (.stv gd d b i kw) :=
  word_encodes (op := 12) (lo := d.toNat * 131072 + b.toNat * 4096 + i.toNat) rfl (by show 805306368 + encodeGuard gd + d.toNat * 131072 + b.toNat * 4096 + i.toNat = _; omega) (by decide) (by have := d.isLt; have := b.isLt; have := i.isLt; omega)
theorem WellFormedEncodes.ldvs (gd : Guard) (d : BitVec 5) (a : BitVec 5) (b : BitVec 5) (z : BitVec 1) (k : BitVec 3) : WellFormedEncodes.Statement (.ldvs gd d a b z k) :=
  word_encodes (op := 13) (lo := d.toNat * 131072 + a.toNat * 4096 + b.toNat * 128 + z.toNat * 8 + k.toNat) rfl (by show 872415232 + encodeGuard gd + d.toNat * 131072 + a.toNat * 4096 + b.toNat * 128 + z.toNat * 8 + k.toNat = _; omega) (by decide) (by have := d.isLt; have := a.isLt; have := b.isLt; have := z.isLt; have := k.isLt; omega)
theorem WellFormedEncodes.stvs (gd : Guard) (d : BitVec 5) (a : BitVec 5) (b : BitVec 5) (k : BitVec 3) : WellFormedEncodes.Statement (.stvs gd d a b k) :=
  word_encodes (op := 14) (lo := d.toNat * 131072 + a.toNat * 4096 + b.toNat * 128 + k.toNat) rfl (by show 939524096 + encodeGuard gd + d.toNat * 131072 + a.toNat * 4096 + b.toNat * 128 + k.toNat = _; omega) (by decide) (by have := d.isLt; have := a.isLt; have := b.isLt; have := k.isLt; omega)
theorem WellFormedEncodes.ldvx (gd : Guard) (d : BitVec 5) (a : BitVec 5) (b : BitVec 5) (z : BitVec 1) (k : BitVec 3) : WellFormedEncodes.Statement (.ldvx gd d a b z k) :=
  word_encodes (op := 15) (lo := d.toNat * 131072 + a.toNat * 4096 + b.toNat * 128 + z.toNat * 8 + k.toNat) rfl (by show 1006632960 + encodeGuard gd + d.toNat * 131072 + a.toNat * 4096 + b.toNat * 128 + z.toNat * 8 + k.toNat = _; omega) (by decide) (by have := d.isLt; have := a.isLt; have := b.isLt; have := z.isLt; have := k.isLt; omega)
theorem WellFormedEncodes.stvx (gd : Guard) (d : BitVec 5) (a : BitVec 5) (b : BitVec 5) (k : BitVec 3) : WellFormedEncodes.Statement (.stvx gd d a b k) :=
  word_encodes (op := 16) (lo := d.toNat * 131072 + a.toNat * 4096 + b.toNat * 128 + k.toNat) rfl (by show 1073741824 + encodeGuard gd + d.toNat * 131072 + a.toNat * 4096 + b.toNat * 128 + k.toNat = _; omega) (by decide) (by have := d.isLt; have := a.isLt; have := b.isLt; have := k.isLt; omega)
theorem WellFormedEncodes.lda (gd : Guard) (d : BitVec 5) (a : BitVec 5) (w : BitVec 1) (s : BitVec 3) (o : BitVec 3) : WellFormedEncodes.Statement (.lda gd d a w s o) :=
  word_encodes (op := 17) (lo := d.toNat * 131072 + a.toNat * 4096 + w.toNat * 64 + s.toNat * 8 + o.toNat) rfl (by show 1140850688 + encodeGuard gd + d.toNat * 131072 + a.toNat * 4096 + w.toNat * 64 + s.toNat * 8 + o.toNat = _; omega) (by decide) (by have := d.isLt; have := a.isLt; have := w.isLt; have := s.isLt; have := o.isLt; omega)
theorem WellFormedEncodes.sta (gd : Guard) (d : BitVec 5) (a : BitVec 5) (w : BitVec 1) (s : BitVec 3) (o : BitVec 3) : WellFormedEncodes.Statement (.sta gd d a w s o) :=
  word_encodes (op := 18) (lo := d.toNat * 131072 + a.toNat * 4096 + w.toNat * 64 + s.toNat * 8 + o.toNat) rfl (by show 1207959552 + encodeGuard gd + d.toNat * 131072 + a.toNat * 4096 + w.toNat * 64 + s.toNat * 8 + o.toNat = _; omega) (by decide) (by have := d.isLt; have := a.isLt; have := w.isLt; have := s.isLt; have := o.isLt; omega)
theorem WellFormedEncodes.amo (gd : Guard) (d : BitVec 5) (a : BitVec 5) (w : BitVec 1) (s : BitVec 3) (p : BitVec 4) (o : BitVec 3) : WellFormedEncodes.Statement (.amo gd d a w s p o) :=
  word_encodes (op := 19) (lo := d.toNat * 131072 + a.toNat * 4096 + w.toNat * 1024 + s.toNat * 128 + p.toNat * 8 + o.toNat) rfl (by show 1275068416 + encodeGuard gd + d.toNat * 131072 + a.toNat * 4096 + w.toNat * 1024 + s.toNat * 128 + p.toNat * 8 + o.toNat = _; omega) (by decide) (by have := d.isLt; have := a.isLt; have := w.isLt; have := s.isLt; have := p.isLt; have := o.isLt; omega)
theorem WellFormedEncodes.cas (gd : Guard) (d : BitVec 5) (a : BitVec 5) (b : BitVec 5) (w : BitVec 1) (s : BitVec 3) (o : BitVec 3) : WellFormedEncodes.Statement (.cas gd d a b w s o) :=
  word_encodes (op := 20) (lo := d.toNat * 131072 + a.toNat * 4096 + b.toNat * 128 + w.toNat * 64 + s.toNat * 8 + o.toNat) rfl (by show 1342177280 + encodeGuard gd + d.toNat * 131072 + a.toNat * 4096 + b.toNat * 128 + w.toNat * 64 + s.toNat * 8 + o.toNat = _; omega) (by decide) (by have := d.isLt; have := a.isLt; have := b.isLt; have := w.isLt; have := s.isLt; have := o.isLt; omega)
theorem WellFormedEncodes.vamo (gd : Guard) (d : BitVec 5) (a : BitVec 5) (b : BitVec 5) (s : BitVec 3) (o : BitVec 4) : WellFormedEncodes.Statement (.vamo gd d a b s o) :=
  word_encodes (op := 21) (lo := d.toNat * 131072 + a.toNat * 4096 + b.toNat * 128 + s.toNat * 16 + o.toNat) rfl (by show 1409286144 + encodeGuard gd + d.toNat * 131072 + a.toNat * 4096 + b.toNat * 128 + s.toNat * 16 + o.toNat = _; omega) (by decide) (by have := d.isLt; have := a.isLt; have := b.isLt; have := s.isLt; have := o.isLt; omega)
theorem WellFormedEncodes.fence (gd : Guard) (s : BitVec 3) (o : BitVec 3) : WellFormedEncodes.Statement (.fence gd s o) :=
  word_encodes (op := 22) (lo := s.toNat * 8 + o.toNat) rfl (by show 1476395008 + encodeGuard gd + s.toNat * 8 + o.toNat = _; omega) (by decide) (by have := s.isLt; have := o.isLt; omega)
theorem WellFormedEncodes.tld (gd : Guard) (d : BitVec 5) (a : BitVec 5) (b : BitVec 5) (t : BitVec 1) (x : BitVec 1) (y : BitVec 1) : WellFormedEncodes.Statement (.tld gd d a b t x y) :=
  word_encodes (op := 23) (lo := d.toNat * 131072 + a.toNat * 4096 + b.toNat * 128 + t.toNat * 4 + x.toNat * 2 + y.toNat) rfl (by show 1543503872 + encodeGuard gd + d.toNat * 131072 + a.toNat * 4096 + b.toNat * 128 + t.toNat * 4 + x.toNat * 2 + y.toNat = _; omega) (by decide) (by have := d.isLt; have := a.isLt; have := b.isLt; have := t.isLt; have := x.isLt; have := y.isLt; omega)
theorem WellFormedEncodes.tlda (gd : Guard) (t : BitVec 4) (a : BitVec 5) (b : BitVec 5) (p : BitVec 1) (f : BitVec 3) : WellFormedEncodes.Statement (.tlda gd t a b p f) :=
  word_encodes (op := 24) (lo := t.toNat * 131072 + a.toNat * 4096 + b.toNat * 128 + p.toNat * 64 + f.toNat) rfl (by show 1610612736 + encodeGuard gd + t.toNat * 131072 + a.toNat * 4096 + b.toNat * 128 + p.toNat * 64 + f.toNat = _; omega) (by decide) (by have := t.isLt; have := a.isLt; have := b.isLt; have := p.isLt; have := f.isLt; omega)
theorem WellFormedEncodes.tst (gd : Guard) (t : BitVec 4) (a : BitVec 5) (b : BitVec 5) (p : BitVec 1) (r : BitVec 3) (f : BitVec 3) : WellFormedEncodes.Statement (.tst gd t a b p r f) :=
  word_encodes (op := 25) (lo := t.toNat * 131072 + a.toNat * 4096 + b.toNat * 128 + p.toNat * 64 + r.toNat * 8 + f.toNat) rfl (by show 1677721600 + encodeGuard gd + t.toNat * 131072 + a.toNat * 4096 + b.toNat * 128 + p.toNat * 64 + r.toNat * 8 + f.toNat = _; omega) (by decide) (by have := t.isLt; have := a.isLt; have := b.isLt; have := p.isLt; have := r.isLt; have := f.isLt; omega)
theorem WellFormedEncodes.mcall (gd : Guard) (v : BitVec 5) (q : BitVec 3) (x : BitVec 3) (w : BitVec 1) (p : BitVec 1) (r : BitVec 6) : WellFormedEncodes.Statement (.mcall gd v q x w p r) :=
  word_encodes (op := 0) (lo := v.toNat * 131072 + q.toNat * 4096 + x.toNat * 256 + w.toNat * 128 + p.toNat * 64 + r.toNat) rfl (by show encodeGuard gd + v.toNat * 131072 + q.toNat * 4096 + x.toNat * 256 + w.toNat * 128 + p.toNat * 64 + r.toNat = _; omega) (by decide) (by have := v.isLt; have := q.isLt; have := x.isLt; have := w.isLt; have := p.isLt; have := r.isLt; omega)
theorem WellFormedEncodes.mcallEngineStart (tid : Nat) : WellFormedEncodes.Statement (.mcallEngineStart tid) := ⟨Nat.two_pow_pos 32, fun _ h _ => by cases h⟩
theorem WellFormedEncodes.mcallRetire (tid : Nat) : WellFormedEncodes.Statement (.mcallRetire tid) := ⟨Nat.two_pow_pos 32, fun _ h _ => by cases h⟩
theorem WellFormedEncodes.routineStop (tid : Nat) (e : RoutineFault) : WellFormedEncodes.Statement (.routineStop tid e) := ⟨Nat.two_pow_pos 32, fun _ h _ => by cases h⟩
theorem WellFormedEncodes.msetp (gd : Guard) (d : BitVec 5) (a : BitVec 5) (h : BitVec 1) (y : BitVec 2) : WellFormedEncodes.Statement (.msetp gd d a h y) :=
  word_encodes (op := 1) (lo := d.toNat * 131072 + a.toNat * 4096 + h.toNat * 4 + y.toNat) rfl (by show 67108864 + encodeGuard gd + d.toNat * 131072 + a.toNat * 4096 + h.toNat * 4 + y.toNat = _; omega) (by decide) (by have := d.isLt; have := a.isLt; have := h.isLt; have := y.isLt; omega)
theorem WellFormedEncodes.mgetp (gd : Guard) (d : BitVec 5) (a : BitVec 5) : WellFormedEncodes.Statement (.mgetp gd d a) :=
  word_encodes (op := 2) (lo := d.toNat * 131072 + a.toNat * 4096) rfl (by show 134217728 + encodeGuard gd + d.toNat * 131072 + a.toNat * 4096 = _; omega) (by decide) (by have := d.isLt; have := a.isLt; omega)
theorem WellFormedEncodes.mclaim (gd : Guard) (d : BitVec 5) (a : BitVec 5) (t : BitVec 1) : WellFormedEncodes.Statement (.mclaim gd d a t) :=
  word_encodes (op := 3) (lo := d.toNat * 131072 + a.toNat * 4096 + t.toNat) rfl (by show 201326592 + encodeGuard gd + d.toNat * 131072 + a.toNat * 4096 + t.toNat = _; omega) (by decide) (by have := d.isLt; have := a.isLt; have := t.isLt; omega)
theorem WellFormedEncodes.mrel (gd : Guard) (a : BitVec 5) (t : BitVec 1) : WellFormedEncodes.Statement (.mrel gd a t) :=
  word_encodes (op := 4) (lo := a.toNat * 4096 + t.toNat) rfl (by show 268435456 + encodeGuard gd + a.toNat * 4096 + t.toNat = _; omega) (by decide) (by have := a.isLt; have := t.isLt; omega)
theorem WellFormedEncodes.mzero (gd : Guard) (t : BitVec 4) (a : BitVec 5) (b : BitVec 5) (p : BitVec 1) (j : BitVec 2) (i : BitVec 1) : WellFormedEncodes.Statement (.mzero gd t a b p j i) :=
  word_encodes (op := 5) (lo := t.toNat * 131072 + a.toNat * 4096 + b.toNat * 128 + p.toNat * 8 + j.toNat * 2 + i.toNat) rfl (by show 335544320 + encodeGuard gd + t.toNat * 131072 + a.toNat * 4096 + b.toNat * 128 + p.toNat * 8 + j.toNat * 2 + i.toNat = _; omega) (by decide) (by have := t.isLt; have := a.isLt; have := b.isLt; have := p.isLt; have := j.isLt; have := i.isLt; omega)
theorem WellFormedEncodes.mnorm (gd : Guard) (t : BitVec 4) (a : BitVec 5) (b : BitVec 5) (p : BitVec 1) (x : BitVec 1) : WellFormedEncodes.Statement (.mnorm gd t a b p x) :=
  word_encodes (op := 6) (lo := t.toNat * 131072 + a.toNat * 4096 + b.toNat * 128 + p.toNat * 8 + x.toNat) rfl (by show 402653184 + encodeGuard gd + t.toNat * 131072 + a.toNat * 4096 + b.toNat * 128 + p.toNat * 8 + x.toNat = _; omega) (by decide) (by have := t.isLt; have := a.isLt; have := b.isLt; have := p.isLt; have := x.isLt; omega)
theorem WellFormedEncodes.mrdrow (gd : Guard) (d : BitVec 5) (t : BitVec 4) (b : BitVec 5) (r : BitVec 3) (f : BitVec 2) : WellFormedEncodes.Statement (.mrdrow gd d t b r f) :=
  word_encodes (op := 7) (lo := d.toNat * 131072 + t.toNat * 4096 + b.toNat * 128 + r.toNat * 4 + f.toNat) rfl (by show 469762048 + encodeGuard gd + d.toNat * 131072 + t.toNat * 4096 + b.toNat * 128 + r.toNat * 4 + f.toNat = _; omega) (by decide) (by have := d.isLt; have := t.isLt; have := b.isLt; have := r.isLt; have := f.isLt; omega)
theorem WellFormedEncodes.mwrrow (gd : Guard) (d : BitVec 5) (t : BitVec 4) (b : BitVec 5) (f : BitVec 2) : WellFormedEncodes.Statement (.mwrrow gd d t b f) :=
  word_encodes (op := 8) (lo := d.toNat * 131072 + t.toNat * 4096 + b.toNat * 128 + f.toNat) rfl (by show 536870912 + encodeGuard gd + d.toNat * 131072 + t.toNat * 4096 + b.toNat * 128 + f.toNat = _; omega) (by decide) (by have := d.isLt; have := t.isLt; have := b.isLt; have := f.isLt; omega)
theorem WellFormedEncodes.mcell (gd : Guard) (a : BitVec 5) (i : BitVec 12) (kw : Option (BitVec 32)) : WellFormedEncodes.Statement (.mcell gd a i kw) :=
  word_encodes (op := 9) (lo := a.toNat * 4096 + i.toNat) rfl (by show 603979776 + encodeGuard gd + a.toNat * 4096 + i.toNat = _; omega) (by decide) (by have := a.isLt; have := i.isLt; omega)
theorem WellFormedEncodes.mcellPre (gd : Guard) (p : BitVec 5) : WellFormedEncodes.Statement (.mcellPre gd p) :=
  word_encodes (op := 9) (lo := p.toNat * 131072) rfl (by show 603979776 + encodeGuard gd + p.toNat * 131072 = _; omega) (by decide) (by have := p.isLt; omega)
theorem WellFormedEncodes.mflow (gd : Guard) (y : BitVec 1) (p : BitVec 2) (a : BitVec 5) (i : BitVec 12) (kw : Option (BitVec 32)) : WellFormedEncodes.Statement (.mflow gd y p a i kw) :=
  word_encodes (op := 10) (lo := y.toNat * 524288 + p.toNat * 131072 + a.toNat * 4096 + i.toNat) rfl (by show 671088640 + encodeGuard gd + y.toNat * 524288 + p.toNat * 131072 + a.toNat * 4096 + i.toNat = _; omega) (by decide) (by have := y.isLt; have := p.isLt; have := a.isLt; have := i.isLt; omega)
theorem WellFormedEncodes.mrout (gd : Guard) (d : BitVec 5) (a : BitVec 5) (i : BitVec 12) (kw : Option (BitVec 32)) : WellFormedEncodes.Statement (.mrout gd d a i kw) :=
  word_encodes (op := 11) (lo := d.toNat * 131072 + a.toNat * 4096 + i.toNat) rfl (by show 738197504 + encodeGuard gd + d.toNat * 131072 + a.toNat * 4096 + i.toNat = _; omega) (by decide) (by have := d.isLt; have := a.isLt; have := i.isLt; omega)
theorem WellFormedEncodes.configCommandApply (tid : Nat) : WellFormedEncodes.Statement (.configCommandApply tid) := ⟨Nat.two_pow_pos 32, fun _ h _ => by cases h⟩
theorem WellFormedEncodes.mtid (gd : Guard) (a : BitVec 5) (e : BitVec 6) : WellFormedEncodes.Statement (.mtid gd a e) :=
  word_encodes (op := 12) (lo := a.toNat * 4096 + e.toNat) rfl (by show 805306368 + encodeGuard gd + a.toNat * 4096 + e.toNat = _; omega) (by decide) (by have := a.isLt; have := e.isLt; omega)
theorem WellFormedEncodes.mtidr (gd : Guard) (d : BitVec 5) (a : BitVec 5) (k : BitVec 3) (e : BitVec 1) : WellFormedEncodes.Statement (.mtidr gd d a k e) :=
  word_encodes (op := 13) (lo := d.toNat * 131072 + a.toNat * 4096 + k.toNat * 2 + e.toNat) rfl (by show 872415232 + encodeGuard gd + d.toNat * 131072 + a.toNat * 4096 + k.toNat * 2 + e.toNat = _; omega) (by decide) (by have := d.isLt; have := a.isLt; have := k.isLt; have := e.isLt; omega)
theorem WellFormedEncodes.mdup (gd : Guard) (d : BitVec 5) (a : BitVec 5) (b : BitVec 5) (q : BitVec 2) (e : BitVec 1) : WellFormedEncodes.Statement (.mdup gd d a b q e) :=
  word_encodes (op := 14) (lo := d.toNat * 131072 + a.toNat * 4096 + b.toNat * 128 + q.toNat * 2 + e.toNat) rfl (by show 939524096 + encodeGuard gd + d.toNat * 131072 + a.toNat * 4096 + b.toNat * 128 + q.toNat * 2 + e.toNat = _; omega) (by decide) (by have := d.isLt; have := a.isLt; have := b.isLt; have := q.isLt; have := e.isLt; omega)
theorem WellFormedEncodes.tableCommandApply (tid : Nat) : WellFormedEncodes.Statement (.tableCommandApply tid) := ⟨Nat.two_pow_pos 32, fun _ h _ => by cases h⟩
theorem WellFormedEncodes.mcode (gd : Guard) (a : BitVec 5) (i : BitVec 12) (kw : Option (BitVec 32)) : WellFormedEncodes.Statement (.mcode gd a i kw) :=
  word_encodes (op := 15) (lo := a.toNat * 4096 + i.toNat) rfl (by show 1006632960 + encodeGuard gd + a.toNat * 4096 + i.toNat = _; omega) (by decide) (by have := a.isLt; have := i.isLt; omega)
theorem WellFormedEncodes.mcodeFixed (gd : Guard) : WellFormedEncodes.Statement (.mcodeFixed gd) :=
  word_encodes (op := 15) (lo := 131072) rfl (by show 1006764032 + encodeGuard gd = _; omega) (by decide) (by omega)
theorem WellFormedEncodes.codeTableFlip (core : Nat) : WellFormedEncodes.Statement (.codeTableFlip core) := ⟨Nat.two_pow_pos 32, fun _ h _ => by cases h⟩
theorem WellFormedEncodes.mpred (gd : Guard) (d : BitVec 5) (a : BitVec 5) (b : BitVec 5) (f : BitVec 7) : WellFormedEncodes.Statement (.mpred gd d a b f) :=
  word_encodes (op := 16) (lo := d.toNat * 131072 + a.toNat * 4096 + b.toNat * 128 + f.toNat) rfl (by show 1073741824 + encodeGuard gd + d.toNat * 131072 + a.toNat * 4096 + b.toNat * 128 + f.toNat = _; omega) (by decide) (by have := d.isLt; have := a.isLt; have := b.isLt; have := f.isLt; omega)
theorem WellFormedEncodes.mwait (gd : Guard) (c : BitVec 6) : WellFormedEncodes.Statement (.mwait gd c) :=
  word_encodes (op := 17) (lo := c.toNat) rfl (by show 1140850688 + encodeGuard gd + c.toNat = _; omega) (by decide) (by have := c.isLt; omega)
theorem WellFormedEncodes.ysort (gd : Guard) (d : BitVec 5) (a : BitVec 5) (b : BitVec 5) (x : BitVec 1) (t : BitVec 2) : WellFormedEncodes.Statement (.ysort gd d a b x t) :=
  word_encodes (op := 0) (lo := d.toNat * 131072 + a.toNat * 4096 + b.toNat * 128 + x.toNat * 4 + t.toNat) rfl (by show encodeGuard gd + d.toNat * 131072 + a.toNat * 4096 + b.toNat * 128 + x.toNat * 4 + t.toNat = _; omega) (by decide) (by have := d.isLt; have := a.isLt; have := b.isLt; have := x.isLt; have := t.isLt; omega)
theorem WellFormedEncodes.ymerge (gd : Guard) (d : BitVec 5) (a : BitVec 5) (b : BitVec 5) (h : BitVec 1) (x : BitVec 1) (t : BitVec 2) : WellFormedEncodes.Statement (.ymerge gd d a b h x t) :=
  word_encodes (op := 1) (lo := d.toNat * 131072 + a.toNat * 4096 + b.toNat * 128 + h.toNat * 8 + x.toNat * 4 + t.toNat) rfl (by show 67108864 + encodeGuard gd + d.toNat * 131072 + a.toNat * 4096 + b.toNat * 128 + h.toNat * 8 + x.toNat * 4 + t.toNat = _; omega) (by decide) (by have := d.isLt; have := a.isLt; have := b.isLt; have := h.isLt; have := x.isLt; have := t.isLt; omega)
theorem WellFormedEncodes.ytopkInit (gd : Guard) (a : BitVec 5) (x : BitVec 1) (t : BitVec 2) : WellFormedEncodes.Statement (.ytopkInit gd a x t) :=
  word_encodes (op := 2) (lo := a.toNat * 4096 + x.toNat * 4 + t.toNat) rfl (by show 134217728 + encodeGuard gd + a.toNat * 4096 + x.toNat * 4 + t.toNat = _; omega) (by decide) (by have := a.isLt; have := x.isLt; have := t.isLt; omega)
theorem WellFormedEncodes.ytopkAdd (gd : Guard) (a : BitVec 5) (b : BitVec 5) (k : BitVec 3) : WellFormedEncodes.Statement (.ytopkAdd gd a b k) :=
  word_encodes (op := 2) (lo := a.toNat * 4096 + b.toNat * 128 + k.toNat + 32) rfl (by show 134217760 + encodeGuard gd + a.toNat * 4096 + b.toNat * 128 + k.toNat = _; omega) (by decide) (by have := a.isLt; have := b.isLt; have := k.isLt; omega)
theorem WellFormedEncodes.ytopkOut (gd : Guard) (d : BitVec 5) (a : BitVec 5) (b : BitVec 5) : WellFormedEncodes.Statement (.ytopkOut gd d a b) :=
  word_encodes (op := 2) (lo := d.toNat * 131072 + a.toNat * 4096 + b.toNat * 128 + 64) rfl (by show 134217792 + encodeGuard gd + d.toNat * 131072 + a.toNat * 4096 + b.toNat * 128 = _; omega) (by decide) (by have := d.isLt; have := a.isLt; have := b.isLt; omega)
theorem WellFormedEncodes.ysums (gd : Guard) (d : BitVec 5) (a : BitVec 5) (b : BitVec 5) (r : BitVec 3) (y : BitVec 1) (t : BitVec 2) : WellFormedEncodes.Statement (.ysums gd d a b r y t) :=
  word_encodes (op := 3) (lo := d.toNat * 131072 + a.toNat * 4096 + b.toNat * 128 + r.toNat * 16 + y.toNat * 4 + t.toNat) rfl (by show 201326592 + encodeGuard gd + d.toNat * 131072 + a.toNat * 4096 + b.toNat * 128 + r.toNat * 16 + y.toNat * 4 + t.toNat = _; omega) (by decide) (by have := d.isLt; have := a.isLt; have := b.isLt; have := r.isLt; have := y.isLt; have := t.isLt; omega)
theorem WellFormedEncodes.yrank (gd : Guard) (d : BitVec 5) (a : BitVec 5) (x : BitVec 1) (t : BitVec 2) : WellFormedEncodes.Statement (.yrank gd d a x t) :=
  word_encodes (op := 4) (lo := d.toNat * 131072 + a.toNat * 4096 + x.toNat * 4 + t.toNat) rfl (by show 268435456 + encodeGuard gd + d.toNat * 131072 + a.toNat * 4096 + x.toNat * 4 + t.toNat = _; omega) (by decide) (by have := d.isLt; have := a.isLt; have := x.isLt; have := t.isLt; omega)
theorem WellFormedEncodes.ybkt (gd : Guard) (d : BitVec 5) (a : BitVec 5) (b : BitVec 5) (k : BitVec 3) (t : BitVec 2) : WellFormedEncodes.Statement (.ybkt gd d a b k t) :=
  word_encodes (op := 5) (lo := d.toNat * 131072 + a.toNat * 4096 + b.toNat * 128 + k.toNat * 8 + t.toNat) rfl (by show 335544320 + encodeGuard gd + d.toNat * 131072 + a.toNat * 4096 + b.toNat * 128 + k.toNat * 8 + t.toNat = _; omega) (by decide) (by have := d.isLt; have := a.isLt; have := b.isLt; have := k.isLt; have := t.isLt; omega)
theorem WellFormedEncodes.ycmpr (gd : Guard) (d : BitVec 5) (a : BitVec 5) (b : BitVec 5) : WellFormedEncodes.Statement (.ycmpr gd d a b) :=
  word_encodes (op := 6) (lo := d.toNat * 131072 + a.toNat * 4096 + b.toNat * 128) rfl (by show 402653184 + encodeGuard gd + d.toNat * 131072 + a.toNat * 4096 + b.toNat * 128 = _; omega) (by decide) (by have := d.isLt; have := a.isLt; have := b.isLt; omega)
theorem WellFormedEncodes.yexpd (gd : Guard) (d : BitVec 5) (a : BitVec 5) (b : BitVec 5) (z : BitVec 1) : WellFormedEncodes.Statement (.yexpd gd d a b z) :=
  word_encodes (op := 7) (lo := d.toNat * 131072 + a.toNat * 4096 + b.toNat * 128 + z.toNat * 8) rfl (by show 469762048 + encodeGuard gd + d.toNat * 131072 + a.toNat * 4096 + b.toNat * 128 + z.toNat * 8 = _; omega) (by decide) (by have := d.isLt; have := a.isLt; have := b.isLt; have := z.isLt; omega)
theorem WellFormedEncodes.yhist (gd : Guard) (d : BitVec 5) (a : BitVec 5) (b : BitVec 5) (w : BitVec 1) (k : BitVec 3) : WellFormedEncodes.Statement (.yhist gd d a b w k) :=
  word_encodes (op := 8) (lo := d.toNat * 131072 + a.toNat * 4096 + b.toNat * 128 + w.toNat * 8 + k.toNat) rfl (by show 536870912 + encodeGuard gd + d.toNat * 131072 + a.toNat * 4096 + b.toNat * 128 + w.toNat * 8 + k.toNat = _; omega) (by decide) (by have := d.isLt; have := a.isLt; have := b.isLt; have := w.isLt; have := k.isLt; omega)
theorem WellFormedEncodes.yargx (gd : Guard) (d : BitVec 5) (a : BitVec 5) (k : BitVec 3) (x : BitVec 1) (t : BitVec 2) : WellFormedEncodes.Statement (.yargx gd d a k x t) :=
  word_encodes (op := 9) (lo := d.toNat * 131072 + a.toNat * 4096 + k.toNat * 8 + x.toNat * 4 + t.toNat) rfl (by show 603979776 + encodeGuard gd + d.toNat * 131072 + a.toNat * 4096 + k.toNat * 8 + x.toNat * 4 + t.toNat = _; omega) (by decide) (by have := d.isLt; have := a.isLt; have := k.isLt; have := x.isLt; have := t.isLt; omega)
theorem WellFormedEncodes.cstage (gd : Guard) (a : BitVec 5) (i : BitVec 12) (kw : Option (BitVec 32)) : WellFormedEncodes.Statement (.cstage gd a i kw) :=
  word_encodes (op := 0) (lo := a.toNat * 4096 + i.toNat) rfl (by show encodeGuard gd + a.toNat * 4096 + i.toNat = _; omega) (by decide) (by have := a.isLt; have := i.isLt; omega)
theorem WellFormedEncodes.carrive (gd : Guard) (a : BitVec 5) (b : BitVec 5) : WellFormedEncodes.Statement (.carrive gd a b) :=
  word_encodes (op := 1) (lo := a.toNat * 4096 + b.toNat * 128) rfl (by show 67108864 + encodeGuard gd + a.toNat * 4096 + b.toNat * 128 = _; omega) (by decide) (by have := a.isLt; have := b.isLt; omega)
theorem WellFormedEncodes.csched (gd : Guard) (a : BitVec 5) : WellFormedEncodes.Statement (.csched gd a) :=
  word_encodes (op := 2) (lo := a.toNat * 4096) rfl (by show 134217728 + encodeGuard gd + a.toNat * 4096 = _; omega) (by decide) (by have := a.isLt; omega)
theorem WellFormedEncodes.rpush (gd : Guard) (d : BitVec 5) (a : BitVec 5) (b : BitVec 5) : WellFormedEncodes.Statement (.rpush gd d a b) :=
  word_encodes (op := 3) (lo := d.toNat * 131072 + a.toNat * 4096 + b.toNat * 128) rfl (by show 201326592 + encodeGuard gd + d.toNat * 131072 + a.toNat * 4096 + b.toNat * 128 = _; omega) (by decide) (by have := d.isLt; have := a.isLt; have := b.isLt; omega)
theorem WellFormedEncodes.rpushOpen (gd : Guard) (d : BitVec 5) (a : BitVec 5) (b : BitVec 5) : WellFormedEncodes.Statement (.rpushOpen gd d a b) :=
  word_encodes (op := 3) (lo := d.toNat * 131072 + a.toNat * 4096 + b.toNat * 128 + 1) rfl (by show 201326593 + encodeGuard gd + d.toNat * 131072 + a.toNat * 4096 + b.toNat * 128 = _; omega) (by decide) (by have := d.isLt; have := a.isLt; have := b.isLt; omega)
theorem WellFormedEncodes.rpushClose (gd : Guard) (d : BitVec 5) (a : BitVec 5) : WellFormedEncodes.Statement (.rpushClose gd d a) :=
  word_encodes (op := 3) (lo := d.toNat * 131072 + a.toNat * 4096 + 2) rfl (by show 201326594 + encodeGuard gd + d.toNat * 131072 + a.toNat * 4096 = _; omega) (by decide) (by have := d.isLt; have := a.isLt; omega)
theorem WellFormedEncodes.rpop (gd : Guard) (d : BitVec 5) (a : BitVec 5) (k : BitVec 3) : WellFormedEncodes.Statement (.rpop gd d a k) :=
  word_encodes (op := 4) (lo := d.toNat * 131072 + a.toNat * 4096 + k.toNat) rfl (by show 268435456 + encodeGuard gd + d.toNat * 131072 + a.toNat * 4096 + k.toNat = _; omega) (by decide) (by have := d.isLt; have := a.isLt; have := k.isLt; omega)
theorem WellFormedEncodes.rstat (gd : Guard) (d : BitVec 5) (a : BitVec 5) (k : BitVec 3) : WellFormedEncodes.Statement (.rstat gd d a k) :=
  word_encodes (op := 5) (lo := d.toNat * 131072 + a.toNat * 4096 + k.toNat) rfl (by show 335544320 + encodeGuard gd + d.toNat * 131072 + a.toNat * 4096 + k.toNat = _; omega) (by decide) (by have := d.isLt; have := a.isLt; have := k.isLt; omega)
theorem WellFormedEncodes.ringDeliveryLand (clu : Nat) (k : Nat) : WellFormedEncodes.Statement (.ringDeliveryLand clu k) := ⟨Nat.two_pow_pos 32, fun _ h _ => by cases h⟩
theorem WellFormedEncodes.mqsend (gd : Guard) (d : BitVec 5) (a : BitVec 5) (b : BitVec 5) : WellFormedEncodes.Statement (.mqsend gd d a b) :=
  word_encodes (op := 6) (lo := d.toNat * 131072 + a.toNat * 4096 + b.toNat * 128) rfl (by show 402653184 + encodeGuard gd + d.toNat * 131072 + a.toNat * 4096 + b.toNat * 128 = _; omega) (by decide) (by have := d.isLt; have := a.isLt; have := b.isLt; omega)
theorem WellFormedEncodes.mqrecv (gd : Guard) (d : BitVec 5) (a : BitVec 5) (x : BitVec 1) (k : BitVec 3) : WellFormedEncodes.Statement (.mqrecv gd d a x k) :=
  word_encodes (op := 7) (lo := d.toNat * 131072 + a.toNat * 4096 + x.toNat * 8 + k.toNat) rfl (by show 469762048 + encodeGuard gd + d.toNat * 131072 + a.toNat * 4096 + x.toNat * 8 + k.toNat = _; omega) (by decide) (by have := d.isLt; have := a.isLt; have := x.isLt; have := k.isLt; omega)
theorem WellFormedEncodes.mqstat (gd : Guard) (d : BitVec 5) (a : BitVec 5) : WellFormedEncodes.Statement (.mqstat gd d a) :=
  word_encodes (op := 8) (lo := d.toNat * 131072 + a.toNat * 4096) rfl (by show 536870912 + encodeGuard gd + d.toNat * 131072 + a.toNat * 4096 = _; omega) (by decide) (by have := d.isLt; have := a.isLt; omega)
theorem WellFormedEncodes.queueEntryApply (core : Nat) : WellFormedEncodes.Statement (.queueEntryApply core) := ⟨Nat.two_pow_pos 32, fun _ h _ => by cases h⟩
theorem WellFormedEncodes.queueCreditReturn (core : Nat) : WellFormedEncodes.Statement (.queueCreditReturn core) := ⟨Nat.two_pow_pos 32, fun _ h _ => by cases h⟩
theorem WellFormedEncodes.tsubmit (gd : Guard) (d : BitVec 5) (a : BitVec 5) : WellFormedEncodes.Statement (.tsubmit gd d a) :=
  word_encodes (op := 9) (lo := d.toNat * 131072 + a.toNat * 4096) rfl (by show 603979776 + encodeGuard gd + d.toNat * 131072 + a.toNat * 4096 = _; omega) (by decide) (by have := d.isLt; have := a.isLt; omega)
theorem WellFormedEncodes.tsubmitRetry (tid : Nat) : WellFormedEncodes.Statement (.tsubmitRetry tid) := ⟨Nat.two_pow_pos 32, fun _ h _ => by cases h⟩
theorem WellFormedEncodes.tsignal (gd : Guard) (a : BitVec 5) : WellFormedEncodes.Statement (.tsignal gd a) :=
  word_encodes (op := 10) (lo := a.toNat * 4096) rfl (by show 671088640 + encodeGuard gd + a.toNat * 4096 = _; omega) (by decide) (by have := a.isLt; omega)
theorem WellFormedEncodes.launch (gd : Guard) (a : BitVec 5) (o : BitVec 1) : WellFormedEncodes.Statement (.launch gd a o) :=
  word_encodes (op := 11) (lo := a.toNat * 4096 + o.toNat * 2) rfl (by show 738197504 + encodeGuard gd + a.toNat * 4096 + o.toNat * 2 = _; omega) (by decide) (by have := a.isLt; have := o.isLt; omega)
theorem WellFormedEncodes.launchNb (gd : Guard) (d : BitVec 5) (a : BitVec 5) (o : BitVec 1) : WellFormedEncodes.Statement (.launchNb gd d a o) :=
  word_encodes (op := 11) (lo := d.toNat * 131072 + a.toNat * 4096 + o.toNat * 2 + 1) rfl (by show 738197505 + encodeGuard gd + d.toNat * 131072 + a.toNat * 4096 + o.toNat * 2 = _; omega) (by decide) (by have := d.isLt; have := a.isLt; have := o.isLt; omega)
theorem WellFormedEncodes.pendingLaunchDrain (die : Nat) : WellFormedEncodes.Statement (.pendingLaunchDrain die) := ⟨Nat.two_pow_pos 32, fun _ h _ => by cases h⟩
theorem WellFormedEncodes.fred (gd : Guard) (d : BitVec 5) (a : BitVec 5) (b : BitVec 5) : WellFormedEncodes.Statement (.fred gd d a b) :=
  word_encodes (op := 12) (lo := d.toNat * 131072 + a.toNat * 4096 + b.toNat * 128) rfl (by show 805306368 + encodeGuard gd + d.toNat * 131072 + a.toNat * 4096 + b.toNat * 128 = _; omega) (by decide) (by have := d.isLt; have := a.isLt; have := b.isLt; omega)
theorem WellFormedEncodes.sladd (gd : Guard) (d : BitVec 5) (a : BitVec 5) (b : BitVec 5) : WellFormedEncodes.Statement (.sladd gd d a b) :=
  word_encodes (op := 13) (lo := d.toNat * 131072 + a.toNat * 4096 + b.toNat * 128) rfl (by show 872415232 + encodeGuard gd + d.toNat * 131072 + a.toNat * 4096 + b.toNat * 128 = _; omega) (by decide) (by have := d.isLt; have := a.isLt; have := b.isLt; omega)
theorem WellFormedEncodes.slsend (gd : Guard) (d : BitVec 5) : WellFormedEncodes.Statement (.slsend gd d) :=
  word_encodes (op := 14) (lo := d.toNat * 131072) rfl (by show 939524096 + encodeGuard gd + d.toNat * 131072 = _; omega) (by decide) (by have := d.isLt; omega)
theorem WellFormedEncodes.slrecv (gd : Guard) (d : BitVec 5) (a : BitVec 5) : WellFormedEncodes.Statement (.slrecv gd d a) :=
  word_encodes (op := 15) (lo := d.toNat * 131072 + a.toNat * 4096) rfl (by show 1006632960 + encodeGuard gd + d.toNat * 131072 + a.toNat * 4096 = _; omega) (by decide) (by have := d.isLt; have := a.isLt; omega)
theorem WellFormedEncodes.bbmark (gd : Guard) (d : BitVec 5) (a : BitVec 5) (i : BitVec 12) (kw : Option (BitVec 32)) : WellFormedEncodes.Statement (.bbmark gd d a i kw) :=
  word_encodes (op := 16) (lo := d.toNat * 131072 + a.toNat * 4096 + i.toNat) rfl (by show 1073741824 + encodeGuard gd + d.toNat * 131072 + a.toNat * 4096 + i.toNat = _; omega) (by decide) (by have := d.isLt; have := a.isLt; have := i.isLt; omega)
theorem WellFormedEncodes.pwrq (gd : Guard) (d : BitVec 5) (i : BitVec 3) : WellFormedEncodes.Statement (.pwrq gd d i) :=
  word_encodes (op := 17) (lo := d.toNat * 131072 + i.toNat) rfl (by show 1140850688 + encodeGuard gd + d.toNat * 131072 + i.toNat = _; omega) (by decide) (by have := d.isLt; have := i.isLt; omega)
theorem WellFormedEncodes.pwrres (gd : Guard) (d : BitVec 5) (a : BitVec 5) : WellFormedEncodes.Statement (.pwrres gd d a) :=
  word_encodes (op := 18) (lo := d.toNat * 131072 + a.toNat * 4096) rfl (by show 1207959552 + encodeGuard gd + d.toNat * 131072 + a.toNat * 4096 = _; omega) (by decide) (by have := d.isLt; have := a.isLt; omega)
theorem WellFormedEncodes.pwrresRel (gd : Guard) (d : BitVec 5) : WellFormedEncodes.Statement (.pwrresRel gd d) :=
  word_encodes (op := 18) (lo := d.toNat * 131072 + 1) rfl (by show 1207959553 + encodeGuard gd + d.toNat * 131072 = _; omega) (by decide) (by have := d.isLt; omega)
theorem WellFormedEncodes.tlbi (gd : Guard) (d : BitVec 5) (a : BitVec 5) (b : BitVec 5) : WellFormedEncodes.Statement (.tlbi gd d a b) :=
  word_encodes (op := 19) (lo := d.toNat * 131072 + a.toNat * 4096 + b.toNat * 128) rfl (by show 1275068416 + encodeGuard gd + d.toNat * 131072 + a.toNat * 4096 + b.toNat * 128 = _; omega) (by decide) (by have := d.isLt; have := a.isLt; have := b.isLt; omega)
theorem WellFormedEncodes.tlbiComplete (k : Nat) : WellFormedEncodes.Statement (.tlbiComplete k) := ⟨Nat.two_pow_pos 32, fun _ h _ => by cases h⟩
theorem WellFormedEncodes.selft (gd : Guard) (d : BitVec 5) (a : BitVec 5) (w : BitVec 1) : WellFormedEncodes.Statement (.selft gd d a w) :=
  word_encodes (op := 20) (lo := d.toNat * 131072 + a.toNat * 4096 + w.toNat) rfl (by show 1342177280 + encodeGuard gd + d.toNat * 131072 + a.toNat * 4096 + w.toNat = _; omega) (by decide) (by have := d.isLt; have := a.isLt; have := w.isLt; omega)
theorem WellFormedEncodes.emptyBundle (stall : BitVec 4) : WellFormedEncodes.Statement (.emptyBundle stall) := ⟨Nat.two_pow_pos 32, fun _ h _ => by cases h⟩
theorem WellFormedEncodes.lineSkip : WellFormedEncodes.Statement (.lineSkip) := ⟨Nat.two_pow_pos 32, fun _ h _ => by cases h⟩
theorem WellFormedEncodes.lineFill (tid : Nat) : WellFormedEncodes.Statement (.lineFill tid) := ⟨Nat.two_pow_pos 32, fun _ h _ => by cases h⟩
theorem WellFormedEncodes.asyncTrap (tid : Nat) : WellFormedEncodes.Statement (.asyncTrap tid) := ⟨Nat.two_pow_pos 32, fun _ h _ => by cases h⟩
theorem WellFormedEncodes.yieldExpiry (tid : Nat) : WellFormedEncodes.Statement (.yieldExpiry tid) := ⟨Nat.two_pow_pos 32, fun _ h _ => by cases h⟩
theorem WellFormedEncodes.threadFree (tid : Nat) : WellFormedEncodes.Statement (.threadFree tid) := ⟨Nat.two_pow_pos 32, fun _ h _ => by cases h⟩
theorem WellFormedEncodes.taskPlacement (die : Nat) : WellFormedEncodes.Statement (.taskPlacement die) := ⟨Nat.two_pow_pos 32, fun _ h _ => by cases h⟩
theorem WellFormedEncodes.priorityAgeing (die : Nat) (k : Nat) : WellFormedEncodes.Statement (.priorityAgeing die k) := ⟨Nat.two_pow_pos 32, fun _ h _ => by cases h⟩
theorem WellFormedEncodes.reservationTaken (die : Nat) : WellFormedEncodes.Statement (.reservationTaken die) := ⟨Nat.two_pow_pos 32, fun _ h _ => by cases h⟩
theorem WellFormedEncodes.readyQueueEntry (die : Nat) : WellFormedEncodes.Statement (.readyQueueEntry die) := ⟨Nat.two_pow_pos 32, fun _ h _ => by cases h⟩
theorem WellFormedEncodes.stopLands (tid : Nat) : WellFormedEncodes.Statement (.stopLands tid) := ⟨Nat.two_pow_pos 32, fun _ h _ => by cases h⟩
theorem WellFormedEncodes.stopRequestTimeout (tid : Nat) : WellFormedEncodes.Statement (.stopRequestTimeout tid) := ⟨Nat.two_pow_pos 32, fun _ h _ => by cases h⟩
theorem WellFormedEncodes.killRequeue (die : Nat) (k : Nat) : WellFormedEncodes.Statement (.killRequeue die k) := ⟨Nat.two_pow_pos 32, fun _ h _ => by cases h⟩
theorem WellFormedEncodes.checkpointWrite (die : Nat) (k : Nat) : WellFormedEncodes.Statement (.checkpointWrite die k) := ⟨Nat.two_pow_pos 32, fun _ h _ => by cases h⟩
theorem WellFormedEncodes.copyChunk (die : Nat) (k : Nat) : WellFormedEncodes.Statement (.copyChunk die k) := ⟨Nat.two_pow_pos 32, fun _ h _ => by cases h⟩
theorem WellFormedEncodes.copyEntryComplete (die : Nat) (k : Nat) : WellFormedEncodes.Statement (.copyEntryComplete die k) := ⟨Nat.two_pow_pos 32, fun _ h _ => by cases h⟩
theorem WellFormedEncodes.copyEntryStop (die : Nat) (k : Nat) : WellFormedEncodes.Statement (.copyEntryStop die k) := ⟨Nat.two_pow_pos 32, fun _ h _ => by cases h⟩
theorem WellFormedEncodes.translationWalk (die : Nat) : WellFormedEncodes.Statement (.translationWalk die) := ⟨Nat.two_pow_pos 32, fun _ h _ => by cases h⟩
theorem WellFormedEncodes.packageReset (boot : BootImages) : WellFormedEncodes.Statement (.packageReset boot) := ⟨Nat.two_pow_pos 32, fun _ h _ => by cases h⟩
theorem WellFormedEncodes.attestationQuote (nonce : BitVec 256) : WellFormedEncodes.Statement (.attestationQuote nonce) := ⟨Nat.two_pow_pos 32, fun _ h _ => by cases h⟩
theorem WellFormedEncodes.keySlotWrite (slot : Nat) (dom : BitVec 6) : WellFormedEncodes.Statement (.keySlotWrite slot dom) := ⟨Nat.two_pow_pos 32, fun _ h _ => by cases h⟩
theorem WellFormedEncodes.packetIngress (p : EthPacket) : WellFormedEncodes.Statement (.packetIngress p) := ⟨Nat.two_pow_pos 32, fun _ h _ => by cases h⟩
theorem WellFormedEncodes.hubRegisterWrite (w : HubWrite) : WellFormedEncodes.Statement (.hubRegisterWrite w) := ⟨Nat.two_pow_pos 32, fun _ h _ => by cases h⟩
theorem WellFormedEncodes.grantWrite (g : Nat) : WellFormedEncodes.Statement (.grantWrite g) := ⟨Nat.two_pow_pos 32, fun _ h _ => by cases h⟩
theorem WellFormedEncodes.energySample (nJ : Nat) : WellFormedEncodes.Statement (.energySample nJ) := ⟨Nat.two_pow_pos 32, fun _ h _ => by cases h⟩
theorem WellFormedEncodes.energyInterval : WellFormedEncodes.Statement (.energyInterval) := ⟨Nat.two_pow_pos 32, fun _ h _ => by cases h⟩
theorem WellFormedEncodes.selfTestVerdict (unit : BitVec 24) (lasting : Bool) : WellFormedEncodes.Statement (.selfTestVerdict unit lasting) := ⟨Nat.two_pow_pos 32, fun _ h _ => by cases h⟩
theorem WellFormedEncodes.blackBoxClear (die : Nat) (thaw clear : Bool) : WellFormedEncodes.Statement (.blackBoxClear die thaw clear) := ⟨Nat.two_pow_pos 32, fun _ h _ => by cases h⟩
theorem WellFormedEncodes.fatalHardwareEvent (die : Nat) (ev : FatalEvent) (data0 : BitVec 64) (data1 : BitVec 64) : WellFormedEncodes.Statement (.fatalHardwareEvent die ev data0 data1) := ⟨Nat.two_pow_pos 32, fun _ h _ => by cases h⟩
theorem WellFormedEncodes.flitCrcFail (port : Nat) (lane : Nat) : WellFormedEncodes.Statement (.flitCrcFail port lane) := ⟨Nat.two_pow_pos 32, fun _ h _ => by cases h⟩
theorem WellFormedEncodes.laneOutOfService (port : Nat) (lane : Nat) : WellFormedEncodes.Statement (.laneOutOfService port lane) := ⟨Nat.two_pow_pos 32, fun _ h _ => by cases h⟩
theorem WellFormedEncodes.linkDown (port : Nat) : WellFormedEncodes.Statement (.linkDown port) := ⟨Nat.two_pow_pos 32, fun _ h _ => by cases h⟩
theorem WellFormedEncodes.packetRoute (port : Nat) (p : Packet) : WellFormedEncodes.Statement (.packetRoute port p) := ⟨Nat.two_pow_pos 32, fun _ h _ => by cases h⟩
theorem WellFormedEncodes.escapeMove (k : Nat) : WellFormedEncodes.Statement (.escapeMove k) := ⟨Nat.two_pow_pos 32, fun _ h _ => by cases h⟩
theorem WellFormedEncodes.fabricPacketSend (k : Nat) : WellFormedEncodes.Statement (.fabricPacketSend k) := ⟨Nat.two_pow_pos 32, fun _ h _ => by cases h⟩
theorem WellFormedEncodes.creditRequest (src : Nat) : WellFormedEncodes.Statement (.creditRequest src) := ⟨Nat.two_pow_pos 32, fun _ h _ => by cases h⟩
theorem WellFormedEncodes.creditGrant (src : Nat) (n : Nat) : WellFormedEncodes.Statement (.creditGrant src n) := ⟨Nat.two_pow_pos 32, fun _ h _ => by cases h⟩
theorem WellFormedEncodes.creditExpiry (dst : Nat) : WellFormedEncodes.Statement (.creditExpiry dst) := ⟨Nat.two_pow_pos 32, fun _ h _ => by cases h⟩
theorem WellFormedEncodes.ackReceive (src : Nat) (seq : Nat) : WellFormedEncodes.Statement (.ackReceive src seq) := ⟨Nat.two_pow_pos 32, fun _ h _ => by cases h⟩
theorem WellFormedEncodes.writePlace (k : Nat) : WellFormedEncodes.Statement (.writePlace k) := ⟨Nat.two_pow_pos 32, fun _ h _ => by cases h⟩
theorem WellFormedEncodes.fredApply (k : Nat) : WellFormedEncodes.Statement (.fredApply k) := ⟨Nat.two_pow_pos 32, fun _ h _ => by cases h⟩
theorem WellFormedEncodes.tokenPlace (k : Nat) : WellFormedEncodes.Statement (.tokenPlace k) := ⟨Nat.two_pow_pos 32, fun _ h _ => by cases h⟩
theorem WellFormedEncodes.flushComplete : WellFormedEncodes.Statement (.flushComplete) := ⟨Nat.two_pow_pos 32, fun _ h _ => by cases h⟩
theorem WellFormedEncodes.coordinatorGo : WellFormedEncodes.Statement (.coordinatorGo) := ⟨Nat.two_pow_pos 32, fun _ h _ => by cases h⟩
theorem WellFormedEncodes.harvestApply : WellFormedEncodes.Statement (.harvestApply) := ⟨Nat.two_pow_pos 32, fun _ h _ => by cases h⟩
theorem WellFormedEncodes.boundaryComplete : WellFormedEncodes.Statement (.boundaryComplete) := ⟨Nat.two_pow_pos 32, fun _ h _ => by cases h⟩
theorem WellFormedEncodes.stepSkew : WellFormedEncodes.Statement (.stepSkew) := ⟨Nat.two_pow_pos 32, fun _ h _ => by cases h⟩
theorem WellFormedEncodes.declareFailed (dev : Nat) : WellFormedEncodes.Statement (.declareFailed dev) := ⟨Nat.two_pow_pos 32, fun _ h _ => by cases h⟩
theorem WellFormedEncodes.failedNotice (dev : Nat) : WellFormedEncodes.Statement (.failedNotice dev) := ⟨Nat.two_pow_pos 32, fun _ h _ => by cases h⟩
theorem WellFormedEncodes.fixedLatencyWriteLands (tid : Nat) : WellFormedEncodes.Statement (.fixedLatencyWriteLands tid) := ⟨Nat.two_pow_pos 32, fun _ h _ => by cases h⟩
theorem WellFormedEncodes.accessPerformsAtHome (tid : Nat) : WellFormedEncodes.Statement (.accessPerformsAtHome tid) := ⟨Nat.two_pow_pos 32, fun _ h _ => by cases h⟩
theorem WellFormedEncodes.matrixCommandEngineApply (tid : Nat) : WellFormedEncodes.Statement (.matrixCommandEngineApply tid) := ⟨Nat.two_pow_pos 32, fun _ h _ => by cases h⟩
theorem WellFormedEncodes.dieEngineCommandApply (die : Nat) : WellFormedEncodes.Statement (.dieEngineCommandApply die) := ⟨Nat.two_pow_pos 32, fun _ h _ => by cases h⟩
theorem WellFormedEncodes.thermalWarning (die : Nat) (data0 : BitVec 64) : WellFormedEncodes.Statement (.thermalWarning die data0) := ⟨Nat.two_pow_pos 32, fun _ h _ => by cases h⟩
theorem WellFormedEncodes.systemCoreLineWriteback (line : Nat) (data : BitVec 512) : WellFormedEncodes.Statement (.systemCoreLineWriteback line data) := ⟨Nat.two_pow_pos 32, fun _ h _ => by cases h⟩
theorem WellFormedEncodes.decodeCheckTrap (cause : Cause) (engine : BitVec 3) (estat : BitVec 64) : WellFormedEncodes.Statement (.decodeCheckTrap cause engine estat) := ⟨Nat.two_pow_pos 32, fun _ h _ => by cases h⟩

end Sys2Proof.Laws
end

