-- ==== Sys2Proof/Laws/Vector.lean ====
section
/-! SUPPORT. The lanes of vector registers and the masked results of R127: what ofLanes, vecPost and vecAll hold, said once. -/

namespace Sys2Proof

theorem joinWords_lt (l : List Word) : joinWords l < 2 ^ (32 * l.length) := by
  induction l with
  | nil => simp [joinWords]
  | cons w ws ih =>
    have hw := w.isLt
    have e : 2 ^ (32 * (w :: ws).length) = 2 ^ 32 * 2 ^ (32 * ws.length) := by rw [← Nat.pow_add]; congr 1; simp [Nat.mul_add]; omega
    rw [e]; simp only [joinWords]; omega

theorem joinWords_word (l : List Word) (i : Nat) (h : i < l.length) :
    BitVec.ofNat 32 (joinWords l / 2 ^ (32 * i)) = l[i] := by
  induction l generalizing i with
  | nil => simp at h
  | cons w ws ih =>
    have hw := w.isLt
    cases i with
    | zero => apply BitVec.eq_of_toNat_eq; simp [joinWords]; omega
    | succ i =>
      have e : 2 ^ (32 * (i + 1)) = 2 ^ 32 * 2 ^ (32 * i) := by rw [← Nat.pow_add]; congr 1; omega
      have q : (w.toNat + 2 ^ 32 * joinWords ws) / 2 ^ 32 = joinWords ws := by omega
      rw [e, joinWords, ← Nat.div_div_eq_div_mul, q]
      simpa using ih i (by simpa using h)

/-- A lane below 32 of a register built from its lanes (R125). -/
theorem lane_ofLanes (f : Nat → Word) (i : Nat) (h : i < 32) : lane (ofLanes f) i = f i := by
  have hl : ((List.range 32).map f).length = 32 := by simp
  have b := joinWords_lt ((List.range 32).map f)
  rw [hl] at b
  have := joinWords_word ((List.range 32).map f) i (by omega)
  simp only [List.getElem_map, List.getElem_range] at this
  rw [← this]
  simp only [lane, ofLanes, BitVec.toNat_ofNat]
  rw [Nat.mod_eq_of_lt b]

/-- Two registers given by the same 32 lanes are equal. -/
theorem ofLanes_congr (f g : Nat → Word) (h : ∀ i, i < 32 → f i = g i) : ofLanes f = ofLanes g := by
  unfold ofLanes
  congr 2
  apply List.map_congr_left
  intro i hi
  exact h i (by simpa using hi)

namespace Machine

theorem nth_lanes32 {α : Type} (z : α) (f : Nat → α) (i : Nat) (h : i < 32) : nth z (lanes32 f) i = f i := by
  simp [nth, lanes32, h]

theorem lt_of_mem_onesBelow (n w i : Nat) (h : i ∈ onesBelow n w) : i < n := by
  simp [onesBelow] at h; exact h.1

theorem joinFlags_zero {α : Type} (l : List α) (f : α → Fp.Flags) (h : ∀ x ∈ l, f x = 0) : joinFlags (l.map f) = 0 := by
  unfold joinFlags
  induction l with
  | nil => rfl
  | cons x xs ih =>
    simp only [List.map_cons, List.foldl_cons]
    rw [h x (by simp)]
    simpa using ih (fun y hy => h y (by simp [hy]))

/-- The masked vector result of lanes given one by one (R127). -/
theorem vecPost_lanes (s : State) (d : BitVec 5) (z : BitVec 1) (k : BitVec 3) (lat : Nat) (f : Nat → Word × Fp.Flags) :
    s.vecPost d z k lat (lanes32 f) =
      (s.flags (joinFlags ((onesBelow 32 (s.m k).toNat).map (fun i => (f i).2)))).postV d (s.masked127 d z k (fun i => (f i).1)) lat := by
  unfold State.vecPost
  have e1 : (onesBelow 32 (s.m k).toNat).map (fun i => (nth (0, 0) (lanes32 f) i).2) =
      (onesBelow 32 (s.m k).toNat).map (fun i => (f i).2) := by
    apply List.map_congr_left
    intro i hi
    rw [nth_lanes32 _ _ _ (lt_of_mem_onesBelow _ _ _ hi)]
  have e2 : s.masked127 d z k (fun i => (nth (0, 0) (lanes32 f) i).1) = s.masked127 d z k (fun i => (f i).1) := by
    apply ofLanes_congr
    intro i hi
    simp only [nth_lanes32 _ _ _ hi]
  simp only [e1, e2]

/-- A masked vector result without flags. -/
theorem vecPost_quiet (s : State) (d : BitVec 5) (z : BitVec 1) (k : BitVec 3) (lat : Nat) (f : Nat → Word) :
    s.vecPost d z k lat (lanes32 (fun i => quiet (f i))) = (s.flags 0).postV d (s.masked127 d z k f) lat := by
  rw [vecPost_lanes]
  simp only [quiet]
  rw [joinFlags_zero _ (fun _ => (0 : Fp.Flags)) (fun _ _ => rfl)]

/-- A lane of a masked result (R127). -/
theorem lane_masked127 (s : State) (d : BitVec 5) (z : BitVec 1) (k : BitVec 3) (f : Nat → Word) (i : Nat) (h : i < 32) :
    lane (s.masked127 d z k f) i = if (s.m k).getLsbD i then f i else if z = 1 then 0 else lane (s.v d) i := by
  unfold State.masked127
  rw [lane_ofLanes _ _ h]
  simp [State.active]

/-- An unmasked vector result of lanes given one by one. -/
theorem vecAll_lanes (s : State) (d : BitVec 5) (lat : Nat) (f : Nat → Word × Fp.Flags) :
    s.vecAll d lat (lanes32 f) = (s.flags (joinFlags ((List.range 32).map (fun i => (f i).2)))).postV d (ofLanes (fun i => (f i).1)) lat := by
  unfold State.vecAll
  have e : ofLanes (fun i => (nth (0, 0) (lanes32 f) i).1) = ofLanes (fun i => (f i).1) := by
    apply ofLanes_congr
    intro i hi
    simp only [nth_lanes32 _ _ _ hi]
  rw [e]
  simp only [lanes32, List.map_map]
  rfl

end Machine

end Sys2Proof
end

