-- ==== Sys2Proof/Tests/Slice0.lean ====
section
/-! SUPPORT. Slice0: the model's own tests. Expected results come from the spec's encodings, tables and worked examples, or from hand calculation by its rules;
and witnesses: for each statement of Certificates/Slice0/Obligations.lean that has hypotheses, states and operands that meet them, clause by clause. -/

namespace Sys2Proof.Tests

open Sys2Proof Sys2Proof.Machine

set_option Elab.async false

def g0 : Guard := ⟨false, 0⟩
/-- The bundle decoded, or none. -/
def bundleOf (bs : List Byte) : Option Bundle := match decodeBundle bs with | .ok b => some b | .error _ => none

/-! ## Ill-formed instructions are refused -/

/-- R43: the K word is present exactly where the field requests it; Forms B, C and D. -/
theorem test_illformed_kword : Instr.wellFormed (.addi g0 1 1 0x800 none) = false ∧ Instr.wellFormed (.addi g0 1 1 5 (some 7)) = false ∧
    Instr.wellFormed (.li g0 1 0x10000 none) = false ∧ Instr.wellFormed (.br g0 0x100000 none) = false ∧ Instr.wellFormed (.br g0 4 (some 4)) = false ∧
    Instr.wellFormed (.ldD g0 1 2 0x800 none) = false ∧ Instr.wellFormed (.mrout g0 1 2 0x800 none) = false ∧ Instr.wellFormed (.cstage g0 1 0x800 none) = false ∧
    Instr.wellFormed (.trap g0 0x10000 none) = false ∧ Instr.wellFormed (.viota g0 1 1 0x800 none) = false := by decide
/-- R101: LBRK leaves 1 to 6 loops. -/
theorem test_illformed_lbrk : Instr.wellFormed (.lbrk g0 5) = true ∧ Instr.wellFormed (.lbrk g0 6) = false := by decide
/-- R287: a fused set has 2 to 8 cores within the cluster. -/
theorem test_illformed_fuse : Instr.wellFormed (.fuse g0 1 0) = false ∧ Instr.wellFormed (.fuse g0 2 7) = false ∧ Instr.wellFormed (.fuse g0 8 0) = true := by decide
/-- R411: STEP names an even register pair. -/
theorem test_illformed_step : Instr.wellFormed (.step g0 3 0 0) = false := by decide
/-- R94: n0 to n5 are the loop indices. -/
theorem test_illformed_nindex : Instr.wellFormed (.add g0 1 2 6 1) = false ∧ Instr.wellFormed (.sub g0 1 2 6 1) = false ∧ Instr.wellFormed (.mul g0 1 2 6 1) = false ∧
    Instr.wellFormed (.add g0 1 2 5 1) = true := by decide
/-- R117: an immediate shift amount is at most 63. -/
theorem test_illformed_shift : Instr.wellFormed (.shli g0 1 1 64 none) = false ∧ Instr.wellFormed (.shri g0 1 1 64 none) = false ∧ Instr.wellFormed (.sari g0 1 1 64 none) = false ∧
    Instr.wellFormed (.shli g0 1 1 63 none) = true := by decide
/-- Table 4-8: comparison codes and guard numbers. -/
theorem test_illformed_compare : Instr.wellFormed (.cmp g0 8 1 1 0) = false ∧ Instr.wellFormed (.cmp g0 1 1 1 6) = false ∧ Instr.wellFormed (.fcmp g0 1 1 1 5) = false ∧
    Instr.wellFormed (.vcmp g0 1 1 1 6 0 0) = false ∧ Instr.wellFormed (.vfcmp g0 1 1 1 5 0 0) = false ∧ Instr.wellFormed (.vcmp g0 8 1 1 0 0 0) = false := by decide
/-- R118: a field ends within 64 bits, BFI takes no SX, K[31:13] is 0. -/
theorem test_illformed_field : Instr.wellFormed (.bfx g0 1 1 0x07F none) = false ∧ Instr.wellFormed (.bfi g0 1 1 0x800 (some 0x1000)) = false ∧
    Instr.wellFormed (.bfx g0 1 1 0x800 (some 0x2000)) = false ∧ Instr.wellFormed (.bfx g0 1 1 0x800 (some 0x1000)) = true := by decide
/-- R120, R135, R136: functions and register numbers of GOP, VMOP and VMPOP. -/
theorem test_illformed_guards : Instr.wellFormed (.gop g0 1 1 1 10) = false ∧ Instr.wellFormed (.gop g0 8 1 1 0) = false ∧ Instr.wellFormed (.gop g0 1 9 1 8) = false ∧
    Instr.wellFormed (.vmop g0 1 1 1 9) = false ∧ Instr.wellFormed (.vmop g0 1 1 1 8) = false ∧ Instr.wellFormed (.vmpopPopc g0 1 8) = false ∧
    Instr.wellFormed (.vmpopSet g0 8 1) = false := by decide
/-- R13: MOVS and MOVZ name registers of Table 1-3, MOVZ no read-only one. -/
theorem test_illformed_system : Instr.wellFormed (.movs g0 1 0x007 none) = false ∧ Instr.wellFormed (.movz g0 1 0x000 none) = false ∧ Instr.wellFormed (.movs g0 1 0x03F none) = true ∧
    Instr.wellFormed (.movs g0 1 0x040 none) = false := by decide
/-- R123, Table 5-2: rounding fields. -/
theorem test_illformed_rounding : Instr.wellFormed (.fadd g0 1 1 1 1) = false ∧ Instr.wellFormed (.fma g0 1 1 1 14) = false ∧ Instr.wellFormed (.vfadd g0 1 1 1 7 0 0) = false ∧
    Instr.wellFormed (.ysums g0 2 1 1 7 0 0) = false ∧ Instr.wellFormed (.mrdrow g0 1 1 1 7 0) = false ∧ Instr.wellFormed (.mrdrow g0 1 1 1 1 2) = false ∧
    Instr.wellFormed (.tst g0 1 1 1 0 7 0) = false ∧ Instr.wellFormed (.tst g0 1 1 1 0 1 4) = false := by decide
/-- R131: SAT = 3 is not assigned; R139: parts, formats and modes of VCVT. -/
theorem test_illformed_vector : Instr.wellFormed (.vadd g0 1 1 1 0 3 0 0) = false ∧ Instr.wellFormed (.vcvt g0 1 1 2 0 0) = false ∧ Instr.wellFormed (.vcvt g0 1 1 0 0 14) = false ∧
    Instr.wellFormed (.vcvt g0 1 1 0 1 7) = false ∧ Instr.wellFormed (.vcvtWide g0 1 1 0 12) = false ∧ Instr.wellFormed (.vqnt g0 1 1 1 0 0 7) = false ∧
    Instr.wellFormed (.vbsc g0 1 1 0 7) = false ∧ Instr.wellFormed (.vbcast g0 1 1 1 0 0 0) = false ∧ Instr.wellFormed (.vslide g0 1 1 0 32) = false ∧
    Instr.wellFormed (.vred g0 1 1 11 0) = false ∧ Instr.wellFormed (.vscan g0 1 1 0 11 0) = false ∧ Instr.wellFormed (.vrng g0 1 3 0 0) = false ∧
    Instr.wellFormed (.vnm g0 1 1 1 0 3) = false := by decide
/-- R182, Table 7-6: scopes, orders and operations of atomics. -/
theorem test_illformed_atomics : Instr.wellFormed (.lda g0 1 1 0 6 0) = false ∧ Instr.wellFormed (.lda g0 1 1 0 0 2) = false ∧ Instr.wellFormed (.sta g0 1 1 0 0 1) = false ∧
    Instr.wellFormed (.amo g0 1 1 1 0 9 0) = false ∧ Instr.wellFormed (.amo g0 1 1 0 0 12 0) = false ∧ Instr.wellFormed (.cas g0 1 1 1 0 0 5) = false ∧
    Instr.wellFormed (.vamo g0 1 1 1 0 12) = false ∧ Instr.wellFormed (.fence g0 0 0) = false ∧ Instr.wellFormed (.tlda g0 1 1 1 0 5) = false := by decide
/-- The fields of the M slot (R223 to R237, R244). -/
theorem test_illformed_matrix : Instr.wellFormed (.mcall g0 0 1 0 0 0 0) = false ∧ Instr.wellFormed (.mcall g0 1 0 0 0 0 0) = false ∧ Instr.wellFormed (.msetp g0 8 1 0 0) = false ∧
    Instr.wellFormed (.mgetp g0 1 8) = false ∧ Instr.wellFormed (.mclaim g0 8 1 0) = false ∧ Instr.wellFormed (.mzero g0 0 0 0 0 3 0) = false ∧
    Instr.wellFormed (.mzero g0 0 1 0 0 0 1) = false ∧ Instr.wellFormed (.mnorm g0 0 1 0 0 0) = false ∧ Instr.wellFormed (.mcellPre g0 0) = false ∧ Instr.wellFormed (.mcellPre g0 7) = false ∧
    Instr.wellFormed (.mflow g0 1 3 1 0 none) = false ∧ Instr.wellFormed (.mflow g0 0 0 1 0 none) = false ∧ Instr.wellFormed (.mpred g0 8 1 0 0) = false ∧
    Instr.wellFormed (.mpred g0 1 1 0 8) = false := by decide
/-- R150: key types and pairs of the Y slot. -/
theorem test_illformed_select : Instr.wellFormed (.ysort g0 1 2 3 0 0) = false ∧ Instr.wellFormed (.ysort g0 2 2 3 0 3) = false ∧ Instr.wellFormed (.ymerge g0 2 3 4 0 0 0) = false ∧
    Instr.wellFormed (.ytopkInit g0 1 0 3) = false ∧ Instr.wellFormed (.ytopkOut g0 2 1 0) = false ∧ Instr.wellFormed (.ytopkOut g0 2 2 2) = false ∧ Instr.wellFormed (.ysums g0 0 1 1 0 0 0) = false ∧
    Instr.wellFormed (.ysums g0 2 1 0 0 1 0) = false ∧ Instr.wellFormed (.yrank g0 1 1 0 3) = false ∧ Instr.wellFormed (.ybkt g0 1 1 1 0 3) = false ∧ Instr.wellFormed (.ycmpr g0 1 1 8) = false ∧
    Instr.wellFormed (.yexpd g0 1 1 8 0) = false ∧ Instr.wellFormed (.yhist g0 1 1 1 0 0) = false ∧ Instr.wellFormed (.yargx g0 1 1 0 0 3) = false := by decide
/-- The X slot: guards as destinations, the marker's limit and the items of PWRQ. -/
theorem test_illformed_engines : Instr.wellFormed (.rpush g0 8 1 1) = false ∧ Instr.wellFormed (.rpushOpen g0 8 1 1) = false ∧ Instr.wellFormed (.rpushClose g0 8 1) = false ∧
    Instr.wellFormed (.mqsend g0 8 1 1) = false ∧ Instr.wellFormed (.launchNb g0 8 1 0) = false ∧ Instr.wellFormed (.sladd g0 8 1 1) = false ∧
    Instr.wellFormed (.bbmark g0 1 1 0x800 (some 4096)) = false ∧ Instr.wellFormed (.pwrq g0 1 7) = false ∧ Instr.wellFormed (.pwrres g0 8 1) = false ∧
    Instr.wellFormed (.pwrresRel g0 8) = false ∧ Instr.wellFormed (.tlbi g0 8 1 1) = false := by decide

/-! ## Words of the spec's worked encodings decode to their instructions -/

/-- R44's example of a pair word and its bundle's bytes. -/
theorem test_decode_pair : decodeSlot .P 0x006E0094 none = some (.pairWord g0 0 3 3 4 0 1 1 2) ∧
    bundleOf [0x06, 0x12, 0x94, 0x00, 0x6E, 0x00] = some ⟨6, 2, [.pairWord g0 0 3 3 4 0 1 1 2]⟩ := by decide
/-- The examples under R43, R101 and R119. -/
theorem test_decode_scalar : decodeSlot .S 0x06CA6800 (some 9) = some (.addi ⟨true, 3⟩ 5 6 0x800 (some 9)) ∧ decodeSlot .S 0x88080000 none = some (.li g0 4 0 none) ∧
    decodeSlot .S 0x88090000 (some 0x89ABCDEF) = some (.li g0 4 0x10000 (some 0x89ABCDEF)) ∧ decodeSlot .S 0x8C090000 (some 0x01234567) = some (.lih g0 4 0x10000 (some 0x01234567)) ∧
    decodeSlot .S 0x00084001 none = some (.add g0 4 4 0 1) := by decide
/-- LOOP of the example under R101, and the examples under R258. -/
theorem test_decode_control : decodeSlot .C 0x1800000A none = some (.loop g0 0 10 none) ∧ decodeSlot .C 0x5800002A none = some (.trap g0 0x2A none) ∧
    decodeSlot .C 0x5C000003 none = some (.gate g0 3) ∧ decodeSlot .C 0x60009000 none = some (.rft g0 9) ∧ decodeSlot .C 0x60000001 none = some (.rftN g0) ∧
    decodeSlot .C 0x6401E000 none = some (.snapst g0 30 0 none) := by decide
/-- The examples under R137, R139 and R140. -/
theorem test_decode_vector : decodeSlot .V 0x4C0642E2 none = some (.vfma g0 3 4 5 6 0 2) ∧ decodeSlot .V 0x6C043062 none = some (.vcvt g0 2 3 0 6 2) ∧
    decodeSlot .V 0x780A4004 none = some (.vbsc g0 5 4 0 4) ∧ decodeSlot .V 0x700C4294 none = some (.vqnt g0 6 4 5 1 0 4) := by decide
/-- The examples under R150 and R158. -/
theorem test_decode_select : decodeSlot .Y 0x08001121 none = some (.ytopkAdd g0 1 2 1) ∧ decodeSlot .Y 0x08004002 none = some (.ytopkInit g0 4 0 2) ∧
    decodeSlot .Y 0x080C8040 none = some (.ytopkOut g0 6 8 0) := by decide
/-- The example under R186: TLD into o9 from d3 at s4. -/
theorem test_decode_load : decodeSlot .L 0x5C124180 none = some (.tld g0 9 4 3 0 0 0) := by decide
/-- The examples of the matrix files: MROUT, MZERO.f.p and MCALL.p. -/
theorem test_decode_matrix : decodeSlot .M 0x2C0C7000 none = some (.mrout g0 6 7 0 none) ∧ decodeSlot .M 0x14006288 none = some (.mzero g0 0 6 5 1 0 0) ∧
    decodeSlot .M 0x14026408 none = some (.mzero g0 1 6 8 1 0 0) ∧ decodeSlot .M 0x00001146 none = some (.mcall g0 0 1 1 0 1 6) := by decide
/-- The examples under R276 and R427: MQSEND and FRED. -/
theorem test_decode_engines : decodeSlot .X 0x18066100 none = some (.mqsend g0 3 6 2) ∧ decodeSlot .X 0x30046380 none = some (.fred g0 2 6 7) := by decide
/-- R35, R36: the empty bundle with its stall count, and the line-skip; Table 2-2: presence 0 with P set is illegal. -/
theorem test_decode_headers : bundleOf [0x00, 0x05] = some ⟨2, 5, [.emptyBundle 5]⟩ ∧ bundleOf ([0x00, 0x80] ++ List.replicate 62 0) = some ⟨64, 0, [.lineSkip]⟩ ∧
    bundleOf [0x00, 0x10, 0, 0, 0, 0] = none := by decide
/-- R38: unassigned operation codes of each slot are refused. -/
theorem test_decode_unassigned : decodeSlot .C 0xFC000000 none = none ∧ decodeSlot .S 0xFC000000 none = none ∧ decodeSlot .V 0xFC000000 none = none ∧ decodeSlot .L 0xFC000000 none = none ∧
    decodeSlot .M 0xFC000000 none = none ∧ decodeSlot .Y 0x28000000 none = none ∧ decodeSlot .X 0xFC000000 none = none := by decide

/-! ## Small states -/

/-- The machine after reset, its thread 0 with the given change. -/
def me (f : Thread → Thread) : State := State.reset.updMe f
/-- Thread 0 with scalar registers. -/
def withS (rs : List (Nat × DWord)) : State := me (fun t => { t with regs := { t.regs with s := rs } })
/-- A vector register whose first lanes are given; the others are 0. -/
def lanes (ws : List Word) : VecReg := BitVec.ofNat 1024 (ws.foldr (fun w n => w.toNat + n * 2 ^ 32) 0)
/-- Thread 0 with vector, scalar and mask registers. -/
def withV (vs : List (Nat × VecReg)) (ss : List (Nat × DWord)) (ms : List (Nat × Word)) : State :=
  me (fun t => { t with regs := { t.regs with s := ss, v := vs, m := ms } })
/-- The value on its way to a destination after an instruction, with the cycle it lands. -/
def sent (d : Dest) (o : Host.Outcome State Fault Refusal) : Option (Nat × Nat) :=
  match o with
  | .next t => (t.me.flight.find? (fun f => f.dest == d)).map (fun f => (f.val, f.land))
  | _ => none
/-- The interlocked result due for a destination after an instruction (R52). -/
def answers (d : Dest) (o : Host.Outcome State Fault Refusal) : Option Nat :=
  match o with
  | .next t => (t.me.due.find? (fun f => f.dest == d)).map Flight.val
  | _ => none
/-- The lanes of a result on its way, from lane i on. -/
def sentLanes (d : Nat) (n : Nat) (o : Host.Outcome State Fault Refusal) : List Nat :=
  match sent (.v d) o with
  | some (v, _) => (List.range n).map (fun i => v / 2 ^ (32 * i) % 2 ^ 32)
  | none => []
/-- $fstat after an instruction. -/
def fstatOf (o : Host.Outcome State Fault Refusal) : Option Nat := match o with | .next t => some t.me.ctl.fstat.toNat | _ => none
/-- The cause, $estat and the handler's address of a trap. -/
def trapOf (o : Host.Outcome State Fault Refusal) : Option (Nat × Nat × Nat) :=
  match o with | .next t => if t.me.st = .trapped then some (t.me.ctl.cause.toNat, t.me.ctl.estat.toNat, t.me.pc.toNat) else none | _ => none
/-- Where the bundle continues. -/
def goesTo (o : Host.Outcome State Fault Refusal) : Option Nat := match o with | .next t => t.cur.target.map BitVec.toNat | _ => none

/-! ## One instruction -/

/-- R11's example: $tid 0x676 is on die 1, in cluster 19, on core 5 of it. -/
theorem test_tid_fields : dieOf 0x676 = 1 ∧ clusterOf 0x676 % 32 = 19 ∧ coreOf 0x676 % 8 = 5 := by decide
/-- R115: MULH of -1 and -1 is 0, MULHU of the same 2^64 - 2. -/
theorem test_mulh : sent (.s 3) (exec (.mulh g0 3 1 2) (withS [(1, -1), (2, -1)])) = some (0, 2) ∧
    sent (.s 3) (exec (.mulhu g0 3 1 2) (withS [(1, -1), (2, -1)])) = some (2 ^ 64 - 2, 2) := by decide
/-- Table 4-10. -/
theorem test_division : sent (.s 3) (exec (.div g0 3 1 2) (withS [(1, -7), (2, 2)])) = some (2 ^ 64 - 3, 19) ∧ sent (.s 3) (exec (.rem g0 3 1 2) (withS [(1, -7), (2, 2)])) = some (2 ^ 64 - 1, 19) ∧
    sent (.s 3) (exec (.divu g0 3 1 2) (withS [(1, 7)])) = some (2 ^ 64 - 1, 19) ∧ sent (.s 3) (exec (.remu g0 3 1 2) (withS [(1, 7)])) = some (7, 19) := by decide
theorem test_division_overflow : sent (.s 3) (exec (.div g0 3 1 2) (withS [(1, 0x8000000000000000), (2, -1)])) = some (2 ^ 63, 19) ∧
    sent (.s 3) (exec (.rem g0 3 1 2) (withS [(1, 0x8000000000000000), (2, -1)])) = some (0, 19) := by decide
/-- R117: a shift amount of 65 shifts by 1; SAR keeps the sign; CLZ of 1 is 63. -/
theorem test_shifts : sent (.s 3) (exec (.shl g0 3 1 2) (withS [(1, 3), (2, 65)])) = some (6, 0) ∧ sent (.s 3) (exec (.sari g0 3 1 63 none) (withS [(1, -5)])) = some (2 ^ 64 - 1, 0) ∧
    sent (.s 3) (exec (.clz g0 3 1) (withS [(1, 1)])) = some (63, 0) := by decide
/-- Table 4-8: -1 is below 1 as a signed number and not as an unsigned one. -/
theorem test_compare : sent (.g 2) (exec (.cmp g0 2 1 4 2) (withS [(1, -1), (4, 1)])) = some (1, 0) ∧ sent (.g 2) (exec (.cmp g0 2 1 4 4) (withS [(1, -1), (4, 1)])) = some (0, 0) := by decide
/-- R118: the 33-bit field from bit 0, sign-extended, of 2^32 is -2^32. -/
theorem test_bfx : sent (.s 3) (exec (.bfx g0 3 1 0x800 (some 0x1800)) (withS [(1, 0x100000000)])) = some (2 ^ 64 - 2 ^ 32, 0) := by decide
/-- R119's example: LIH onto 0xFFFF_FFFF_89AB_CDEF. -/
theorem test_lih : sent (.s 4) (exec (.lih g0 4 0x10000 (some 0x01234567)) (withS [(4, 0xFFFFFFFF89ABCDEF)])) = some (0x0123456789ABCDEF, 0) := by decide
/-- R119: LEA wraps modulo 2^48. -/
theorem test_lea : sent (.s 4) (exec (.lea g0 4 1 8 none) (withS [(1, 0xFFFFFFFFFFFC)])) = some (4, 0) := by decide
/-- R120: `gop.nand g3, g0, g0` clears g3. -/
theorem test_gop : sent (.g 3) (exec (.gop g0 3 0 0 5) State.reset) = some (0, 0) := by decide
/-- R14, R121: a reserved bit of $round traps ILLEGAL_OP, $round 7 too; $estat holds slot and operation. -/
theorem test_movz_reserved : (trapOf (exec (.movz g0 1 0x010 none) (withS [(1, 8)]))).map Prod.fst = some 0x02 := by decide
/-- The example under R124: 2.5 under .rup gives 3 and NX; +inf to uint64 gives all ones, OF and SAT. -/
theorem test_fcvti : sent (.s 6) (exec (.fcvti g0 6 7 0 10) (withS [(7, 0x40200000)])) = some (3, 2) ∧ fstatOf (exec (.fcvti g0 6 7 0 10) (withS [(7, 0x40200000)])) = some 1 ∧
    sent (.s 6) (exec (.fcvti g0 6 7 1 0) (withS [(7, 0x7F800000)])) = some (2 ^ 64 - 1, 2) := by decide
/-- The example under R124: 2^24 + 1 rounds to 2^24 under RNE. -/
theorem test_fcvtf : sent (.s 6) (exec (.fcvtf g0 6 7 0 0) (withS [(7, 16777217)])) = some (0x4B800000, 2) := by decide
/-- FP32: 1 + 2 = 3; inf - inf is the canonical NaN with NV (R71). -/
theorem test_fadd : sent (.s 3) (exec (.fadd g0 3 1 2 0) (withS [(1, 0x3F800000), (2, 0x40000000)])) = some (0x40400000, 3) ∧
    sent (.s 3) (exec (.fsub g0 3 1 2 0) (withS [(1, 0x7F800000), (2, 0x7F800000)])) = some (0x7FC00000, 3) := by decide
/-- The examples under R72: 2.6 to E2M1 is 3 under RNE and 2 under RTZ. -/
theorem test_e2m1 : (packElem 6 .rne 0x40266666).1 = 0x5 ∧ (packElem 6 (modeOf 1 0) 0x40266666).1 = 0x4 := by decide
/-- R131: 1 + 2^31 - 1 saturates as INT32 and sets SAT; it wraps without a completer. -/
theorem test_vadd : sentLanes 3 2 (exec (.vadd g0 3 1 2 0 1 0 0) (withV [(1, lanes [1, 5]), (2, lanes [0x7FFFFFFF, 6])] [] [])) = [0x7FFFFFFF, 11] ∧
    sentLanes 3 2 (exec (.vadd g0 3 1 2 0 0 0 0) (withV [(1, lanes [1, 5]), (2, lanes [0x7FFFFFFF, 6])] [] [])) = [0x80000000, 11] := by decide +kernel
/-- The example under R142: the exclusive scan over lanes 0, 2, 3 of 5, 7, 1, 4 leaves lane 1. -/
theorem test_vscan : sentLanes 2 4 (exec (.vscan g0 2 1 1 0 3) (withV [(1, lanes [5, 7, 1, 4]), (2, lanes [9, 9, 9, 9])] [] [(3, 0xD)])) = [0, 9, 5, 6] := by decide +kernel
/-- The example under R140: amax 10 of E2M1 gives scale code 0x7FB; quantised lanes 0xB7. -/
theorem test_vbsc : sentLanes 5 2 (exec (.vbsc g0 5 4 0 4) (withV [(4, lanes [0x41200000, 0xC0200000])] [] [])) = [0x7FB, 0] := by decide +kernel
theorem test_vqnt : sentLanes 6 2 (exec (.vqnt g0 6 4 5 1 0 4) (withV [(4, lanes [0x41200000, 0xC0200000]), (5, lanes [0x7FB])] [] [])) = [0xB7, 0] := by decide +kernel
theorem test_vdqnt : sentLanes 7 3 (exec (.vdqnt g0 7 6 5 1 0 4) (withV [(6, lanes [0xB7]), (5, lanes [0x7FB])] [] [])) = [0x41220000, 0xC0220000, 0] := by decide +kernel
/-- R134: VSEL takes v[a] where the mask bit is 1. -/
theorem test_vsel : sentLanes 3 2 (exec (.vsel g0 3 1 2 0 1) (withV [(1, lanes [1, 2]), (2, lanes [8, 9])] [] [(1, 1)])) = [1, 9] := by decide +kernel
/-- R135: `.first` of 0b1100 is 0b100; R136: FFS of it is 2. -/
theorem test_masks : sent (.m 2) (exec (.vmop g0 2 1 0 8) (withV [] [] [(1, 12)])) = some (4, 1) ∧ sent (.s 2) (exec (.vmpopFfs g0 2 1) (withV [] [] [(1, 12)])) = some (2, 1) := by decide
/-- R141: a slide by 1 moves lane 1 to lane 0. -/
theorem test_vslide : sentLanes 2 2 (exec (.vslide g0 2 1 0 1) (withV [(1, lanes [5, 6, 7])] [] [])) = [6, 7] := by decide +kernel
/-- The example under R152: NaN is above every key, -0 below +0 (ranks ascending of 2.0, NaN, -0, +0, then +inf). -/
theorem test_yrank : sentLanes 3 5 (exec (.yrank g0 3 1 0 2) (withV [(1, lanes ([0x40000000, 0xFFC00001, 0x80000000, 0, 0x40000000] ++ List.replicate 27 0x7F800000))] [] [])) = [2, 31, 0, 1, 3] := by decide +kernel
/-- R162: the largest of 3, 9, 9 is 9, in lane 1; with no active lane s[d] is 0x20. -/
theorem test_yargx : sent (.s 3) (exec (.yargx g0 3 1 1 0 0) (withV [(1, lanes [3, 9, 9])] [] [(1, 7)])) = some (9 * 2 ^ 32 + 1, 3) ∧
    sent (.s 3) (exec (.yargx g0 3 1 1 0 0) (withV [(1, lanes [3, 9, 9])] [] [])) = some (0x20, 3) := by decide +kernel
/-- R161: YCMPR under 0b101. -/
theorem test_ycmpr : sentLanes 3 3 (exec (.ycmpr g0 3 1 1) (withV [(1, lanes [7, 8, 9])] [] [(1, 5)])) = [7, 9, 0] := by decide +kernel
/-- R154: INIT with 65 traps INDEX_RANGE; the handler is at 64 x cause (R247). -/
theorem test_ytopk_range : trapOf (exec (.ytopkInit g0 1 0 0) (withS [(1, 65)])) = some (0x22, 65, 64 * 0x22) := by decide
/-- R97: BR goes to PC + 2 x offset; JMP to an odd address traps MISALIGNED. -/
theorem test_branch : goesTo (exec (.br g0 5 none) { State.reset with cur := { State.reset.cur with pc := 100 } }) = some 110 ∧
    (trapOf (exec (.jmp g0 1) (withS [(1, 3)]))).map Prod.fst = some 0x05 := by decide
/-- R97: CALL links NEXT and depth. -/
theorem test_call : sent (.s 31) (exec (.call g0 5 none) { me (fun t => { t with loops := [⟨0, 0, 1, 0⟩] }) with cur := { State.reset.cur with pc := 100, next := 106 } }) =
    some (2 ^ 48 + 106, 0) := by decide
/-- R99: a loop of 3 rounds of the bundle at NEXT + 2; LOOP_STACK 1 with six loops live. -/
theorem test_loop : (match exec (.loop g0 1 3 none) { State.reset with cur := { State.reset.cur with pc := 100, next := 106 } } with | .next t => t.me.loops | _ => []) = [⟨106, 108, 3, 0⟩] ∧
    trapOf (exec (.loop g0 1 3 none) (me (fun t => { t with loops := List.replicate 6 ⟨0, 0, 1, 0⟩ }))) = some (0x06, 1, 64 * 0x06) := by decide
/-- R256: TRAP 0x2A records its code; R18: SNAPREL at T is privileged. -/
theorem test_trap : (trapOf (exec (.trap g0 0x2A none) State.reset)).map (fun x => x.2.1) = some 0x2A ∧ (trapOf (exec (.snaprel g0) State.reset)).map Prod.fst = some 0x03 := by decide
/-- R257: GATE 3 enters service 3 at 0x4000 + 64 x 3. -/
theorem test_gate : goesTo (exec (.gate g0 3) State.reset) = some 0x40C0 := by decide
/-- R297: address 0x90_0000 is a hole and traps PERMISSION 0x13; R177: a doubleword at 4 is misaligned. -/
theorem test_access_traps : (trapOf (exec (.ldD g0 3 1 0 none) (withS [(1, 0x900000)]))).map Prod.fst = some (causeCode .permission) ∧
    (trapOf (exec (.ldD g0 3 1 4 none) State.reset)).map Prod.fst = some (causeCode .misaligned) := by decide
/-- R3, R178: a stored word is little-endian in the scratchpad, and a signed byte load of 0x80 gives -128. -/
theorem test_store_bytes : (match exec (.accessPerformsAtHome 0) (me (fun t => { t with memQ := [⟨0, 0, 0, 0, .st ⟨2 ^ 41 + 0x100, .own, true, 0⟩ 4 0x11223344, false, 0⟩] })) with
      | .next t => [t.byteAt (2 ^ 41 + 0x100), t.byteAt (2 ^ 41 + 0x103)] | _ => []) = [0x44, 0x11] := by decide +kernel
/-- The example under R184: amo.add of 3 on 5 stores 8. -/
theorem test_amo : (amoApply 4 0 5 3).1 = 8 := by decide
/-- R223: MSETP of a halfword of p2. -/
theorem test_msetp : sent (.p 2) (exec (.msetp g0 2 1 1 1) (withS [(1, 0xABCD)])) = some (0xABCD0000, 0) := by decide
/-- The formats of Table 3-6: the fixed levels of QC4 lie from -1 to 1 around 0. -/
theorem test_levels : nth 0 fixedLevels 0 = 0xBF80#16 ∧ nth 0 fixedLevels 7 = 0x0000#16 ∧ nth 0 fixedLevels 15 = 0x3F80#16 := by decide
/-- R278: MQSTAT of a queue number above 15 traps QUEUE_MISUSE 1; at reset the credits are 16 and 8 (R272). -/
theorem test_mqstat : (trapOf (exec (.mqstat g0 1 2) (withS [(2, 16)]))).map (fun x => x.2.1) = some 1 ∧ answers (.s 1) (exec (.mqstat g0 1 2) (withS [(2, 8)])) = some (16 + 8 * 32) := by decide
/-- R284: the status word of a free ring. -/
theorem test_rstat : answers (.s 1) (exec (.rstat g0 1 2 3) State.reset) = some 0x300000000 := by decide
/-- R82: MCALL reads the fixed levels; R388: SELFT of a unit that does not exist answers 2, at F. -/
theorem test_selft : answers (.s 1) (exec (.selft g0 1 2 0) (me (fun t => { t with atF := true, regs := { t.regs with s := [(2, 0xFFFFFF)] } }))) = some 2 := by decide
/-- R383: a sample of 2,500 nJ debits 2 µJ and leaves 500 nJ. -/
theorem test_energy : (match exec (.energySample 2500) { State.reset with cycle := 1100 } with | .next t => some (t.hub.energy.bal, t.hub.energy.rem) | _ => none) = some (-2, 500) := by decide

/-! ## Witnesses: states and operands that meet the hypotheses of each statement, clause by clause -/

/-- A guard that is true and one that is false, at reset; no snapshot is taken there, nothing waits to perform, and memory is canonical. -/
theorem witness_reset : State.reset.guard g0 = true ∧ State.reset.guard ⟨true, 0⟩ = false ∧ SnapFree State.reset ∧ NoOlderSync State.reset ∧ MemOk State.reset ∧
    State.reset.drained = true ∧ (State.reset.core (coreOf State.reset.cur.tid)).snap = none ∧ State.reset.fuseOf 0 = none := by decide
/-- The guard of thread 0 is true whatever its other registers hold. -/
theorem guard_me (f : Thread → Thread) : (me f).guard g0 = true := by
  simp [State.guard, g0, State.g, Thread.greg]
theorem witness_ResultsAndGuards : Dest.discards (.s 0) = true ∧ Dest.discards (.s 31) = false ∧ Dest.discards (.g 7) = false ∧ State.reset.me.flight = [] ∧ 2 ^ 64 - 1 < 2 ^ 64 ∧ 1 < 2 ∧
    State.reset.me.due = [] ∧ State.reset.me.snapped = [] ∧ State.reset.me.parked = [] ∧ State.reset.guard ⟨true, 0⟩ = false ∧
    (∀ i : Instr, i = .add ⟨true, 0⟩ 1 2 3 0 ∨ i = .mcall ⟨true, 0⟩ 1 1 0 0 0 6 ∨ i = .movz ⟨true, 0⟩ 1 0x010 none ∨ i = .gate ⟨true, 0⟩ 3 →
      guardOfInstr i = some ⟨true, 0⟩ ∧ State.reset.opDenied State.reset.cur.tid i = none) ∧ isGate (.gate ⟨true, 0⟩ 3) = true ∧ State.reset.me.atF = false ∧
    (let u := me (fun t => { t with atF := true }); guardOfInstr (.snaprel ⟨true, 0⟩) = some ⟨true, 0⟩ ∧ u.guard ⟨true, 0⟩ = false ∧ u.opDenied u.cur.tid (.snaprel ⟨true, 0⟩) = none) := by
  refine ⟨by decide, by decide, by decide, by decide, by decide, by decide, by decide, by decide, by decide, by decide, ?_, by decide, by decide, by decide⟩
  rintro i (rfl | rfl | rfl | rfl) <;> decide
theorem witness_IntegerArithmetic : State.reset.guard g0 = true ∧ State.reset.s 2 = 0 ∧ (withS [(2, 3)]).s 2 ≠ 0 ∧ (withS [(2, 3)]).guard g0 = true ∧
    (withS [(1, 0x8000000000000000), (2, -1)]).s 1 = BitVec.intMin 64 ∧ (withS [(1, 0x8000000000000000), (2, -1)]).s 2 = -1 := by decide
theorem witness_ScalarLogicAndComparisons : State.reset.guard g0 = true := by decide
/-- R118 at its limits: the whole register, and bit 63 alone. -/
theorem witness_FieldsAndConstants : State.reset.guard g0 = true ∧ (0xFC0#12).toNat % 64 + ((0xFC0#12).toNat / 64 + 1) ≤ 64 ∧ (0x03F#12).toNat % 64 + ((0x03F#12).toNat / 64 + 1) ≤ 64 := by decide
theorem witness_GuardsAndSystemRegisters : State.reset.guard g0 = true ∧ (sysRegInfo 0x010).isSome = true ∧ (∀ r, sysRegInfo 0x010 = some r → r.atT = true) ∧ (sysRegInfo 0x008).isSome = true ∧
    (∀ r, sysRegInfo 0x008 = some r → r.atT = false) ∧ State.reset.me.atF = false ∧ movzOk 0x010 = true ∧ movzReserved 0x010 5 = false ∧ movzReserved 0x011 0x3F = false ∧ movzReserved 0x010 8 = true ∧
    (State.reset.core 0).snap = none := by
  refine ⟨by decide, by decide, ?_, by decide, ?_, by decide⟩
  all_goals intro r h; revert h; simp [sysRegInfo]; rintro rfl; rfl
theorem witness_RoundingAndGenerator : (0 : Nat) ≠ 5 ∧ 31 < 32 := by decide
theorem witness_RoundingIsExact : 0x7F7FFFFF % 2 ^ 31 < 0x7F800000 ∧ 0xFF7F % 2 ^ 15 < 0x7F80 ∧ 0x7BFF % 2 ^ 15 < 0x7C00 := by decide
/-- Between 1 and the next FP32 value: a quarter of the way, and half of it from an odd code; above the largest finite value and beyond it; an integer and a third. -/
theorem witness_RoundingBetween : Fp.fp32.decode 0x3F800000 = .fin false 8388608 (-23) ∧ 0x3F800000 ≤ Fp.fp32.maxCode ∧ (∃ F, Fp.fmtOf 6 = some F) ∧
    (8388608 * (2 ^ 25 * 2 ^ (-23 : Int).toNat) < (2 ^ 25 + 1) * 2 ^ (-(-23) : Int).toNat ∧ (2 ^ 25 + 1) * 2 ^ (-(-23) : Int).toNat < 8388609 * (2 ^ 25 * 2 ^ (-23 : Int).toNat)) ∧
    Fp.fp32.decode 0x3F800001 = .fin false 8388609 (-23) ∧ 0x3F800001 < Fp.fp32.maxCode ∧
    (8388609 * (2 ^ 24 * 2 ^ (-23 : Int).toNat) < (2 ^ 24 + 3) * 2 ^ (-(-23) : Int).toNat ∧ (2 ^ 24 + 3) * 2 ^ (-(-23) : Int).toNat < 8388610 * (2 ^ 24 * 2 ^ (-23 : Int).toNat)) ∧
    2 * ((2 ^ 24 + 3) * 2 ^ 23 - 8388609 * 2 ^ 24) = 2 ^ 24 ∧ 0x3F800001 % 2 = 1 ∧
    Fp.fp32.maxCode = 0x7F7FFFFF ∧ Fp.fp32.decode 0x7F7FFFFF = .fin false 16777215 104 ∧
    (16777215 * (2 * 2 ^ (104 : Int).toNat) < (2 ^ 25 - 1) * 2 ^ 104 * 2 ^ (-104 : Int).toNat ∧ (2 ^ 25 - 1) * 2 ^ 104 * 2 ^ (-104 : Int).toNat < 16777216 * (2 * 2 ^ (104 : Int).toNat)) ∧
    16777216 * (1 * 2 ^ (104 : Int).toNat) ≤ 2 ^ 128 * 2 ^ (-104 : Int).toNat ∧ 0 < 1 ∧ 1 < 3 := by
  refine ⟨by decide, by decide, ⟨_, rfl⟩, by decide, by decide, by decide, by decide, by decide, by decide, by decide, by decide, by decide, by decide, by decide, by decide⟩
theorem witness_VectorIntegers : State.reset.guard g0 = true ∧ (0 : BitVec 2) ≠ 3 ∧ (1 : BitVec 2) ≠ 3 ∧ (2 : BitVec 2) ≠ 3 := by decide
/-- The smallest subnormal, whose reciprocal overflows, and 1; -1; the ends of the range of an exponential; and a NaN. -/
theorem witness_Approximations : Fp.f32 0x00000001 = .fin false 1 (-149) ∧ 1 * 2 ^ ((-149 : Int) + 149).toNat < 2 ^ 21 ∧ Fp.f32 0x3F800000 = .fin false 8388608 (-23) ∧
    2 ^ 21 < 8388608 * 2 ^ ((-23 : Int) + 149).toNat ∧ Fp.f32 0xBF800000 = .fin true 8388608 (-23) ∧ Fp.f32 0x43000000 = .fin false 8388608 (-16) ∧
    2 ^ 156 ≤ 8388608 * 2 ^ ((-16 : Int) + 149).toNat ∧ Fp.f32 0xC3160001 = .fin true 9830401 (-16) ∧ 150 * 2 ^ 149 < 9830401 * 2 ^ ((-16 : Int) + 149).toNat ∧
    (Fp.f32 0x7F800001).isNan = true ∧ (-126 : Int) ≤ -126 ∧ (127 : Int) ≤ 127 := by decide
/-- The last part of 16-bit elements, and of one-bit elements; finite lanes, and a lane that is not. -/
theorem witness_FormatsAndBlockScales : State.reset.guard g0 = true ∧ 32 * fmtWidth 0 * 1 + 32 * fmtWidth 0 ≤ 1024 ∧ 32 * fmtWidth 11 * 31 + 32 * fmtWidth 11 ≤ 1024 ∧ (11 : BitVec 4).toNat < 12 ∧
    ([0x7F7FFFFF, 0] : List Word).all (fun x => !(Fp.f32 x).isNan && decide (x.toNat % 2 ^ 31 ≠ 0x7F800000)) = true ∧
    ([0x7F800000] : List Word).all (fun x => !(Fp.f32 x).isNan && decide (x.toNat % 2 ^ 31 ≠ 0x7F800000)) = false := by decide
theorem witness_ReductionsAndScans : State.reset.guard g0 = true ∧ activeLanes State.reset 1 = [] ∧ (activeLanes State.reset 0).length = 32 := by decide
/-- A positive threshold, and magnitudes below it and not below it; the first value of a draw for which a small lane is cleared. -/
theorem witness_RandomAndSparse : State.reset.guard g0 = true ∧ Fp.f32 0x3F800000 = .fin false 8388608 (-23) ∧ Fp.f32 0xBE800000 = .fin true 8388608 (-25) ∧ Fp.f32 0x40000000 = .fin false 8388608 (-22) ∧
    ltDyadic 8388608 (-25) 8388608 (-23) = true ∧ ltDyadic 8388608 (-22) 8388608 (-23) = false ∧ 65536 ≤ 65536 := by decide
theorem witness_KeyOrderAndSorting : State.reset.guard g0 = true ∧ (Fp.f32 0x7FC00000).isNan = true ∧ (Fp.f32 0xFFFFFFFF).isNan = true ∧ (Fp.f32 0x7F800000).isNan = false ∧ (Fp.f32 0x80000000).isNan = false ∧
    0 < 63 ∧ 63 < 64 := by decide
/-- K at both ends and just outside; a closed state and an open one; a state that is full, and one with room. -/
theorem witness_RunningTopK : (withS [(1, 1)]).s 1 = 1 ∧ (withS [(1, 64)]).s 1 = 64 ∧ (withS [(1, 65)]).s 1 = 65 ∧ State.reset.s 1 = 0 ∧ SnapFree (withS [(1, 65)]) ∧ (withS [(1, 65)]).guard g0 = true ∧
    State.reset.src.sel.isOpen = false ∧ (me (fun t => { t with sel := { t.sel with isOpen := true } })).src.sel.isOpen = true ∧
    (let sel : Sel := { Sel.closed with isOpen := true, k := 1, count := 1, entries := [⟨5, 0, 0⟩] }
     1 ≤ sel.k.toNat ∧ sel.k.toNat ≤ 64 ∧ sel.entries.length = sel.count.toNat ∧ sel.count.toNat ≤ sel.k.toNat ∧
     sel.entries.Pairwise (fun e f => sel.before f e = false)) ∧
    (let sel : Sel := { Sel.closed with isOpen := true, k := 64 }
     1 ≤ sel.k.toNat ∧ sel.k.toNat ≤ 64 ∧ sel.entries.length = sel.count.toNat ∧ sel.count.toNat ≤ sel.k.toNat ∧
     sel.entries.Pairwise (fun e f => sel.before f e = false)) := by decide
theorem witness_SumsAndCounts : State.reset.guard g0 = true ∧ (1 : Nat) ≠ 2 ∧ ([0x7FC00000] : List Word).any (fun x => (Fp.f32 x).isNan) = true ∧ activeLanes State.reset 1 = [] ∧
    activeLanes State.reset 0 ≠ [] := by decide
/-- A link to depth 0 and one to depth 1 with no loop live; an even and an odd target. -/
theorem witness_TransfersAndNop : ((withS [(1, 0x000000001000)]).s 1).setWidth 48 = 0x1000#48 ∧ (0x1000#48).getLsbD 0 = false ∧ (0x1001#48).getLsbD 0 = true ∧
    ((withS [(1, 0x000000001000)]).s 1).toNat / 2 ^ 48 % 8 ≤ (withS [(1, 0x000000001000)]).src.loops.length ∧
    (withS [(1, 0x1000000001000)]).src.loops.length < ((withS [(1, 0x1000000001000)]).s 1).toNat / 2 ^ 48 % 8 ∧
    (withS [(1, 0x1001)]).guard g0 = true ∧ ((withS [(1, 0x1001)]).core 0).snap = none := by decide

/-- Thread 0 at F with n loops live whose body holds the bundle in issue (address 0). -/
def looping (n : Nat) : State := me (fun t => { t with atF := true, loops := List.replicate n ⟨0, 0, 1, 0⟩ })
/-- Six loops live; a nested loop that ends behind its outer one; a count beyond 32 bits; a count of 0 with a readable last header; leaving more loops than are live. -/
theorem witness_CountedLoops : (looping 6).guard g0 = true ∧ 6 ≤ (looping 6).src.loops.length ∧ ((looping 6).core 0).snap = none ∧ (looping 5).src.loops.length < 6 ∧
    (∃ l ls, (looping 5).src.loops = l :: ls ∧ l.start ≤ (looping 5).cur.pc ∧ (looping 5).cur.pc ≤ l.last ∧ l.last < (looping 5).cur.next + BitVec.ofNat 48 (2 * 1)) ∧
    (looping 0).src.loops.length < 6 ∧ (¬ ∃ l ls, (looping 0).src.loops = l :: ls ∧ l.start ≤ (looping 0).cur.pc ∧ (looping 0).cur.pc ≤ l.last ∧ l.last < (looping 0).cur.next + BitVec.ofNat 48 (2 * 1)) ∧
    0xFFFFFFFF < ((withS [(1, 0x100000000)]).s 1).toNat ∧ 1 ≤ ((withS [(1, 0xFFFFFFFF)]).s 1).toNat ∧ ((withS [(1, 0xFFFFFFFF)]).s 1).toNat ≤ 0xFFFFFFFF ∧ immU12 0 none = 0 ∧
    (∃ bs, (looping 0).fetch 0 (looping 0).src 0 = .bytes bs) ∧ (looping 1).src.loops[0]? = some ⟨0, 0, 1, 0⟩ ∧ (∃ bs, (looping 1).fetch 0 (looping 1).src 0 = .bytes bs) ∧
    (looping 1).src.loops.length ≤ (1 : BitVec 5).toNat := by
  refine ⟨by decide, by decide, by decide, by decide, ⟨_, _, rfl, by decide, by decide, by decide⟩, by decide, ?_, by decide, by decide, by decide, by decide, ⟨_, rfl⟩, by decide, ⟨_, rfl⟩, by decide⟩
  rintro ⟨l, ls, h, -⟩
  cases h
/-- The end of a body: of another loop, with iterations left, with none left; and no loop. -/
theorem witness_LoopEnd : (State.reset.thread 0).loops = [] ∧ ((looping 2).thread 0).loops = ⟨0, 0, 1, 0⟩ :: [⟨0, 0, 1, 0⟩] ∧ (0 : VAddr) ≠ 2 ∧ 1 < (2 : Word).toNat ∧ (1 : Word).toNat ≤ 1 := by decide
/-- An access of an earlier bundle that waits to perform. -/
def waitingLoad : Access := ⟨0, 0, 0, 0, .ld (.s 3) ⟨2 ^ 41 + 0x100, .own, true, 0⟩ 8 false, false, 0⟩
theorem witness_EndAndYield : State.reset.drained = true ∧ (me (fun t => { t with ord := 1, memQ := [waitingLoad] })).drained = false ∧ (me (fun t => { t with ord := 1, memQ := [waitingLoad] })).guard g0 = true ∧
    (let u := me (fun t => { t with st := .waiting, wait := some (.yield 0) }); (u.thread 0).wait = some (.yield 0) ∧ 0 ≤ u.cycle ∧ (u.thread 0).xwait = none ∧ (u.thread 0).st = .waiting) ∧
    (let u := me (fun t => { t with st := .trapped, wait := some (.yield 0) }); (u.thread 0).wait = some (.yield 0) ∧ 0 ≤ u.cycle ∧ (u.thread 0).xwait = none ∧ (u.thread 0).st = .trapped) ∧
    (let u := me (fun t => { t with st := .waiting, wait := some (.yield 1) }); (u.thread 0).wait = some (.yield 1) ∧ u.cycle < 1) ∧
    (me (fun t => { t with grp := some (0, 0) })).me.grp.isSome = true := by decide
/-- The group table of die 0. -/
def groups (gs : Table Group) (f : Thread → Thread) : State := (me f).updDie 0 (fun d => { d with groups := gs })
/-- 64 members. -/
def full : Table Nat := (List.range 64).map (fun m => (m, m))
theorem witness_Groups : State.reset.me.grp = none ∧ (State.reset.die 0).groups = [] ∧
    (∀ g, g < 512 → ∃ e ∈ ((groups ((List.range 512).map (fun g => (g, ⟨0, [], []⟩))) id).die 0).groups, e.1 = g) ∧
    511 < ((withS [(1, 512)]).s 1 + immS12 0 none).toNat ∧ ((withS [(1, 511)]).s 1 + immS12 0 none).toNat ≤ 511 ∧
    ((groups [(3, ⟨0, full, []⟩)] id).die 0).groups.find? (fun e => e.1 == 3) = some (3, ⟨0, full, []⟩) ∧ (∀ m, m < 64 → ∃ x ∈ full, x.1 = m) ∧
    ((groups [(3, ⟨5, [(0, 9)], []⟩)] id).die 0).groups.find? (fun e => e.1 == 3) = some (3, ⟨5, [(0, 9)], []⟩) ∧ (5 : BitVec 6) ≠ (groups [(3, ⟨5, [(0, 9)], []⟩)] id).me.dom ∧
    (0 : BitVec 6) = (groups [(3, ⟨0, [(0, 9)], []⟩)] id).me.dom ∧ (¬ ∃ x ∈ ([(0, 9)] : Table Nat), x.1 = 1) ∧ (∃ x ∈ ([(0, 9)] : Table Nat), x.1 = 0) := by
  refine ⟨by decide, by decide, fun g h => ⟨(g, ⟨0, [], []⟩), ?_, rfl⟩, by decide, by decide, by decide, ?_, by decide, by decide, by decide, by decide, by decide⟩
  · have e : ((groups ((List.range 512).map (fun g => (g, (⟨0, [], []⟩ : Group)))) id).die 0).groups = (List.range 512).map (fun g => (g, ⟨0, [], []⟩)) := by
      simp [groups, me]
    rw [e]
    exact List.mem_map.mpr ⟨g, List.mem_range.mpr h, rfl⟩
  · intro m h
    exact ⟨(m, m), List.mem_map.mpr ⟨m, List.mem_range.mpr h, rfl⟩, rfl⟩
theorem witness_Barriers : State.reset.drained = true ∧ (me (fun t => { t with grp := some (3, 0) })).me.grp = some (3, 0) ∧ (me (fun t => { t with grp := some (3, 0) })).drained = true ∧
    (let u := groups [(3, ⟨0, [(0, 0), (1, 4)], [0]⟩)] id; (u.die 0).groups.find? (fun e => e.1 == 3) = some (3, ⟨0, [(0, 0), (1, 4)], [0]⟩) ∧ 4 ∉ ([0] : List Nat)) ∧
    (let u := groups [(3, ⟨0, [(0, 0)], [0]⟩)] (fun t => { t with st := .waiting, wait := some .bar })
     (u.die 0).groups.find? (fun e => e.1 == 3) = some (3, ⟨0, [(0, 0)], [0]⟩) ∧ (u.thread 0).wait = some .bar ∧ (u.thread 0).st = .waiting ∧ (u.thread 0).xwait = none ∧ ([0] : List Nat).Nodup) := by decide

/-- Thread 0 at F. -/
def atF (f : Thread → Thread) : State := me (fun t => f { t with atF := true })
/-- Core 0 changed. -/
def core0 (s : State) (f : Core → Core) : State := s.updCore 0 f
/-- A leaf of domain 0 at 0x1_0000_0000. -/
def leaf : Leaf := ⟨0, 0x100000000, 0x10000, 0, true, true, false, true, 0, 0⟩
/-- The ends of every range; an area below 0xF_6000 and at it, seen from T; the own block for domain 0 and for domain 1; a window that is off, on in the pod's domain, and on in
another; and a resident leaf. -/
theorem witness_AddressMap : (State.reset.me.atF = false ∧ 0xF6000 ≤ 0xF6000 ∧ 0xFFFFF < 0x100000) ∧ ¬ 0xF6000 ≤ 0xF5FFF ∧ (7 < 8 ∧ 0xFFFFF < 0x100000) ∧
    ((State.reset.ownEntry 1 (0x3FFFFFF / 65536)).toNat % 64 = State.reset.me.dom.toNat ∧ (State.reset.ownEntry 1 (0x3FFFFFF / 65536)).toNat / 64 % 2 = 1 ∧ dieOf 0 < 2) ∧
    (State.reset.ownEntry 0 0).toNat % 64 ≠ (me (fun t => { t with dom := 1 })).me.dom.toNat ∧
    (let s := State.reset.updDie 0 (fun d => { d with own := [(0, 0x40), (1, 0x80)] })
     (AccKind.write.writes = true ∧ (s.ownEntry 0 0).toNat / 128 % 2 = 0) ∧ AccKind.read.reads = true ∧ (s.ownEntry 0 1).toNat / 64 % 2 = 0) ∧ (tget 0 State.reset.me.regs.win 15).getLsbD 0 = false ∧
    (let u := me (fun t => { t with regs := { t.regs with win := [(15, 1)] } }); (tget 0 u.me.regs.win 15).getLsbD 0 = true ∧ u.me.dom = u.hub.pod.dom) ∧
    (let u := me (fun t => { t with dom := 1, regs := { t.regs with win := [(0, 1)] } }); (tget 0 u.me.regs.win 0).getLsbD 0 = true ∧ u.me.atF = false ∧ u.me.dom ≠ u.hub.pod.dom) ∧
    (0x900000 ≤ 0xFFFFFF ∧ 0xFFFFFF < 0x1000000) ∧ (0x2000000 ≤ 0xFFFFFFF ∧ 0xFFFFFFF < 0x10000000) ∧ (0x18000000 ≤ 0xFFFFFFFF ∧ 0xFFFFFFFF < 0x100000000) ∧
    (core0 State.reset (fun c => { c with tlb := [leaf] })).tlbFind 0 0 0x10000FFFF = some leaf ∧ 4 % 8 ≠ 0 := by decide

/-- Thread 0 with s1, and window 0 open. -/
def winS (x : DWord) : State := me (fun t => { t with regs := { t.regs with s := [(1, x)], win := [(0, 1)] } })
/-- Core 0 with a transfer that claims bytes 0x100 to 0x107. -/
def claimed : State := core0 (withS [(1, 0x100)]) (fun c => { c with ranges := [⟨0x100, 0x108, 9⟩] })
/-- A load and a store of the own scratchpad's last doubleword below the inbound area, of a hole, of a claimed range, and through a window; a byte store at a window's first address. -/
theorem witness_ScalarAccesses : State.reset.guard g0 = true ∧ NoOlderSync State.reset ∧
    (∃ p, (withS [(1, 0xF5FF8)]).checkAll 0 (withS [(1, 0xF5FF8)]).me .load 8 [(0xF5FF8, 8)] = .ok [p]) ∧
    (∃ f, State.reset.checkAll 0 State.reset.me .load 8 [(0x900000, 8)] = .error (.fault f)) ∧ claimed.checkAll 0 claimed.me .load 8 [(0x100, 8)] = .error .wait ∧
    (∃ p, State.reset.checkAll 0 State.reset.me .store 8 [(0x100, 8)] = .ok [p] ∧ p.window? = none) ∧
    (∃ p, (winS 0).checkAll 0 (winS 0).me .store 8 [(0x10000F8, 8)] = .ok [p] ∧ p.window? = some 0 ∧ p.key % 8 = 0) ∧ NoOlderSync (winS 0) ∧ SnapFree (winS 0) ∧
    (0x1000000 ≤ 0x1000000 ∧ 0x1FFFFFF < 0x2000000) ∧ (∃ f, State.reset.checkAll 0 State.reset.me .store 1 [(0x2000000, 1)] = .error (.fault f)) := by
  refine ⟨by decide, by decide, ⟨_, rfl⟩, ⟨_, rfl⟩, rfl, ⟨_, rfl, rfl⟩, ⟨_, rfl, rfl, by decide⟩, by decide, by decide, by decide, ⟨_, rfl⟩⟩

/-- Thread 0 whose oldest access is the given operation, ready from the given cycle. -/
def performing (op : MemOp) (ready : Nat := 0) : State := me (fun t => { t with memQ := [⟨0, 0, ready, 0, op, false, 0⟩] })
def padPl (off : Nat) : Place := ⟨2 ^ 41 + off, .own, true, 0⟩
def hbmPl (a : Nat) : Place := ⟨a, .hbm, true, 0⟩
/-- Loads, stores, an HBM store and vector accesses that can perform, and one whose time has not come; places that no peer and no key covers. -/
theorem witness_AccessesPerform :
    ((performing (.ld (.s 3) (padPl 0) 8 false) 1).thread 0).firsts.find? ((performing (.ld (.s 3) (padPl 0) 8 false) 1).canPerform 0) = none ∧
    (let a : Access := ⟨0, 0, 0, 0, .fence, false, 0⟩
     ((performing .fence).thread 0).memQ = a :: [] ∧ (performing .fence).canPerform 0 a = true ∧ a.op.outbound = false) ∧
    (∀ op, op = .ld (.s 31) (padPl 0) 8 true ∨ op = .st (padPl 0) 8 5 ∨ op = .st (hbmPl 0) 8 5 ∨ op = .ldv 31 [(0, padPl 0), (31, padPl 4)] 0 ∨ op = .stv [(padPl 0, 1), (padPl 0, 2)] true →
      Performs (performing op) 0 ⟨0, 0, 0, 0, op, false, 0⟩ ∧ SoleWriter ((performing op).thread 0) 0 (.s 31) ∧ SoleWriter ((performing op).thread 0) 0 (.v 31) ∧ MemOk (performing op)) ∧
    isQueueByte (2 ^ 41 + 0xF6000) = true ∧ isQueueByte (2 ^ 41 + 0xF5FFF) = false ∧ isQueueByte (2 ^ 41 + 0xFC000) = false ∧
    (∀ c, (padPl 0).home ≠ .peer c) ∧ (padPl 0).home ≠ .hbm ∧ (hbmPl 0).home = .hbm ∧ ([(0, padPl 0), (31, padPl 4)].map Prod.fst).Nodup ∧ (padPl 4).key % 4 = 0 := by
  refine ⟨by decide, by decide, ?_, by decide, by decide, by decide, ?_, by decide⟩
  · rintro op (rfl | rfl | rfl | rfl | rfl) <;> decide +kernel
  · intro c h; cases h

/-- All lanes at 0x100 on, none active, lanes in a hole; the same for stores. -/
theorem witness_VectorAccesses : State.reset.guard g0 = true ∧ NoOlderSync State.reset ∧
    (∃ ps, State.reset.checkAll 0 State.reset.me .load 4 ((List.range 32).map (fun j => (0x100 + 4 * j, 4))) = .ok ps) ∧ State.reset.checkAll 0 State.reset.me .load 4 [] = .ok [] ∧
    (∃ f, State.reset.checkAll 0 State.reset.me .load 4 ((List.range 32).map (fun j => (0x900000 + 4 * j, 4))) = .error (.fault f)) ∧
    (∃ ps, State.reset.checkAll 0 State.reset.me .store 4 ([0, 31].map (fun j => (0x100 + 4 * j, 4))) = .ok ps ∧ ps ≠ [] ∧ ∀ p ∈ ps, p.window? = none) ∧
    (∃ f, State.reset.checkAll 0 State.reset.me .store 4 ([0, 31].map (fun j => (0x900000 + 4 * j, 4))) = .error (.fault f)) ∧ SnapFree State.reset := by
  refine ⟨by decide, by decide, ⟨_, rfl⟩, rfl, ⟨_, rfl⟩, ⟨_, rfl, by decide, by decide⟩, ⟨_, rfl⟩, by decide⟩

/-- An atomic of the own scratchpad, of a peer's, and of a hole; lanes of VAMO; and atomics that can perform, at the ends of their operands' range. -/
theorem witness_Atomics : State.reset.guard g0 = true ∧ NoOlderSync State.reset ∧
    (∃ p, State.reset.checkAll 0 State.reset.me ⟨.atomic, true, some 0, 3⟩ 8 [(0x100, 8)] = .ok [p] ∧ ∀ c, p.home ≠ .peer c) ∧
    (∃ p, State.reset.checkAll 0 State.reset.me ⟨.read, true, some 2, 3⟩ 4 [(0x200100, 4)] = .ok [p] ∧ p.home = .peer 1) ∧
    (∃ e, State.reset.checkAll 0 State.reset.me ⟨.write, true, some 5, 3⟩ 8 [(0x900000, 8)] = .error (.fault e)) ∧
    (∃ ps, State.reset.checkAll 0 State.reset.me ⟨.atomic, true, some 0, 3⟩ 4 [(0x100, 4), (0x104, 4)] = .ok ps) ∧ SnapFree State.reset ∧
    (∀ op, op = .amo (.s 31) (padPl 0) 8 11 (2 ^ 64 - 1) ∨ op = .cas (.s 31) (padPl 0) 4 0 (2 ^ 32 - 1) →
      Performs (performing op) 0 ⟨0, 0, 0, 0, op, false, 0⟩ ∧ SoleWriter ((performing op).thread 0) 0 (.s 31)) ∧ (∀ j, j < 8 → isQueueByte ((padPl 0).key + j) = false) ∧
    2 ^ 64 - 1 < 2 ^ (8 * 8) ∧ 2 ^ 32 - 1 < 2 ^ (8 * 4) := by
  refine ⟨by decide, by decide, ⟨_, rfl, ?_⟩, ⟨_, rfl, ?_⟩, ⟨_, rfl⟩, ⟨_, rfl⟩, by decide, ?_, by decide, by decide, by decide⟩
  · intro c h; cases h
  · rfl
  · rintro op (rfl | rfl) <;> decide +kernel

/-- In the own scratchpad and in HBM: FP32 and integer operations, CAS, LDA and STA; a VAMO whose lanes lie in different banks, and one whose first two share a word. -/
theorem witness_AtomicOperations :
    (∀ op, op = .amo (.s 31) (padPl 0) 4 9 (2 ^ 32 - 1) ∨ op = .amo (.s 31) (padPl 0) 4 aopLda 0 ∨ op = .amo .none (padPl 0) 8 aopSta (2 ^ 64 - 1) ∨ op = .amo (.s 31) (hbmPl 0) 8 8 (2 ^ 64 - 1) ∨
        op = .cas (.s 31) (hbmPl 0) 4 0 (2 ^ 32 - 1) ∨ op = .cas (.s 31) (hbmPl 0) 4 1 0 ∨ op = .amo (.s 31) (hbmPl 0) 8 aopLda 0 →
      Performs (performing op) 0 ⟨0, 0, 0, 0, op, false, 0⟩ ∧ SoleWriter ((performing op).thread 0) 0 (.s 31) ∧ MemOk (performing op)) ∧
    leNat ((performing .fence).hbmBytes 0 ((performing .fence).keyIdent 0) 4) = 0 ∧ (padPl 0).bank = some (unitOf (2 ^ 41)) ∧
    (∀ ls, ls = [(0, padPl 0, (1 : Word)), (31, padPl 4, 1)] ∨ ls = [(0, padPl 0, 1), (31, padPl 0, 1)] →
      Performs (performing (.vamo 31 ls 9 0 0)) 0 ⟨0, 0, 0, 0, .vamo 31 ls 9 0 0, false, 0⟩ ∧ SoleWriter ((performing (.vamo 31 ls 9 0 0)).thread 0) 0 (.v 31) ∧
        (∀ l ∈ ls, l.1 < 32 ∧ (l.2.1.home = .own ∨ ∃ b, l.2.1.home = .die b) ∧ l.2.1.key % 4 = 0 ∧ isQueueByte l.2.1.key = false) ∧ (ls.map Prod.fst).Nodup ∧
        (∀ l ∈ ls, (performing (.vamo 31 ls 9 0 0)).bankUsed l.2.1 = false)) ∧
    (padPl 0).bank ≠ (padPl 4).bank := by
  refine ⟨?_, by decide +kernel, by decide, ?_, by decide +kernel⟩
  · rintro op (rfl | rfl | rfl | rfl | rfl | rfl | rfl) <;> decide +kernel
  · rintro ls (rfl | rfl)
    all_goals
      refine ⟨by decide +kernel, by decide +kernel, fun l h => ?_, by decide, by decide +kernel⟩
      simp only [List.mem_cons, List.not_mem_nil, or_false] at h
      rcases h with rfl | rfl <;> exact ⟨by decide, .inl rfl, by decide, by decide⟩

/-- Queue 0 of core 0 with the given entries. -/
def queued (es : List QEntry) (f : Thread → Thread) : State := core0 (me f) (fun c => { c with inq := [(0, ⟨es, es.length⟩)] })
/-- A store of the last doubleword of a block of core 1 by thread 0, with and without a credit; a write entry, a message and an atomic whose turn has come. -/
theorem witness_InboundQueues :
    (let op : MemOp := .st ⟨2 ^ 41 + 2 ^ 20 + 0x178, .peer 1, true, 0⟩ 8 5
     let u := performing op
     let v := core0 u (fun c => { c with cred := [(1, 0)] })
     Performs u 0 ⟨0, 0, 0, 0, op, false, 0⟩ ∧ 2 ^ 41 + 2 ^ 20 + 0x178 = padPlace 1 0x178 ∧ 1 / 8 = coreOf 0 / 8 ∧ 0x178 < 2 ^ 20 ∧
       0x178 % 128 + 8 ≤ 128 ∧ (u.core 0).credit 1 ≠ 0 ∧ (v.core 0).credit 1 = 0 ∧ Performs v 0 ⟨0, 0, 0, 0, op, false, 0⟩) ∧
    State.reset.turn 0 = none ∧
    (queued [{ QEntry.blank with kind := 1, addr := 0x100, bmask := 1 <<< 127 }] id).turn 0 = some (0, { QEntry.blank with kind := 1, addr := 0x100, bmask := 1 <<< 127 }) ∧ isQueueByte (padPlace 0 0x100 + 127) = false ∧
    (queued [{ QEntry.blank with kind := 3 }] id).turn 0 = some (0, { QEntry.blank with kind := 3 }) ∧
    (let e : QEntry := { QEntry.blank with kind := 2, addr := 0x100, size := 8, aop := 11, operand := 2 ^ 64 - 1, asker := 4 }
     let a : Access := ⟨0, 0, 0, 0, .peerAmo (.s 3) ⟨2 ^ 41 + 0x100, .peer 0, true, 0⟩ 8 none, false, 0⟩
     let u := (queued [e] id).updThread 4 (fun t => { t with memQ := [a] })
     u.turn 0 = some (0, e) ∧ (u.thread 4).memQ.find? (fun x => !x.op.outbound) = some a ∧ e.operand < 2 ^ (8 * e.size) ∧ (e.size = 4 ∨ e.size = 8) ∧ e.aop < 12 ∧
       ∀ i, i < 8 → isQueueByte (padPlace 0 0x100 + i) = false) := by decide +kernel
/-- Selectors at their limits, credits and none, a message that is ready, and one that is not. -/
theorem witness_Messages : ((withS [(1, 8)]).s 1).toNat / 2 ^ 3 % 2 ^ 5 ≠ 0 ∧ ((withS [(1, 0x2000)]).s 1).toNat / 2 ^ 13 % 2 ^ 19 ≠ 0 ∧ SnapFree (withS [(1, 8)]) ∧
    ((withS [(1, 0x1F07)]).s 1).toNat / 2 ^ 3 % 2 ^ 5 = 0 ∧ ((withS [(1, 0x1F07)]).s 1).toNat / 2 ^ 13 % 2 ^ 19 = 0 ∧ (State.reset.core 0).credit 7 ≠ 0 ∧ (State.reset.core 0).msgCredit 7 ≠ 0 ∧
    ((core0 State.reset (fun c => { c with mcred := [(7, 0)] })).core 0).msgCredit 7 = 0 ∧
    (∀ k, k < 4 → (State.reset.thread (4 * 0 + k)).memQ.all (fun m => !m.op.sends.contains 7) = true) ∧
    (State.reset.core 0).message false 7 = none ∧ ((queued [{ QEntry.blank with kind := 3, marked := some 0 }] id).core 0).message false 0 = some (0, { QEntry.blank with kind := 3, marked := some 0 }) ∧
    ((queued [{ QEntry.blank with kind := 3, marked := some 0 }] id).core 0).message true 7 = some (0, { QEntry.blank with kind := 3, marked := some 0 }) ∧
    ((withS [(1, 8)]).s 1).toNat < 16 ∧ 16 ≤ ((withS [(1, 16)]).s 1).toNat ∧ ((queued [QEntry.blank] id).core 0).queue 0 = ⟨[QEntry.blank], 1⟩ ∧ ((State.reset.core 0).queue 7).ents = [] := by decide +kernel
/-- Thread 0 with s1 and s2, and ring 0 of its cluster. -/
def ringed (r : Ring) (x y : DWord) : State := (withS [(1, x), (2, y)]).updCluster 0 (fun c => { c with rings := [(0, r)] })
/-- A ring of thread 0 with two slots of 128 bytes for core 1, and one whose first slot a consumer still has. -/
def ring0 : Ring := { st := 1, owner := 0, pcore := 0, base := 0x1000, sz := 0, ns := 2, cm := 2, pushes := 0, opens := 1, slots := [] }
def ring1 : Ring := { ring0 with pushes := 1, slots := [(0, ⟨2, 0, 0⟩)] }
/-- The same rings seen by core 0 as a consumer: pushed, and landed. -/
def ringIn (land : BitVec 8) : Ring := { ring0 with owner := 4, cm := 1, pushes := 1, slots := [(0, ⟨1, land, 0⟩)] }
theorem witness_Rings : 8 ≤ ((withS [(1, 8)]).s 1).toNat ∧ SnapFree (withS [(1, 8)]) ∧ badRing 0 0 = true ∧ badRing 0x202001000 0 = false ∧
    ((ringed ring0 7 0x202001000).s 1).toNat < 8 ∧ (ringed ring0 0 0).ring 0 0 = ring0 ∧ ring0.st = 1 ∧ (ringed { ring1 with st := 2 } 0 0).ring 0 0 = { ring1 with st := 2 } ∧ Ring.held { ring1 with st := 2 } = true ∧
    State.reset.ring 0 7 = Ring.free ∧ Ring.free.st ≠ 1 ∧ Ring.free.st ≠ 2 ∧ Ring.held { ring0 with st := 2 } = false ∧
    (let x := ((ringed ring0 0x800200 0x100).s 1).toNat
     x / 2 ^ 3 % 2 ^ 5 = 0 ∧ x / 2 ^ 36 = 0 ∧ x / 2 ^ 8 % 2 ^ 8 = 2 ∧ BitVec.ofNat 8 2 &&& ~~~ring0.cm = 0 ∧ x / 2 ^ 16 % 2 ^ 20 = 128 ∧ 128 ≤ ring0.slotBytes ∧ 0x100 % 128 = 0 ∧
       ((ringed ring0 0x800200 0x100).s 2).toNat = 0x100 ∧ 0x100 + 128 ≤ 0xF6000 ∧ (ring0.slot 0).ms = 0 ∧ ({ ring1 with pushes := 2 }.slot (2 % 2)).ms ≠ 0) ∧
    NoOlderSync (ringed ring0 0x800200 0x100) ∧ ring0.held = false ∧ ring1.held = true ∧ (ringed ring0 0 0).me.memQ = [] ∧ ((ringed ring0 0 0).cluster 0).deliveries = [] ∧
    ring0.cm.getLsbD 0 = false ∧ (ringIn 0).cm.getLsbD 0 = true ∧ (ringIn 0).current 0 = some 0 ∧ ((ringIn 0).slot 0).land.getLsbD 0 = false ∧ ((ringIn 1).slot 0).land.getLsbD 0 = true := by decide +kernel
theorem witness_RingSource : ∃ ps, (ringed ring0 0x800200 0x100).checkAll 0 (ringed ring0 0x800200 0x100).me ⟨.read, false, none, 5⟩ 1 (piecesOf 0x100 128) = .ok ps := ⟨_, rfl⟩
/-- The misuses of a push by its owner, of a stranger, and of a core outside the ring; and a ring whose consumers have popped all, open and ORPHAN. -/
theorem witness_RingMisuse : (let x := ((ringed ring0 (2 ^ 36) 0).s 1).toNat; x / 2 ^ 36 ≠ 0) ∧ (let x := ((ringed ring0 8 0).s 1).toNat; x / 2 ^ 3 % 2 ^ 5 ≠ 0 ∧ 8 ≤ x) ∧
    (let x := ((ringed ring0 0x800000 0).s 1).toNat; x / 2 ^ 3 % 2 ^ 5 = 0 ∧ x / 2 ^ 36 = 0 ∧ x / 2 ^ 8 % 2 ^ 8 = 0) ∧ BitVec.ofNat 8 1 &&& ~~~ring0.cm ≠ 0 ∧
    129 % 128 ≠ 0 ∧ ring0.slotBytes < 256 ∧ 0xF6000 < 0xF5F80 + 256 ∧ SnapFree (ringed ring0 (2 ^ 36) 0) ∧ { ring0 with owner := 4 }.owner ≠ (ringed ring0 0 0).cur.tid ∧
    ring0.st ≠ 0 ∧ ring0.cm.getLsbD 0 = false ∧
    (∀ st, st = 1 ∨ st = 2 → let r : Ring := { ring0 with cm := 1, st := st }; r.cm.getLsbD 0 = true ∧ ∀ i, i < r.ns → (r.slot i).ms.getLsbD 0 = false) := by
  refine ⟨by decide, by decide, by decide, by decide, by decide, by decide, by decide, by decide, by decide, by decide, by decide, ?_⟩
  rintro st (rfl | rfl) <;> exact ⟨by decide, by decide⟩
/-- A delivery of the longest kind that waits for its range, moves, and lands; and a core whose 32 ranges are taken. -/
def delivering (lands : Option Nat) (n : Nat) : State :=
  (core0 State.reset (fun c => { c with ranges := List.replicate n ⟨0, 1, 9⟩ })).updCluster 0 (fun c => { c with deliveries := [⟨0, 0, 0, 2 ^ 20 - 1, [5], lands, 4, []⟩] })
theorem witness_RingDeliveries : ((delivering none 31).cluster 0).deliveries[0]? = some ⟨0, 0, 0, 2 ^ 20 - 1, [5], none, 4, []⟩ ∧ 0 < 8 ∧ 2 ^ 20 - 1 < 2 ^ 20 ∧ ([5] : List Byte).length ≤ 2 ^ 20 ∧
    (delivering none 31).slotInUse 0 ⟨0, 0, 0, 2 ^ 20 - 1, [5], none, 4, []⟩ = false ∧
    (performing (.ld (.s 3) (padPl (2 ^ 20 - 1)) 1 false)).slotInUse 0 ⟨0, 0, 0, 2 ^ 20 - 1, [5], none, 4, []⟩ = true ∧ ((delivering none 31).core 0).ranges.length < 32 ∧ 32 ≤ ((delivering none 32).core 0).ranges.length ∧ (delivering (some 1) 1).cycle < 1 ∧ 0 ≤ (delivering (some 0) 1).cycle ∧
    MemOk (delivering (some 0) 1) := by decide
/-- Cluster 0 with fused sets. -/
def fused (xs : List FuseSet) : State := State.reset.updCluster 0 (fun c => { c with sets := xs })
def set3 (f n : Nat) (parts : Table Nat) : FuseSet := ⟨f, n, parts, false, false, [], 0, [], [], 0⟩
/-- A range that leaves out core 0, the core taken by another participant, a set that overlaps, and a set of thread 0. -/
theorem witness_FusedSets : ¬ ((1 : BitVec 3).toNat ≤ 0 ∧ 0 < (1 : BitVec 3).toNat + (2 : BitVec 4).toNat) ∧ ((0 : BitVec 3).toNat ≤ 0 ∧ 0 < (0 : BitVec 3).toNat + (8 : BitVec 4).toNat) ∧
    (∃ x ∈ ((fused [set3 0 8 [(0, 1)]]).cluster 0).sets, ∃ p ∈ x.parts, p.1 = 0) ∧
    (∃ x ∈ ((fused [set3 1 2 [(1, 4)]]).cluster 0).sets, (x.f ≠ 0 ∨ x.n ≠ 8) ∧ x.f < 0 + 8 ∧ 0 < x.f + x.n) ∧ (¬ ∃ x ∈ ((fused [set3 1 2 [(1, 4)]]).cluster 0).sets, ∃ p ∈ x.parts, p.1 = 0) ∧
    (State.reset.cluster 0).sets = [] ∧ SnapFree (fused [set3 0 8 [(0, 1)]]) ∧ State.reset.fuseOf 0 = none ∧ (fused [set3 0 2 [(0, 0), (1, 4)]]).fuseOf 0 = some (set3 0 2 [(0, 0), (1, 4)]) ∧
    (fused [set3 0 2 [(0, 0), (1, 4)]]).guard g0 = true ∧ (fused [set3 0 2 [(0, 0), (1, 4)]]).me.wait = none ∧
    (let u := (me (fun t => { t with st := .trapped, wait := some (.rejoin 31) })).updCluster 0 (fun c => { c with sets := [set3 0 2 [(0, 0), (1, 4)]] })
     u.me.wait = some (.rejoin 31) ∧ u.me.st = .trapped ∧ u.fuseOf 0 = some (set3 0 2 [(0, 0), (1, 4)])) ∧
    (set3 0 2 [(0, 0), (1, 4)]).solo.contains 0 = false ∧ { set3 0 2 [(0, 0), (1, 4)] with solo := [0] }.solo.contains 0 = true := by decide

/-- A matrix command of thread 0, numbered 0. -/
def cmd (op : MatOp) (st : MatSt := .queued) (img : List Byte := []) : MatCmd := ⟨0, 0, op, some img, st, 0, ⟨0, 0, 0, 0⟩, 0, 0, 0, 0, none⟩
/-- Thread 0, in the given cycle, with a command alone in its matrix queue, and an array. -/
def engine (c : MatCmd) (f : Array → Array := id) (g : Thread → Thread := id) : State :=
  { (me (fun t => g { t with st := .running, ord := 1, mat := { t.mat with queue := [c], next := 1 } })).updArr 0 f with cycle := 9 }
/-- A set that is free, one that holds a slot of another thread, an own slot, and an own slot whose release is queued; an entry in reach, one of another domain, and one with a queued command. -/
theorem witness_MatrixRegisters : State.reset.guard g0 = true ∧ (State.reset.core 0).arr.slotOwn = [] ∧ onesBelow 64 ((withS [(1, 0x8000000000000001)]).s 1).toNat = [0, 63] ∧
    (∃ e ∈ ((State.reset.updArr 0 (fun a => { a with slotOwn := [(63, 9)] })).core 0).arr.slotOwn, e.1 = 63) ∧
    (((State.reset.updArr 0 (fun a => { a with slotOwn := [(63, 0)] })).core 0).arr.slotOwn.find? (fun e => e.1 == 63) = some (63, 0) ∧ State.reset.me.mat.queue = []) ∧
    (∃ c ∈ (engine (cmd (.rel false 0x8000000000000000)) (fun a => { a with slotOwn := [(63, 0)] })).me.mat.queue, c.op = .rel false 0x8000000000000000 ∧ 63 ∈ claimSet false 0x8000000000000000) ∧
    State.reset.entryPending 63 = false ∧ tget 0 (State.reset.core 0).arr.entryDom 63 = State.reset.me.dom ∧
    tget 0 ((State.reset.updArr 0 (fun a => { a with entryDom := [(63, 5)] })).core 0).arr.entryDom 63 ≠ State.reset.me.dom ∧ State.reset.me.atF = false ∧
    (engine (cmd (.tid 63 false))).entryPending 63 = true ∧ SnapFree State.reset ∧ State.reset.me.mat.queue.length ≤ (0 : BitVec 6).toNat ∧
    (62 : BitVec 6).toNat < (me (fun t => { t with mat := { t.mat with queue := List.replicate 63 (cmd .nop) } })).me.mat.queue.length := by
  refine ⟨by decide, by decide, by decide, ⟨(63, 9), by decide, rfl⟩, by decide, ⟨_, List.mem_singleton.mpr rfl, rfl, by decide⟩, by decide, by decide, by decide, by decide, by decide, by decide,
    by decide, by decide⟩

/-- Predicate bits at both ends of q7, on and off; rounding stochastic and not; images that are readable, misaligned and beyond the scratchpad. -/
theorem witness_MatrixCommandsAtIssue : State.reset.guard g0 = true ∧ State.reset.fuseOf 0 = none ∧
    (let u := me (fun t => { t with regs := { t.regs with s := [(2, 0x3F0700000000)], q := [(7, 0x8000000000000000)], p := [(1, 63)] } })
     (u.q (BitVec.ofNat 3 ((u.s 2).toNat / 2 ^ 32))).getLsbD ((u.s 2).toNat / 2 ^ 40 % 64) = true ∧ (u.q 7#3).getLsbD ((u.p 1#3).toNat % 64) = true ∧ (u.q 6#3).getLsbD ((u.p 1#3).toNat % 64) = false) ∧
    (State.reset.q 0#3).getLsbD 0 = false ∧ State.reset.roundCode3 0 ≠ 5 ∧ State.reset.roundCode3 6 = 5 ∧ (1 : BitVec 2).toNat < 2 ∧ 2 ≤ (2 : BitVec 2).toNat ∧ 0xF5FC8 % 8 = 0 ∧ 0xF5FC9 % 8 ≠ 0 ∧
    0x100000 < 0xFFFD0 + 64 ∧ SnapFree State.reset ∧ State.reset.me.memQ = [] := by decide
theorem witness_ImageReadable : PadReadable State.reset 4 0xF5FC0 64 := ⟨by decide, by decide, ⟨_, rfl⟩⟩
theorem witness_RoutineImage : PadReadable State.reset 4 0x1000 8 ∧ ∃ ps, State.reset.checkAll 0 State.reset.me ⟨.read, false, none, 4⟩ 1 (piecesOf 0x1000 8) = .ok ps ∧
    PadReadable ((State.reset.recordAll 0 State.reset.me ⟨.read, false, none, 4⟩ (ps.zip ((piecesOf 0x1000 8).map Prod.snd))).awaitAnswers ps) 4 0x1000 8 :=
  ⟨⟨by decide, by decide, ⟨_, rfl⟩⟩, _, rfl, by decide, by decide +kernel, ⟨_, rfl⟩⟩

/-- A check or a load that answers. -/
def isOk {α β : Type} (x : Except α β) : Bool := match x with | .ok _ => true | .error _ => false
theorem isOk_gives {α β : Type} {x : Except α β} (h : isOk x = true) : ∃ a, x = .ok a := by cases x with | ok a => exact ⟨a, rfl⟩ | error e => cases h
/-- The BF16 entry of the example under R284: 32 rows of 32 elements, stride 64, at 0x1000. -/
def entry1 : BitVec 512 := BitVec.ofNat 512 (0x0000002000200100 + 0x4001000 * 2 ^ 64)
/-- Core 0 with that entry as d3, slot o9 and tile a2 held by thread 0. -/
def holding (f : Thread → Thread) : State :=
  (me f).updArr 0 (fun a => { a with entries := [(3, entry1)], slotOwn := [(9, 0)], tileOwn := [(2, 0)] })
theorem witness_TileTransfers : (holding id).entryPending 3 = false ∧ (holding id).footBusy (footSlots [9]) = false ∧ (holding id).footBusy (footTiles [2]) = false ∧
    (engine (cmd (.tid 3 false))).entryPending 3 = true ∧
    (me (fun t => { t with ord := 1, mat := { t.mat with queue := [{ cmd .nop with wide := footTiles [2] }] } })).footBusy (footTiles [2]) = true ∧
    ((holding id).core 0).arr.holdsSlot 0 9 = true ∧ ((holding id).core 0).arr.holdsSlot 0 8 = false ∧ ((holding id).core 0).arr.holdsTile 0 2 = true ∧ ((holding id).core 0).arr.holdsTile 0 1 = false ∧
    (tldCheck (((holding id).core 0).arr.tensor 3) false false 0 0 = none) ∧ (tldCheck (((holding id).core 0).arr.tensor 3) false false 31 0 = none) ∧
    (tldCheck (((holding id).core 0).arr.tensor 3) false false 32 0).isSome = true ∧ (tldCheck (((holding id).core 0).arr.tensor 2) false false 0 0).isSome = true ∧ SnapFree (holding id) ∧
    (∀ p ∈ (((holding id).core 0).arr.tensor 3).rowSpans false 31 0, p.1 + p.2 ≤ 0x100000) ∧ NoOlderSync (holding id) ∧ ((holding id).q 0#3).getLsbD 0 = false ∧
    (holding id).cellErr 0 = none ∧ (holding id).slotSpoiled 0 9 = false ∧ (holding id).roundCode3 0 ≠ 5 ∧ (holding id).roundCode3 6 = 5 ∧ 4 ≤ (4 : BitVec 3).toNat := by decide +kernel
theorem witness_TileBytes :
    (∃ ps, (holding id).checkAll 0 (holding id).me ⟨.read, false, none, 3⟩ 1 (((((holding id).core 0).arr.tensor 3).rowSpans false 31 0).flatMap (fun p => piecesOf p.1 p.2)) = .ok ps) ∧
    (∃ ps, (holding id).checkAll 0 (holding id).me ⟨.read, false, none, 3⟩ 1 (((List.range 32).map (fun r => (0x1000 + r * 64, 32 * afBytes 2))).flatMap (fun p => piecesOf p.1 p.2)) = .ok ps) ∧
    (∃ ps, (holding id).checkAll 0 (holding id).me ⟨.write, false, none, 3⟩ 1 (((List.range 32).map (fun r => (0x1000 + r * 64, 32 * afBytes 2))).flatMap (fun p => piecesOf p.1 p.2)) = .ok ps) ∧
    (∀ x ∈ (List.range 32).map (fun r => (0x1000 + r * 64, 32 * afBytes 2)), x.1 + x.2 ≤ 0x100000) := by
  refine ⟨isOk_gives (by decide +kernel), isOk_gives (by decide +kernel), isOk_gives (by decide +kernel), by decide⟩
theorem witness_TileTransfersPerform : (∀ op, op = .tld 9 3 false 0 0 [] ∨ op = .tlda 2 2 (2 ^ 41 + 0x1000) 64 ∨ op = .tst 15 2 (2 ^ 41 + 0x1000) 64 0 [] →
      Performs (performing op) 0 ⟨0, 0, 0, 0, op, false, 0⟩) ∧
    tcanon 0 0 (State.reset.core 0).arr.slots = true ∧ MemOk State.reset ∧ 32 * afBytes 2 ≤ 64 ∧
    (List.range 2048).all (fun k => !isQueueByte (2 ^ 41 + 0x1000 + k)) = true := by
  refine ⟨?_, by decide, by decide, by decide, by decide +kernel⟩
  rintro op (rfl | rfl | rfl) <;> decide +kernel

/-- Bytes of doublewords, least significant first. -/
def image (ds : List Nat) : List Byte := ds.flatMap (fun d => natBytes 8 d)
/-- The MA program of Table 8-6 as an image; one without words; and a routine of a single REND at START 255. -/
def cellImage : List Byte := image [3, 0, 0, 0x3100000006020000, 0xF0000000, 0, 0]
def flowImage : List Byte := image [0, 0, 0, 0, 0, 0, 0, 0, 0, 0, 0, 0, 0, 0, 0, 0]
def routImage : List Byte := image [0x105, 0xF000000000000000]
theorem witness_ConfigurationCommands :
    (∀ op, op = .cell 6 ∨ op = .flow 2 false ∨ op = .cell 0 ∨ op = .flow 2 true ∨ op = .rout 255 →
      ((engine (cmd op)).thread 0).mat.queue = [cmd op] ∧ (cmd op).st = .queued ∧ (engine (cmd op)).canStart 0 (cmd op) true = true ∧ (cmd op).gang = none ∧ (cmd op).org.tid = 0 ∧
        (engine (cmd op)).hears (cmd op).org = true) ∧
    (∃ p, cellOf cellImage 0 = .ok p) ∧ cellOf [] 0 = .error 1 ∧ (∃ f, flowOf flowImage 2 = some f) ∧ flowOf (image [0, 0, 0, 0, 0, 0, 0, 0, 0, 0, 0, 0, 0, 2, 0, 0]) 2 = none ∧
    (∃ a, (Core.init.arr).loadRoutine routImage 255 0 = .ok a) ∧ (Core.init.arr).loadRoutine routImage 256 0 = .error 4 ∧
    (State.reset.core 0).arr.code.flip = false ∧ ((State.reset.updArr 0 (fun a => { a with code := { a.code with flip := true } })).core 0).arr.code.flip = true ∧ State.reset.coreCmds 0 = [] ∧
    ((engine (cmd (.call 0 [] none 0 [] 0) (.running 9)) (fun a => { a with code := { a.code with flip := true } })).coreCmds 0).length = 1 := by
  refine ⟨?_, ⟨_, rfl⟩, rfl, ⟨_, rfl⟩, rfl, ⟨_, rfl⟩, rfl, by decide, by decide, by decide, by decide⟩
  rintro op (rfl | rfl | rfl | rfl | rfl) <;> exact ⟨rfl, rfl, by decide +kernel, rfl, rfl, by decide⟩
theorem loadEntry_bad : (Core.init.arr).loadEntry 63 (entry1.toNat + 0x200) false 0 = .error 1 := by
  rw [show (Core.init.arr).loadEntry 63 (entry1.toNat + 0x200) false 0 = .error (match (Core.init.arr).loadEntry 63 (entry1.toNat + 0x200) false 0 with | .error e => e | .ok _ => 0) from by
    have h : isOk ((Core.init.arr).loadEntry 63 (entry1.toNat + 0x200) false 0) = false := by decide +kernel
    generalize (Core.init.arr).loadEntry 63 (entry1.toNat + 0x200) false 0 = x at *
    cases x with | ok a => cases h | error e => rfl]
  exact congrArg _ (by decide +kernel)
theorem witness_TableCommands :
    (∀ st, st = .queued ∨ st = .running 9 → ((engine (cmd (.tid 63 false) st)).thread 0).mat.queue = [cmd (.tid 63 false) st]) ∧
    (engine (cmd (.tid 63 false))).canStart 0 (cmd (.tid 63 false)) true = true ∧ (engine (cmd (.dup 3 0 1 3 false))).canStart 0 (cmd (.dup 3 0 1 3 false)) true = true ∧ 9 ≤ (engine (cmd .nop)).cycle ∧
    (∃ a, (Core.init.arr).loadEntry 63 entry1.toNat false 0 = .ok a) ∧ (Core.init.arr).loadEntry 63 (entry1.toNat + 0x200) false 0 = .error 1 ∧
    (∃ a, ({ Core.init.arr with entries := [(3, entry1)] }).dupEntry 3 0 16 3 false 0 = .ok a) := by
  refine ⟨?_, by decide +kernel, by decide +kernel, by decide, isOk_gives (by decide +kernel), loadEntry_bad, isOk_gives (by decide +kernel)⟩
  rintro st (rfl | rfl) <;> rfl
theorem witness_TileCommands :
    (∀ op, op = .nop ∨ op = .zero 15 false 2 0x7FFF ∨ op = .norm 15 true 0x8000 ∨ op = .rdrow 15 31 31 1 0 [] ∨ op = .wrrow 15 31 0 0 ∨ op = .rel true 0x8000 ∨ op = .rel false 0x8000000000000000 ∨
        op = .mcode true →
      let f (a : Array) : Array := { a with tileOwn := [(15, 0)], slotOwn := [(63, 0)] }
      ((engine (cmd op) f).thread 0).mat.queue = [cmd op] ∧ (engine (cmd op) f).canStart 0 (cmd op) true = true ∧ ((engine (cmd op) f).core 0).arr.holdsTile 0 15 = true ∧
        ((engine (cmd op) f).core 0).arr.holdsTile 0 14 = false ∧ ((engine (cmd op (.running 9)) f).thread 0).mat.queue = [cmd op (.running 9)] ∧ 9 ≤ (engine (cmd op (.running 9)) f).cycle ∧
        ((engine (cmd op) f).thread 0).flight = [] ∧ (engine (cmd op) f).hears (cmd op).org = true) ∧
    ((Core.init.arr).tile 15).int = false ∧ claimSet true 0x8000 = [15] ∧ claimSet false 0x8000000000000000 = [63] := by
  refine ⟨?_, by decide, by decide, by decide⟩
  rintro op (rfl | rfl | rfl | rfl | rfl | rfl | rfl | rfl) <;> exact ⟨rfl, by decide +kernel, by decide, by decide, rfl, by decide, by decide, by decide⟩
/-- Routine 0: RSETC a0, SCALE, REND; the thread holds a0. Routine 63 is not loaded. -/
def routine0 (a : Array) : Array :=
  { a with rstore := [(0, 0x2000000000000000), (1, 0x5000000000000000), (2, 0xF000000000000000)], rtab := [(0, ⟨true, 0, 3, 0⟩)], tileOwn := [(0, 0)] }
def call (r : Nat) (st : MatSt := .queued) : MatCmd := cmd (.call r [0, 0, 0, 0, 0, 0, 0, 0] none 0 fixedLevels 0) st
def run0 (fault : Option TrapInfo) : Run := { (default : Run) with tid := 0, cmd := 0, fault := fault }
theorem witness_MatrixCalls : ((engine (call 0) routine0).thread 0).mat.queue = [call 0] ∧ (engine (call 0) routine0).canStart 0 (call 0) true = true ∧ (call 0).gang = none ∧
    (engine (call 0) routine0).hears (call 0).org = true ∧ ({ engine (call 0) routine0 with cycle := 0 }).canStart 0 (call 0) true = false ∧
    (∃ i x, (engine (call 63) routine0).planCall 0 63 [0, 0, 0, 0, 0, 0, 0, 0] none = .error (i, x)) ∧
    (∃ steps x foot, (engine (call 0) routine0).planCall 0 0 [0, 0, 0, 0, 0, 0, 0, 0] none = .ok (steps, x, foot) ∧
      (let s := engine (call 0) routine0
       let pages := hbmPages ((steps.flatMap (s.streamPieces 0)).map Prod.fst)
       (∀ k ∈ s.engMissing 0 (s.engGot 0 (.stream 0)) 0 pages, (s.tlbFind 0 0 (65536 * k)).isSome = true) ∧ ∀ k ∈ pages, s.leafTested (65536 * k) (s.streamLeaf 0 (65536 * k)) = false) ∧
      (engine (call 0) routine0).firstFault 0 ((engine (call 0) routine0).runEnv 0 fixedLevels none) 0 steps = none ∧ (stopKind (.cell 0 1023)).1 < steps.length) ∧
    (∀ i, i = none ∨ i = some (trapInfo .routine 4) →
      (engine (call 0 (.running 9)) (fun a => { routine0 a with runs := [run0 i] })).dueRun 0 = some (run0 i, call 0 (.running 9)) ∧
        ((engine (call 0 (.running 9)) (fun a => { routine0 a with runs := [run0 i] })).core 0).arr.runs = [run0 i]) ∧ (run0 none).first = 0 := by
  refine ⟨rfl, by decide +kernel, rfl, by decide +kernel, by decide +kernel, ⟨_, _, rfl⟩, ⟨_, _, _, rfl, by decide +kernel, by decide +kernel, by decide⟩, ?_, rfl⟩
  rintro i (rfl | rfl) <;> exact ⟨by decide +kernel, by decide +kernel⟩

/-! ### Traps -/

/-- A snapshot of the given thread. -/
def snapOf (tid : Nat) (recs : List SnapRec) : Snap := { (default : Snap) with tid := tid, retSt := .running, recs := recs }
def snapped (tid : Nat) (f : Thread → Thread) : State := core0 (me f) (fun c => { c with snap := some (snapOf tid [⟨.s 31, 2 ^ 64 - 1, 31, 7, 0⟩]) })
/-- Thread 0 and thread 4 RUNNING in lock step. -/
def locked : State :=
  (((me (fun t => { t with st := .running })).updThread 4 (fun t => { t with st := .running })).updCluster 0 (fun c =>
    { c with sets := [{ set3 0 2 [(0, 0), (1, 4)] with formed := true, lock := true }] }))
theorem witness_LockStepTrap :
    (let f : FuseSet := { set3 0 2 [(0, 0), (1, 4)] with formed := true, lock := true }
     locked.fuseOf 0 = some f ∧ (locked.core (coreOf 0)).snap = none ∧ f.lock = true ∧ f.solo.contains (coreOf 0 % 8) = false ∧ (1, 4) ∈ f.inLock ∧ (locked.thread 4).st = .running) := by decide
theorem witness_TrapEntry : (State.reset.core (coreOf 0)).snap = none ∧ State.reset.fuseOf 0 = none ∧ ((snapped 1 id).core 0).snap = some (snapOf 1 [⟨.s 31, 2 ^ 64 - 1, 31, 7, 0⟩]) ∧
    (1 : Nat) ≠ (snapped 1 id).cur.tid ∧ ((snapped 0 id).core 0).snap = some (snapOf 0 [⟨.s 31, 2 ^ 64 - 1, 31, 7, 0⟩]) := by decide
theorem witness_TrapGateAndReturn : State.reset.guard g0 = true ∧ SnapFree State.reset ∧ State.reset.me.atF = false ∧ State.reset.me.flight = [] ∧
    (∃ f ∈ (me (fun t => { t with ord := 1, flight := [⟨.s 1, 0, 5, 0, 0⟩] })).me.flight, f.ord ≠ 1) ∧ (atF id).me.atF = true ∧ SnapFree (atF id) ∧ (atF id).mySnap = none ∧
    (snapped 0 (fun t => { t with atF := true })).me.atF = true ∧ (snapped 0 (fun t => { t with atF := true })).mySnap = some (snapOf 0 [⟨.s 31, 2 ^ 64 - 1, 31, 7, 0⟩]) ∧
    (snapped 0 (fun t => { t with atF := true })).guard g0 = true ∧ (snapped 0 (fun t => { t with atF := true })).fuseOf 0 = none ∧ (snapped 0 (fun t => { t with atF := true })).me.flight = [] ∧
    (snapped 0 (fun t => { t with atF := true })).me.wait = none ∧ (snapped 0 (fun t => { t with atF := true })).me.xwait = none ∧ (snapped 0 (fun t => { t with atF := true })).me.ctl.engine ≠ 4 ∧
    (let u := snapped 0 (fun t => { t with atF := true, ret := ⟨false, .waiting⟩, wait := some .bar })
     u.me.ret = ⟨false, .waiting⟩ ∧ u.me.wdone = false ∧ (snapOf 0 []).wdone = false ∧ u.me.wait = some .bar ∧ u.me.parked = [] ∧ u.me.faults = []) ∧
    (let u := (snapped 0 (fun t => { t with atF := true, mat := { t.mat with queue := [cmd .nop (.failed 0)], halted := true } })).updDie 0 (fun d => { d with cmds := [⟨⟨0, 0, 0, 0⟩, 5, 0, .halted 3⟩] })
     (u.me.mat.queue.filter MatCmd.isFailed).length = 1 ∧ ∃ c ∈ (u.die (dieOf u.cur.tid)).cmds, c.isHalted = true ∧ c.org.tid = u.cur.tid ∧ c.org.born = u.me.born) ∧
    0xFC000 % 64 = 0 ∧ 0xFC000 + (snapOf 0 [⟨.s 31, 2 ^ 64 - 1, 31, 7, 0⟩]).image.length ≤ 0x100000 ∧ NoOlderSync (snapped 0 (fun t => { t with atF := true })) := by decide +kernel
theorem witness_SnapshotStore : ∃ ps, (snapped 0 (fun t => { t with atF := true })).checkAll 0 (snapped 0 (fun t => { t with atF := true })).me ⟨.write, false, none, 3⟩ 1
    (piecesOf 0xFC000 (snapOf 0 [⟨.s 31, 2 ^ 64 - 1, 31, 7, 0⟩]).image.length) = .ok ps := ⟨_, rfl⟩
/-- A record of each file at the limits of its fields, in a snapshot of the last thread. -/
theorem witness_SnapshotImageRoundTrip :
    let sn := snapOf 2047 [⟨.s 31, 2 ^ 64 - 1, 31, 7, 5⟩, ⟨.v 31, 2 ^ 1024 - 1, 0, 0, 4⟩, ⟨.g 7, 1, 1, 1, 3⟩, ⟨.m 7, 0, 2, 2, 2⟩, ⟨.p 7, 0, 3, 3, 1⟩, ⟨.q 7, 0, 4, 4, 0⟩]
    sn.recs.length ≤ 63 ∧ sn.tid < 2048 ∧ sn.image.length < 2 ^ 13 ∧ (∀ r ∈ sn.recs, r.rem < 32 ∧ r.slot < 8) := by decide +kernel
theorem witness_AsynchronousTraps : (State.reset.thread 0).faults = [] ∧
    (let u := me (fun t => { t with st := .waiting, faults := [⟨trapInfo .copyFault 6, 0, ⟨0, 0, 0, 0⟩⟩] })
     (u.thread 0).faults = [⟨trapInfo .copyFault 6, 0, ⟨0, 0, 0, 0⟩⟩] ∧ (u.core (coreOf 0)).snap = none ∧ (u.thread 0).st = .waiting) ∧
    (let u := snapped 1 (fun t => { t with faults := [⟨trapInfo .copyFault 6, 0, ⟨0, 0, 0, 0⟩⟩] })
     (u.thread 0).faults = [⟨trapInfo .copyFault 6, 0, ⟨0, 0, 0, 0⟩⟩] ∧ (u.core (coreOf 0)).snap = some (snapOf 1 [⟨.s 31, 2 ^ 64 - 1, 31, 7, 0⟩]) ∧ (1 : Nat) ≠ 0) ∧ SnapFree State.reset ∧
    (let u := me (fun t => { t with st := .retiring, faults := [⟨trapInfo .copyFault 6, 0, ⟨0, 0, 0, 0⟩⟩] })
     (u.thread 0).faults = ⟨trapInfo .copyFault 6, 0, ⟨0, 0, 0, 0⟩⟩ :: [] ∧ (u.core (coreOf 0)).snap = none ∧ (u.thread 0).st = .retiring) ∧
    (let u := me (fun t => { t with st := .running, stop := some ⟨.kill, 0, true⟩, faults := [⟨trapInfo .copyFault 6, 0, ⟨0, 0, 0, 0⟩⟩] })
     (u.thread 0).stop = some ⟨.kill, 0, true⟩ ∧ (u.thread 0).st = .running) ∧
    (∀ n, n = 0 ∨ n = 1 →
      let f : AFault := ⟨trapInfo .copyFault 6, 0, ⟨0, 0, 0, n⟩⟩
      let u := snapped 0 (fun t => { t with st := .trapped, faults := [f] })
      (u.core (coreOf 0)).snap = some (snapOf 0 [⟨.s 31, 2 ^ 64 - 1, 31, 7, 0⟩]) ∧ (snapOf 0 []).tid = 0 ∧ (u.thread 0).st = .trapped ∧ f ∈ (u.thread 0).faults ∧
        (n = 0 → f.org.bundle ≤ (snapOf 0 []).ord) ∧ (n = 1 → (snapOf 0 []).ord < f.org.bundle)) := by
  refine ⟨by decide, by decide, by decide, by decide, by decide, by decide, ?_⟩
  rintro n (rfl | rfl) <;> decide
theorem witness_TileAlignment : (tldCheck (((holding id).core 0).arr.tensor 3) false false 0 24).isSome = true := by decide +kernel

/-! ### Tasks -/

/-- Doublewords of an object are set. -/
def dws (s : State) (key : Nat) (l : List (Nat × Nat)) : State := l.foldl (fun s p => s.setDw key p.1 0 64 p.2) s
/-- The object or record at 0x1000_0100 of die 0. -/
def obj0 : Nat := diePlace 0 0x100
/-- An object in die memory of either die's threads, and of a hole; counts at the ends of CARRIVE's range. -/
theorem witness_TaskCommands : State.reset.guard g0 = true ∧ isOk ((withS [(1, 0x10000100)]).dieObject .atomic 128 (((withS [(1, 0x10000100)]).s 1).toNat % 2 ^ 48)) = true ∧
    isOk ((withS [(1, 0x13FFFF80)]).dieObject .atomic 128 0x13FFFF80) = true ∧ isOk ((withS []).dieObject .atomic 128 0x10000140) = false ∧ isOk ((withS []).dieObject .atomic 128 0x900000) = false ∧ SnapFree (withS [(1, 0x900000)]) ∧
    (2 ^ 47 - 1 < ((withS [(1, 0x800000000000)]).s 1).toInt.natAbs ∧ ((withS [(1, 0x7FFFFFFFFFFF)]).s 1).toInt.natAbs ≤ 2 ^ 47 - 1) ∧
    isOk (State.reset.checkAll 0 State.reset.me ⟨.atomic, true, none, 6⟩ 32 [(0x10000100, 16)]) = true ∧ isOk (State.reset.dieObject .read 32 0x10000120) = true ∧ NoOlderSync State.reset ∧
    isOk ((withS [(1, 0x10000120)]).dieObject .read 32 ((withS [(1, 0x10000120)]).ea 1 0 none).toNat) = true := by decide +kernel
/-- Thread 0 in AWAIT on `obj0`, whose doublewords are given. -/
def awaiting (l : List (Nat × Nat)) : State := dws (me (fun t => { t with st := .waiting, wait := some (.await obj0 0) })) obj0 l
theorem witness_Await : (∀ l, l = [] ∨ l = [(0, 1 * 2 ^ 48)] ∨ l = [(0, 32767 * 2 ^ 48)] ∨ l = [(0, 32768 * 2 ^ 48)] ∨ l = [(1, 1 * 2 ^ 32)] ∨ l = [(1, 2 * 2 ^ 32)] →
      ((awaiting l).thread 0).wait = some (.await obj0 0) ∧ ((awaiting l).thread 0).st = .waiting ∧ ((awaiting l).thread 0).xwait = none ∧ ((awaiting l).thread 0).faults = []) ∧
    (awaiting []).dwField obj0 0 48 16 = 0 ∧ (awaiting [(0, 1 * 2 ^ 48)]).dwField obj0 0 48 16 = 1 ∧ (awaiting [(0, 32767 * 2 ^ 48)]).dwField obj0 0 48 16 = 32767 ∧
    (awaiting [(0, 32768 * 2 ^ 48)]).dwField obj0 0 48 16 = 32768 ∧ (awaiting []).dwField obj0 1 32 2 = 0 ∧ (awaiting [(1, 1 * 2 ^ 32)]).dwField obj0 1 32 1 = 1 ∧
    (awaiting [(1, 2 * 2 ^ 32)]).dwField obj0 1 32 2 = 2 ∧ ((awaiting []).core (coreOf 0)).halted = false ∧ (awaiting []).badWord obj0 16 = none ∧
    (({ awaiting [] with ecc := [(obj0 / 4 + 3, 1)] }).badWord obj0 16).isSome = true ∧ (({ awaiting [] with ecc := [(obj0 / 4 + 3, 1)] }).thread 0).faults = [] ∧
    (∀ e ∈ (awaiting []).ecc, e.2 ≠ 2) := by
  constructor
  · rintro l (rfl | rfl | rfl | rfl | rfl | rfl) <;> decide +kernel
  · decide +kernel

/-- A ready task at `obj0`, with NTHR 1, that waits since cycle 0. -/
def task0 : ReadyTask := ⟨obj0, 0, 0, 0, 0, 0, none, .fresh, []⟩
/-- Die 0 after boot, in the given cycle, with the record of one thread at `obj0`. -/
def sched (cycle : Nat) (f : Die → Die) : State :=
  dws { (State.reset.updDie 0 f).updHub (fun u => { u with booted := true }) with cycle := cycle } obj0 [(2, 2 ^ 40)]
theorem witness_Scheduling : State.reset.hub.booted = false ∧ (State.reset.die 0).ready = [] ∧
    (let s := sched 65536 (fun d => { d with ready := [task0] })
     MemOk s ∧ s.hub.booted = true ∧ ((s.die 0).order s.cycle).head? = some task0 ∧ task0.start = .fresh ∧ s.admission 0 (s.taskEnergy task0) = some 0 ∧ s.placement 0 task0 [] = some [0] ∧
       s.recOwned 0 obj0 = true ∧ s.reserved 0 task0 [0] = false ∧ (s.die 0).ready[0]? = some task0 ∧
       task0.aged < 3 ∧ task0.since + 65536 * (task0.aged + 1) ≤ s.cycle) ∧
    -- nine threads on one cluster, a core each: no placement
    (let t := dws (sched 0 (fun d => { d with ready := [task0] })) obj0 [(2, 9 * 2 ^ 40), (12, 0x600)]
     (t.die 0).ready = [task0] ∧ t.admission task0.dom (t.taskEnergy task0) ≠ none ∧ t.placement 0 task0 [] = none ∧ (t.die 0).running = [] ∧ (t.die 1).running = []) ∧
    (sched 65535 id).cycle < task0.since + 65536 * (task0.aged + 1) ∧
    (let s := sched 262144 (fun d => { d with ready := [task0] })
     task0 ∈ (s.die 0).ready ∧ (s.die 0).resv = none ∧ task0.since + 262144 ≤ s.cycle ∧ ∀ y ∈ (s.die 0).ready, y.since + 262144 ≤ s.cycle → task0.seq ≤ y.seq) ∧
    ((sched 0 (fun d => { d with resv := some ⟨0⟩ })).die 0).resv.isSome = true ∧ (State.reset.die 0).overflow = [] ∧
    (let s := sched 0 (fun d => { d with overflow := [task0] })
     (s.die 0).overflow = [task0] ∧ ((s.die 0).ready.filter (fun y => y.prio == task0.prio)).length < 65536) ∧
    (State.reset.die 0).pending = [] ∧ (sched 3 id).cycle < ((sched 3 id).die 0).drained + 4 := by decide +kernel
/-- Die 0 in cycle 4 with a launch of `obj0` by thread 0, PENDING, with the given JOIN and NTHR. -/
def launching (join nthr : Nat) : State :=
  dws { (me (fun t => { t with st := .running })).updDie 0 (fun d => { d with pending := [⟨obj0, some ⟨0, 0, 0, 0⟩, 0⟩] }) with cycle := 4 } obj0 [(2, join + nthr * 2 ^ 40 + 6 * 2 ^ 48)]
theorem witness_LaunchDrain : ((launching 0 1).die 0).pending = [⟨obj0, some ⟨0, 0, 0, 0⟩, 0⟩] ∧ ((launching 0 1).die 0).drained + 4 ≤ (launching 0 1).cycle ∧ MemOk (launching 0 64) ∧
    (launching 0 64).recTrap 0 0 obj0 obj0 128 = none ∧ (launching 0 0).hears ⟨0, 0, 0, 0⟩ = true ∧ (launching 0 64).recOwned 5 obj0 = false ∧
    (launching 0 64).recCheck obj0 0 0 true false = none ∧ (launching 0 64).recJoin obj0 = 0 ∧ (launching 1 1).recCheck obj0 0 0 true false = none ∧ (launching 1 1).recJoin obj0 ≠ 0 ∧
    ((launching 0 1).die 0).overflow = [] ∧ (launching 0 0).recCheck obj0 0 0 true false = some 0x02 ∧ (launching 0 65).recCheck obj0 0 0 true false = some 0x02 := by decide +kernel

/-- A task of one thread, thread 0, with its record at `obj0`. -/
def run1 : RunTask := { (default : RunTask) with record := some obj0, threads := [0] }
/-- Die 0 runs the task, and thread 0 is one of it. -/
def tasked (r : RunTask) (f : Thread → Thread) (cycle : Nat := 0) : State :=
  { (me (fun t => f { t with task := some 0 })).updDie 0 (fun d => { d with running := [r] }) with cycle := cycle }
theorem witness_StopsAndEnds : State.reset.canFree 0 = false ∧ (me (fun t => { t with st := .retiring })).canFree 0 = true ∧ ((me (fun t => { t with st := .retiring })).thread 0).task = none ∧
    State.reset.canStop 0 = false ∧ (State.reset.thread 0).stop = none ∧ (State.reset.thread 0).stop2 = none ∧
    (let s := me (fun t => { t with st := .suspended, stop := some ⟨.suspend 0, 0, true⟩ }); (s.thread 0).stop = some ⟨.suspend 0, 0, true⟩ ∧ (s.thread 0).stop2 = none ∧ (s.thread 0).st = .suspended) ∧
    (let s := (me (fun t => { t with st := .waiting, wait := some (.rejoin 31), back := some (7, []), stop := some ⟨.checkpoint, 0, false⟩ })).updCluster 0 (fun c => { c with sets := [set3 0 2 [(0, 0), (1, 4)]] })
     s.canStop 0 = true ∧ s.fuseOf 0 ≠ none ∧ (s.thread 0).st = .waiting ∧ (s.thread 0).wait = some (.rejoin 31) ∧ (s.thread 0).xwait = none ∧ (s.thread 0).back = some (7, [])) ∧
    (let s := tasked run1 (fun t => { t with st := .running, edge := some (true, 0), stop := some ⟨.kill, 0, false⟩ })
     s.canStop 0 = true ∧ (s.thread 0).stop = some ⟨.kill, 0, false⟩ ∧ (s.thread 0).task.bind s.runOf = some run1 ∧ s.fuseOf 0 = none ∧ s.liveThreads run1 = [0]) ∧
    (let r : RunTask := { run1 with threads := [0, 4] }
     let s := tasked r (fun t => { t with st := .running, edge := some (true, 0), stop := some ⟨.kill, 0, false⟩ })
     s.canStop 0 = true ∧ (s.thread 0).task.bind s.runOf = some r ∧ s.fuseOf 0 = none ∧ s.liveThreads r = [0, 4] ∧ (s.thread 4).stop.map StopReq.landed ≠ some true) ∧
    (let s := me (fun t => { t with st := .running, edge := some (true, 0), stop := some ⟨.checkpoint, 0, false⟩ })
     s.canStop 0 = true ∧ (s.thread 0).stop = some ⟨.checkpoint, 0, false⟩ ∧ (s.thread 0).grp = none ∧ s.fuseOf 0 = none ∧ (s.cluster (clusterOf 0)).rings = [] ∧ s.cycle < 0 + 1048576) ∧
    (let s := tasked run1 (fun t => { t with st := .running, stop := some ⟨.kill, 0, false⟩ }) 1048576
     (s.thread 0).stop = some ⟨.kill, 0, false⟩ ∧ 0 + 1048576 ≤ s.cycle ∧ (s.thread 0).task.bind s.runOf = some run1 ∧ run1.threads = [0] ∧ run1.freed = [] ∧ (s.thread 0).st = .running) ∧
    (let c : DieCmd := ⟨⟨0, 0, 0, 0⟩, 5, 0, .submit obj0 3 (some 0)⟩
     let s := (me (fun t => { t with st := .waiting, xwait := some 5, back := some (7, []), locks := [⟨.s 3, 5, 0, 7, false⟩] })).updDie 0 (fun d => { d with cmds := [c] })
     (s.die (dieOf 0)).cmds.find? (fun c => c.org.tid == 0 && c.org.born == (s.thread 0).born && (match c.op with | .submit _ _ (some u) => decide (u ≤ s.cycle) | _ => false)) = some c ∧
       (s.thread 0).back = some (7, []) ∧ (s.thread 0).st = .waiting ∧ (s.thread 0).wait = none ∧ (s.thread 0).xwait = some c.id) ∧
    ((me (fun t => { t with st := .trapped })).thread 0).st = .trapped := by decide +kernel
theorem witness_KillAndCheckpoint :
    (let r : RunTask := { run1 with killed := true, freed := [0] }
     let s := tasked r id
     (s.die 0).running[0]? = some r ∧ MemOk s ∧ r.killed = true ∧ (∀ x ∈ r.threads, x ∈ r.freed) ∧ r.record = some obj0 ∧ s.recOwned r.dom obj0 = true ∧ (s.die 0).overflow = [] ∧
       ((s.die 0).ready.filter (fun y => y.prio == s.dwField obj0 2 32 4)).length < 65536) ∧
    run1.killed = false ∧ run1.stopping ≠ some .checkpoint ∧
    (let r : RunTask := { run1 with stopping := some .checkpoint }
     (let s := tasked r (fun t => { t with st := .running })
      (s.die 0).running[0]? = some r ∧ (∀ x ∈ (s.die 0).susp, x.issuer.isSome = true ∨ x.task ≠ r.id) ∧ ∃ x ∈ s.liveThreads r, (s.thread x).st ≠ .suspended) ∧
     (∀ w, w = none ∨ w = some (8704, 1, false) →
        let x : Susp := { (default : Susp) with writing := w }
        ((tasked r id).updDie 0 (fun d => { d with susp := [x] }) |>.die 0).susp.find? (fun x => x.issuer.isNone && x.task == r.id) = some x ∧ (tasked r id).cycle < 1) ∧
     (let s := (tasked r (fun t => { t with st := .suspended, stop := some ⟨.checkpoint, 0, true⟩ })).updDie 0 (fun d => { d with pool := ⟨0x1000000, 0x400000, []⟩ })
      (s.die 0).susp.find? (fun x => x.issuer.isNone && x.task == r.id) = none ∧ s.liveThreads r = [0] ∧ (∀ x ∈ s.liveThreads r, (s.thread x).st = .suspended) ∧
        s.liveThreads r ≠ [] ∧ s.stoppedAll false (s.liveThreads r) = true ∧ s.dwField obj0 14 0 48 = 0 ∧
        s.membersDrained (s.liveThreads r) = true ∧ s.drainFault (s.liveThreads r) = false ∧ s.sharesGroup r = false ∧ (s.checkpointPlace 0 r obj0 (s.liveThreads r) r.carry).isSome = true)) := by
  refine ⟨by decide +kernel, rfl, by decide, by decide +kernel, ?_, by decide +kernel⟩
  rintro w (rfl | rfl) <;> decide +kernel

/-- The measurement's hash on the message "abc", as FIPS 180-4's worked example gives it. -/
theorem test_sha256_abc : sha256 [0x61, 0x62, 0x63] = 0xba7816bf8f01cfea414140de5dae2223b00361a396177a9cb410ff61f20015ad := by decide +kernel

/-- The hamper at 0x1000_1000 of domain 0, in the given STATE, of 8,704 bytes, 512 used. -/
def hamAt (st : Nat) (f : State → State) (va : Nat := 0x10001000) : State :=
  dws (f (withS [(1, 0x10001000), (2, 0x10004000)])) (diePlace 0 0x1000) [(0, 1 + st * 2 ^ 8), (2, va), (4, 8704 + 512 * 2 ^ 32)]
/-- The first bytes of the hamper that a register names have known translations, and none lies in a region under test. -/
abbrev known (s : State) (a : BitVec 5) (n : Nat) : Prop := s.hamMissing (s.namedHam a) n = [] ∧ s.hamTested (s.namedHam a) n = false
theorem witness_HamperInstructions :
    (∀ st, st = 0 ∨ st = 1 ∨ st = 5 → (hamAt st id).guard g0 = true ∧ (hamAt st id).suspendMembers 0 = [0] ∧ ((hamAt st id).die 0).susp = [] ∧
      (hamAt st id).vetSuspend ((hamAt st id).namedHam 1) false [0] = some 8704 ∧ (hamAt st id).hamCheck ((hamAt st id).namedHam 1) false false true = none ∧
      (hamAt st id).hamState ((hamAt st id).namedHam 1) = st ∧ (hamAt st id).ecc = [] ∧ (hamAt st id).hears (hamAt st id).origin = (hamAt 1 id).hears (hamAt 1 id).origin ∧
      known (hamAt st id) 1 512 ∧ known (hamAt st id) 1 ((hamAt st id).hamLimit ((hamAt st id).namedHam 1) (hamAt st id).me.atF) ∧
      known (hamAt st id) 1 ((hamAt st id).hamUsed ((hamAt st id).namedHam 1) (hamAt st id).me.atF) ∧ known (hamAt st id) 2 ((hamAt st id).hamUsed ((hamAt st id).namedHam 1) (hamAt st id).me.atF)) ∧
    ¬ known (withS [(1, 0x100000000)]) 1 512 ∧ (hamAt 1 (fun s => s.updMe (fun t => { t with st := .running }))).hears ⟨0, 0, 0, 0⟩ = true ∧
    State.reset.vetSuspend (State.reset.namedHam 1) false [0] = none ∧
    ((hamAt 1 (fun s => s.updDie 0 (fun d => { d with susp := [{ (default : Susp) with members := [0] }] }))).die 0).susp.any (fun x => x.members.any (fun m => [0].contains m)) = true ∧
    (hamAt 1 id).resumeCheck ((hamAt 1 id).namedHam 1) false = none ∧ (hamAt 1 id).engFault 0 [] 0 false [.read, .write] 0x10001000 512 = none ∧
    (let s := (hamAt 1 id).updDie 0 (fun d => { d with own := [(1, 5)] }) |>.setDw (diePlace 0 0x1000) 4 0 64 (0x20000 + 0x10000 * 2 ^ 32)
     s.hamUsed (s.namedHam 1) false = 0x10000 ∧ s.resumeCheck (s.namedHam 1) false = none ∧ (s.engFault 0 [] 0 false [.read, .write] 0x10001000 0x10000).isSome = true) ∧ ((hamAt 0 id).resumeCheck ((hamAt 0 id).namedHam 1) false).isSome = true ∧ ((hamAt 1 id).die 0).overflow = [] ∧
    (hamAt 1 id).hcopyCheck ((hamAt 1 id).namedHam 1) ((hamAt 1 id).namedHam 2) false = none ∧ ((hamAt 4 id).hcopyCheck ((hamAt 4 id).namedHam 1) ((hamAt 4 id).namedHam 2) false).isSome = true ∧
    ((hamAt 1 id 0).hamCheck ((hamAt 1 id 0).namedHam 1) false false true).isSome = true := by
  and_intros
  · rintro st (rfl | rfl | rfl) <;> decide +kernel
  all_goals decide +kernel
/-- Die 0 with a SUSPEND of thread 0, whose threads are in the given state. -/
def suspending (st : TState) (w : Option (Nat × Nat × Bool)) : State :=
  (me (fun t => { t with st := st })).updDie 0 (fun d => { d with susp := [{ (default : Susp) with issuer := some 0, members := [0], size := 8704, va := 0x10001000, writing := w }] })
/-- A RESUME of thread 4, an HDISCARD of thread 0 that reached die 0 in one cycle, in either order, and an HCOPY; and each STATE of the header. -/
theorem witness_HamperSwaps :
    let x : HSwap := ⟨⟨4, 0, 0, 0⟩, 0, false, 0x10001000, 1, 0, 0x10001000, [], .resume 0⟩
    let y : HSwap := ⟨⟨0, 0, 0, 0⟩, 0, false, 0x10001000, 5, 0, 0x10001000, [], .discard 31 0⟩
    let z : HSwap := { y with op := .copy 31 0 [] }
    let at_ (st : Nat) (l : List HSwap) : State := (hamAt st (fun s => s.updMe (fun t => { t with st := .running }))).updDie 0 (fun d => { d with swaps := l })
    let h : Ham := ⟨0, x.dom, x.va, false, x.pins⟩
    (((at_ 1 [x, y]).die 0).swaps = [x, y] ∧ y.org.tid < x.org.tid) ∧ (((at_ 1 [y, x]).die 0).swaps = [y, x] ∧ y.org.tid ≤ x.org.tid) ∧
    ((at_ 1 []).hamState h = x.st ∧ (at_ 1 []).hamDw h 1 = x.gen ∧ (at_ 1 []).hamDw h 2 % 2 ^ 48 = x.self) ∧ ¬ (at_ 4 []).hamState h = 1 ∧ (at_ 5 []).hamState h = y.st ∧
    ((at_ 5 []).hamState h = z.st ∧ (at_ 5 []).hamDw h 1 = z.gen ∧ (at_ 5 []).hamDw h 2 % 2 ^ 48 = z.self) ∧ ¬ (at_ 1 []).hamState h = z.st ∧
    (at_ 4 []).hamState h ≠ 5 ∧ ((at_ 1 []).die 0).overflow = [] ∧ nbits ((at_ 1 []).hamDw h 0) 12 1 = 0 ∧ (((at_ 1 []).die 0).ready.filter (fun z => z.prio == 0)).length < 65536 ∧
    ((at_ 1 []).thread 0).st ≠ .free ∧ ((at_ 1 []).thread 0).born = y.org.born ∧ SoleWriter ((at_ 1 []).thread 0) 0 (.s 31) := by decide +kernel
theorem witness_HamperEvents :
    (let s := suspending .waiting none; ∃ m ∈ (nth default (s.die 0).susp 0).members, (s.thread m).st ≠ .suspended) ∧
    (let s := suspending .suspended none
     (s.die 0).susp.length = 1 ∧ (∀ m ∈ (nth default (s.die 0).susp 0).members, (s.thread m).st = .suspended) ∧ s.membersDrained [0] = true ∧ s.drainFault [0] = false ∧ s.hamSize [0] [] ≤ 8704 ∧
       s.hamTested ((nth default (s.die 0).susp 0).ham 0) 512 = false ∧
       (s.updThread 0 (fun t => { t with stop := some ⟨.suspend 0, 0, true⟩ })).stoppedAll true [0] = true ∧ 0 ∈ (nth default (s.die 0).susp 0).members) ∧
    (suspending .suspended (some (8704, 0, false))).hamTested ((nth default ((suspending .suspended none).die 0).susp 0).ham 0) 8704 = false ∧
    (suspending .suspended (some (8704, 1, false))).cycle < 1 ∧ 0 ≤ (suspending .suspended (some (8704, 0, false))).cycle ∧
    (dws State.reset (diePlace 0 0x1000) [(2, 0x10001000)]).stillWriting ((nth default ((suspending .suspended none).die 0).susp 0).ham 0) = true ∧
    (hamAt 4 id).stillWriting ((nth default ((suspending .suspended none).die 0).susp 0).ham 0) = false ∧
    (∀ u, u = 0 ∨ u = 1 →
      ((State.reset.updDie 0 (fun d => { d with hloads := [⟨1, 0, 0x10001000, false, [], 1, 0, u⟩] })).die 0).hloads[0]? = some ⟨1, 0, 0x10001000, false, [], 1, 0, u⟩ ∧
      State.reset.hamTested ⟨1, 0, 0x10001000, false, []⟩ 512 = false ∧
      (let c : HCopy := ⟨⟨0, 0, 0, 0⟩, 31, 0, 0, false, 0x10001000, 0x10004000, 1024, [], [], [], (1, 0, 0x10004000), u⟩
       let src : Ham := ⟨0, 0, 0x10001000, false, []⟩
       let s := (me (fun t => { t with st := .running })).updDie 0 (fun d => { d with hcopies := [c] })
       (s.die 0).hcopies[0]? = some c ∧ s.hamTested src 1024 = false ∧ s.hamTested ⟨0, 0, 0x10004000, false, []⟩ 1024 = false ∧ s.ecc = [] ∧ s.hamWord src 512 512 = none ∧
         { s with ecc := [((diePlace 0 0x1200) / 4, 1)] }.hamWord src 512 512 = some 0x10001200 ∧ s.hears c.org = true)) := by
  refine ⟨by decide +kernel, by decide +kernel, by decide +kernel, by decide, by decide, by decide +kernel, by decide +kernel, ?_⟩
  rintro u (rfl | rfl) <;> decide +kernel

/-- A copy of 4,097 bytes from 0x1000_0000 to offset 0 of member 0's scratchpad, with the given chunks done and channel. -/
def copy0 (chunks : Nat) (busy : Option Nat) (cobj join : Nat := 0) : Copy :=
  ⟨0, 0, 0, 0x10008000, [0x10000000, 0, 0x800010010001, 0, BitVec.ofNat 64 cobj, BitVec.ofNat 64 join, 0, 0], none, [(0, 0)], 0, chunks, busy, false⟩
def copying (c : Copy) : State := State.reset.updDie 0 (fun d => { d with copies := [c] })
/-- The same copy from HBM, and with the page of its HBM range translated. -/
def fromHbm (c : Copy) : Copy := { c with words := [0x100000000, 0, 0x800010010001, 0, 0, 0, 0, 0] }
def mapped (c : Copy) : State := (copying c).updDie 0 (fun d => { d with tlb := [leaf] })
theorem witness_CopyEngine :
    (let s := copying (copy0 0 none)
     (s.die 0).copies[0]? = some (copy0 0 none) ∧ (s.die 0).waitingCopy = some 0 ∧ ((s.die 0).copies.filter (fun x => x.busy.isSome)).length < 16 ∧ (copy0 0 none).malformed = none ∧
       (copy0 0 none).unread = none ∧ ∀ r ∈ (copy0 0 none).ranges, (s.core r.1).ranges.length + ((copy0 0 none).ranges.filter (fun x => x.1 == r.1)).length ≤ 32) ∧
    (copying (fromHbm (copy0 0 (some 0)))).chunkReady 0 (fromHbm (copy0 0 (some 0))) = false ∧
    (State.reset.updDie 0 (fun d => { d with copies := List.replicate 2 (copy0 0 none) }) |>.die 0).waitingCopy ≠ some 1 ∧
    16 ≤ ((State.reset.updDie 0 (fun d => { d with copies := List.replicate 16 (copy0 0 (some 1)) ++ [copy0 0 none] }) |>.die 0).copies.filter (fun x => x.busy.isSome)).length ∧
    (copying (copy0 0 (some 1))).cycle < 1 ∧ (copy0 0 (some 0)).chunks ≠ (copy0 0 (some 0)).chunkCount ∧ (mapped (fromHbm (copy0 0 (some 0)))).chunkReady 0 (fromHbm (copy0 0 (some 0))) = true ∧
    (copying (copy0 0 (some 0))).chunkReady 0 (copy0 0 (some 0)) = true ∧ (mapped (fromHbm (copy0 0 (some 0)))).chunkFault 0 (fromHbm (copy0 0 (some 0))) = none ∧
    (copy0 2 (some 0)).chunks = (copy0 2 (some 0)).chunkCount ∧ (copy0 2 (some 0) 0x10000100).join = 0 ∧
    (copying (copy0 2 (some 0) 0x10000100)).copyObject 0 (copy0 2 (some 0) 0x10000100) 32 (copy0 2 (some 0) 0x10000100).cobj = some obj0 ∧ (copy0 2 (some 0)).cobj = 0 ∧
    (copying (copy0 2 (some 0) 0 0x10000100)).copyObject 0 (copy0 2 (some 0) 0 0x10000100) 128 (copy0 2 (some 0) 0 0x10000100).join = some obj0 ∧
    (let c := { copy0 0 (some 0) with dom := 5 }; (copying c).chunkReady 0 c = true ∧ ((copying c).chunkFault 0 c).isSome = true) ∧
    ({ copy0 0 none with words := [] }).malformed = some 0x31 ∧
    (let r : RunTask := { run1 with mems := [0] }
     let s := (tasked r (fun t => { t with st := .running })).updDie 0 (fun d => { d with copies := [copy0 0 none] })
     s.copyObject 0 (copy0 0 none) 32 (copy0 0 none).cobj = none ∧ (copy0 0 none).detached = false ∧ s.runOf 0 = some r ∧ r.zero? = some 0 ∧ 0 ∉ r.freed ∧
       s.hears ⟨0, (s.thread 0).born, (s.thread 0).pc, 0⟩ = true) ∧ MemOk State.reset := by decide +kernel

/-- Four bytes transposed from die memory to member 0's scratchpad, each to a place of its own, and not among the queue entries. -/
theorem witness_CopyBytes :
    let c : Copy := { copy0 0 (some 0) with words := [0x10000100, 0x10, 0x400020002, 0x1000000002, 0, 0, 0, 0] }
    c.chunk = [0, 1, 2, 3] ∧ c.unread = none ∧ c.malformed = none ∧ MemOk (copying c) ∧ (copying c).chunkReady 0 c = true ∧ (copying c).chunkFault 0 c = none ∧
    (c.chunk.map (fun j => match (copying c).copyPlace 0 c c.srcTid .read (c.addrs j).1 with | .ok p => p.key | _ => 0)) = [obj0, obj0 + 1, obj0 + 2, obj0 + 3] ∧
    (c.chunk.map (fun j => match (copying c).copyPlace 0 c c.dstTid .write (c.addrs j).2 with | .ok p => p.key | _ => 0)) = [padPlace 0 0x10, padPlace 0 0x20, padPlace 0 0x11, padPlace 0 0x21] ∧
    ∀ j ∈ c.chunk, (match (copying c).copyPlace 0 c c.dstTid .write (c.addrs j).2 with | .ok p => p.home != .hbm && !(copying c).roByte p.key | _ => false) = true := by decide +kernel

/-! ### The pod, the hub, the die engine -/

/-- Thread 0 of domain 1, while the pod's is 0. -/
def outside (f : Thread → Thread) : State := me (fun t => f { t with dom := 1 })
theorem witness_PodInstructions : State.reset.guard g0 = true ∧ (outside id).me.atF = false ∧ (outside id).me.dom ≠ (outside id).hub.pod.dom ∧ (outside id).guard g0 = true ∧ SnapFree (outside id) ∧
    (0x3FFFFFFFC0 < 2 ^ 38 ∧ 0x3FFFFFFFC0 % 64 = 0 ∧ 2 ^ 21 - 1 < 2 ^ 21) ∧ ¬ 2 ^ 38 < 2 ^ 38 ∧ ¬ 2 ^ 21 < 2 ^ 21 ∧ (0xFFFFFF / 2 ^ 24 % 2 ^ 8 = 0 ∧ 0xFFFF0FFFFFFFF < 2 ^ 52 ∧ 0xFFFF0FFFFFFFF / 2 ^ 32 % 16 = 0) ∧
    ¬ 0x1000000 / 2 ^ 24 % 2 ^ 8 = 0 ∧ 128 ≤ 128 ∧ 127 < 128 ∧ State.reset.me.dom = State.reset.hub.pod.dom ∧ State.reset.drained = true ∧
    (me (fun t => { t with ord := 1, memQ := [⟨0, 0, 0, 0, .stv [] true, false, 0⟩] })).drained = false ∧ State.reset.hub.fab.bnd.st = 0 ∧
    ((State.reset.updBnd (fun b => { b with st := 3 })).hub.fab.bnd.st ≠ 0) ∧ State.reset.rowBytes 0 - 16 = 0 ∧
    (let s := dws (withS []) (diePlace 0 0) [(0, 31)]
     0 < s.rowBytes 0 - 16 ∧ NoOlderSync s ∧ isOk (s.checkAll 0 s.me ⟨.read, false, none, 7⟩ 16 (piecesOf 0x100 (s.rowBytes 0 - 16))) = true) := by decide +kernel
/-- A TLBI of thread 0 that began in cycle 0. -/
def tlbi0 : Tlbi := ⟨0, 0, 0, 7, 0x100000000, 0x100010000, some 0, 0⟩
def invalidating (cycle : Nat) (f : State → State) : State := { (f (me (fun t => { t with st := .running }))).updHub (fun u => { u with tlbis := [tlbi0] }) with cycle := cycle }
theorem witness_HubInstructions : State.reset.guard g0 = true ∧ SnapFree State.reset ∧ State.reset.me.atF = false ∧ (atF id).guard g0 = true ∧ (atF id).me.atF = true ∧ SnapFree (atF id) ∧
    2 ^ 23 ≤ (0x800000 : DWord).toNat ∧ (0x7FFFFF : DWord).toNat < 2 ^ 23 ∧ unitExists 0x103FFF = true ∧ onOtherDie 1 0x103FFF = false ∧ onOtherDie 0 0x103FFF = true ∧ unitExists 0x104000 = false ∧
    (State.reset.unit 0x100000).phase = 0 ∧ onOtherDie 0 0x100000 = false ∧ unitExists 0x100000 = true ∧
    ((State.reset.updUnit 0x100000 (fun t => { t with phase := 1 })).unit 0x100000).phase ≠ 0 ∧
    (invalidating 0 id).hub.tlbis[0]? = some tlbi0 ∧ (invalidating 0 id).cycle ≤ tlbi0.start ∧
    (invalidating 1 (fun s => s.updDie 0 (fun d => { d with susp := [{ (default : Susp) with va := 0x100000000, size := 4096 }] }))).pinned tlbi0 = true ∧
    tlbi0.start < (invalidating 1 id).cycle ∧ (invalidating 1 id).pinned tlbi0 = false ∧ (∀ t ∈ (invalidating 1 id).threads, tlbi0.waitsFor t.2 = false) ∧ tlbi0.d ≠ 0 ∧
    ((invalidating 1 id).thread 0).st ≠ .free ∧ ((invalidating 1 id).thread 0).born = tlbi0.born ∧ SoleWriter ((invalidating 1 id).thread 0) 0 (.g 7) ∧
    (∃ t ∈ (performing (.ld (.s 3) (hbmPl 0) 8 false)).threads, tlbi0.waitsFor t.2 = true) := by
  and_intros <;> decide

/-- Die 0 with a command of thread 0, due in cycle 0, and thread 0 in task 0. -/
def commanded (op : DieOp) (f : Thread → Thread := id) (g : State → State := id) : State :=
  (g (tasked run1 (fun t => f { t with st := .waiting, xwait := some 5 }))).updDie 0 (fun d => { d with cmds := [⟨⟨0, 0, 0, 0⟩, 5, 0, op⟩] })
theorem witness_EngineEvents :
    (let s := me (fun t => { t with flight := [⟨.s 31, 2 ^ 64 - 1, 0, 0, 0⟩] }); (s.thread 0).flight = [⟨.s 31, 2 ^ 64 - 1, 0, 0, 0⟩] ∧ 0 ≤ s.cycle) ∧ (State.reset.die 0).cmds = [] ∧
    (∀ op, op = .cstage 65535 ∨ op = .csched 0xFFF00000000003F ∨ op = .csched 64 ∨ op = .slrecv 31 127 ∨ op = .slsend 1 0 →
      ((commanded op).die 0).cmds = [⟨⟨0, 0, 0, 0⟩, 5, 0, op⟩] ∧ 0 ≤ (commanded op).cycle ∧ ((commanded op).thread 0).task = some 0 ∧ (commanded op).runOf 0 = some run1 ∧
        ((commanded op).thread 0).flight = []) ∧
    (0xFC000000000003F : DWord).toNat / 2 ^ 60 = 0 ∧ (0xFFF000000000040 : DWord).toNat % 64 = 0 ∧ (0x3F : DWord).toNat / 2 ^ 48 = 0 ∧
    (let s := commanded (.signal obj0 0) id (fun s => dws s obj0 [(2, 2 ^ 31 - 1)]); MemOk s ∧ s.badWord (obj0 + 16) 4 = none ∧ 1 < s.recJoin obj0) ∧
    (∀ j, j = 0 ∨ j = 5 → let s := commanded (.launch obj0 false (some 7)) id (fun s => dws s obj0 [(2, j * 2 ^ 48)])
      MemOk s ∧ (s.die 0).pending.length < 4096 ∧ s.recTrap 0 (s.thread 0).dom obj0 (obj0 + 16) 8 = none ∧ s.recState obj0 = j ∧ (s.thread 0).flight = []) ∧
    (let s := commanded (.submit obj0 31 none) id (fun s => dws s obj0 [(2, 2 ^ 40)])
     MemOk s ∧ (s.thread 0).st = .waiting ∧ (s.thread 0).wait = none ∧ (s.thread 0).xwait = some 5 ∧ (s.thread 0).stop = none ∧ s.recTrap 0 (s.thread 0).dom obj0 obj0 128 = none ∧
       s.recCheck obj0 0 (s.thread 0).dom false false = none ∧ s.recRanges obj0 = [] ∧ (s.die 0).deps = [] ∧
       s.recJoin obj0 = 0) := by
  refine ⟨by decide, by decide, ?_, by decide, by decide, by decide, by decide +kernel, ?_, by decide +kernel⟩
  · rintro op (rfl | rfl | rfl | rfl | rfl) <;> decide
  · rintro j (rfl | rfl) <;> decide +kernel
/-- The first of three commands by cycle, by $tid and by issue; the same behind a SLADD whose row is not yet read; and a write that waits for an earlier one of its register. -/
theorem witness_CommandOrder :
    (let c : DieCmd := ⟨⟨4, 0, 0, 0⟩, 5, 0, .cstage 1⟩
     let cs : List DieCmd := [⟨⟨0, 0, 0, 0⟩, 0, 1, .cstage 3⟩, ⟨⟨8, 0, 0, 0⟩, 0, 0, .cstage 4⟩, ⟨⟨4, 0, 0, 0⟩, 6, 0, .cstage 2⟩, c]
     let s := State.reset.updDie 0 (fun d => { d with cmds := cs })
     c ∈ (s.die 0).cmds ∧ (∀ x ∈ (s.die 0).cmds, x ≠ c → c.at_ < x.at_ ∨ (c.at_ = x.at_ ∧ (c.org.tid < x.org.tid ∨ (c.org.tid = x.org.tid ∧ c.id < x.id)))) ∧
       (∀ x ∈ (s.die 0).cmds, x.unread = false) ∧ s.canApply 0 c = true ∧ 0 < c.at_ + 1) ∧
    (let c : DieCmd := ⟨⟨0, 0, 0, 0⟩, 5, 0, .sladd 0 0 1 none⟩
     c.unread = true ∧ c.at_ ≤ State.reset.cycle ∧ ∀ x ∈ [c, ⟨⟨0, 0, 0, 0⟩, 6, 0, .slsend 1 0⟩], x ≠ c → c.at_ < x.at_ ∨ (c.at_ = x.at_ ∧ (c.org.tid < x.org.tid ∨ (c.org.tid = x.org.tid ∧ c.id < x.id)))) ∧
    (∀ land, land = 3 ∨ land = 0 →
      let f : Flight := ⟨.s 31, 1, 0, 5, 0⟩
      let s := me (fun t => { t with due := [f], flight := if land = 3 then [⟨.s 31, 2, 3, 0, 0⟩] else [] })
      (s.thread 0).due = [f] ∧ (s.thread 0).behindFixed s.cycle f = (land == 3)) := by
  refine ⟨?_, ?_, ?_⟩
  · simp only [State.reset]
    decide
  · decide
  · rintro l (rfl | rfl) <;> decide
theorem witness_LaunchStoreFull :
    4096 ≤ ((commanded (.launch obj0 false (some 7)) id (fun s => s.updDie 0 (fun d => { d with pending := List.replicate 4096 ⟨0, none, 0⟩ }))).die 0).pending.length := by decide +kernel
/-- Thread 0 READY at 0x1_0000_0000, whose line is resident, and at an address whose line is to be requested. -/
def readyAt (pc : VAddr) (w : Option (Nat × Nat)) (cycle : Nat := 0) : State :=
  { core0 (me (fun t => { t with st := .ready, pc := pc, want := w })) (fun c => { c with istore := [⟨0, 0x100000000, 0, 0⟩], tlb := [{ leaf with x := true }] }) with cycle := cycle }
theorem witness_LineFill : (State.reset.thread 0).st = .free ∧ ((readyAt 0x100000000 none).thread 0).st = .ready ∧ ((readyAt 0x100000000 none).thread 0).want = none ∧
    (match (readyAt 0x100000000 none).fetch 0 ((readyAt 0x100000000 none).thread 0) 0x100000000 with | .bytes _ => true | _ => false) = true ∧
    (match (readyAt 0x100000040 none).fetch 0 ((readyAt 0x100000040 none).thread 0) 0x100000040 with | .fill l => l == 0x100000040 | _ => false) = true ∧
    (let s := readyAt 0x100000040 (some (0x100000040, 320)) 319
     (s.thread 0).want = some (0x100000040, 320) ∧ (match s.fetch 0 (s.thread 0) 0x100000040 with | .fill l => l == 0x100000040 | _ => false) = true ∧ s.cycle < 320) ∧
    (let s := readyAt 0x100000040 (some (0x100000040, 320)) 320
     320 ≤ s.cycle ∧ (match s.xlate 0 0 [] .fetch 0 0x100000040 with | .ok _ _ => true | _ => false) = true) := by decide +kernel
/-- A walk of page 0x1_0000 of domain 0, without a root, and with three levels of tables that end in a leaf of 2 MiB. -/
def walking (cycle : Nat) (f : State → State) : State := { (f State.reset).updDie 0 (fun d => { d with walks := [⟨0, 0x10000, [0], 0, false⟩] }) with cycle := cycle }
def tables (s : State) : State :=
  dws (s.updHub (fun u => { u with roots := [(0, 0x4000)] })) 0x4000 [(0, 0x500001), (0x204, 0x600001), (0x400, 0x20000007)]
theorem witness_WalkOrder :
    (let w : Walk := ⟨0, 0x10000, [0], 0, false⟩
     let s := (walking 899 tables).updDie 0 (fun d => { d with walks := [{ w with start := 1 }, w, w] })
     (s.die 0).walks = [{ w with start := 1 }] ++ w :: [w] ∧ (∀ x ∈ [{ w with start := 1 }], s.cycle < x.start + (s.walk x.dom (65536 * x.page)).time) ∧
       899 < w.start + (s.walk w.dom (65536 * w.page)).time) ∧
    (let w : Walk := ⟨0, 0x10000, [0], 0, false⟩
     let s := (walking 900 tables).updDie 0 (fun d => { d with walks := [{ w with start := 1 }, w, w] })
     (∀ x ∈ [{ w with start := 1 }], s.cycle < x.start + (s.walk x.dom (65536 * x.page)).time) ∧ w.start + (s.walk w.dom (65536 * w.page)).time ≤ s.cycle) := by decide +kernel
theorem witness_Walk : ((walking 0 id).die 0).walks = [⟨0, 0x10000, [0], 0, false⟩] ∧ (walking 0 id).hub.units = [] ∧ (walking 0 id).walk 0 (65536 * 0x10000) = .fault 0x05 0 ∧
    (walking 899 tables).walk 0 (65536 * 0x10000) = .leaf ⟨0, 0x100000000, 0x200000, 0x200000, true, false, false, false, 0, 899⟩ 2 ∧
    (walking 899 tables).cycle < 0 + ((walking 899 tables).walk 0 (65536 * 0x10000)).time ∧ 0 + ((walking 900 tables).walk 0 (65536 * 0x10000)).time ≤ (walking 900 tables).cycle := by decide +kernel

/-! ### The package and the fabric -/

/-- A unit whose test began in cycle 0, in the given cycle. -/
def inTest (u cycle : Nat) : State := { State.reset.updUnit u (fun t => { t with phase := 1 }) with cycle := cycle }
/-- The same with every spare of the unit's pool in use. -/
def noSpare (u : Nat) : State := (inTest u 66000).updHub (fun h => { h with spares := [((sparesOf u).1, (sparesOf u).2)] })
theorem witness_Package : MemOk State.reset ∧ (⟨[], [], [1], [2], none, none⟩ : BootImages).failsAt = none ∧ (⟨[], [], [], [], some 3, none⟩ : BootImages).failsAt.isSome = true ∧
    (⟨[], [], [], [], none, some (0, 0x8000000000)⟩ : BootImages).partition = some (0, 0x8000000000) ∧
    State.reset.hub.quotes < 2 ^ 30 ∧ 2 ^ 30 ≤ (State.reset.updHub (fun u => { u with quotes := 2 ^ 30 })).hub.quotes ∧ 63 < 64 ∧ 64 ≤ 64 ∧ 240000 ≤ 240000 ∧ 240000 < 240001 ∧
    State.reset.cycle < 1100 * (State.reset.hub.energy.samples + 1) ∧ 1100 * (State.reset.hub.energy.samples + 1) ≤ ({ State.reset with cycle := 1100 }).cycle ∧
    State.reset.cycle < 110000 * (State.reset.hub.energy.intv + 1) ∧ 110000 * (State.reset.hub.energy.intv + 1) ≤ ({ State.reset with cycle := 110000 }).cycle ∧
    State.reset.hub.energy.below = false ∧ 0 ≤ State.reset.hub.energy.bal ∧ ¬ ((State.reset.unit 0x100000).phase = 1 ∧ (State.reset.unit 0x100000).began + testTime 0x100000 ≤ State.reset.cycle) ∧
    (let s := inTest 0x100000 22000
     (s.unit 0x100000).phase = 1 ∧ (s.unit 0x100000).began + testTime 0x100000 ≤ s.cycle ∧
       ((s.unit 0x100000).verdicts.filter (fun c => decide (s.cycle < c + 1100000000))).length < 15 ∧ s.nextTest (unitDie 0x100000) = none) ∧
    ¬ ((inTest 0x100000 21999).unit 0x100000).began + testTime 0x100000 ≤ (inTest 0x100000 21999).cycle ∧
    (∀ u, u = 0x200000 ∨ u = 0x300000 → ((inTest u 88000).unit u).phase = 1 ∧ ((inTest u 88000).unit u).began + testTime u ≤ (inTest u 88000).cycle) ∧
    (∀ u, u = 0x400000 ∨ u = 0x500000 → ((noSpare u).unit u).phase = 1 ∧ ((noSpare u).unit u).began + testTime u ≤ (noSpare u).cycle ∧ ((noSpare u).unit u).moved = false) ∧
    (noSpare 0x400000).spareFree 0x400000 = false ∧ (noSpare 0x500000).spareFree 0x500000 = false ∧
    (State.reset.die 1).bb.frozen = false ∧ ((State.reset.updDie 1 (fun d => { d with bb := ⟨[], true, 0⟩ })).die 1).bb.frozen = true ∧ 64 * (2 ^ 33 - 1) + 64 ≤ 2 ^ 39 := by
  and_intros

  all_goals first | decide +kernel | (rintro u (rfl | rfl) <;> decide +kernel) | exact decide_eq_false (Nat.lt_irrefl Config.hbmSpares)
/-- A packet with a UDP datagram to port 7. -/
def eth0 : EthPacket := ⟨0, none, 0, .udp 7 0, [1, 2, 3]⟩
theorem witness_HubWrites : (∀ t ∈ State.reset.threads, clusterOf t.1 = 0 → t.2.st = .free) ∧ (∃ t ∈ (me (fun t => { t with st := .running })).threads, clusterOf t.1 = 0 ∧ t.2.st ≠ .free) ∧
    (State.reset.die 0).fwLock = false ∧ ((State.reset.updDie 0 (fun d => { d with fwLock := true })).die 0).fwLock = true ∧ (0x3FFFF : BitVec 18).toNat + ([1] : List Byte).length ≤ 0x40000 ∧
    (State.reset.ownEntry 0 1023).toNat % 64 = 0 ∧ ((State.reset.updDie 0 (fun d => { d with own := [(1023, 5)] })).ownEntry 0 1023).toNat % 64 ≠ 0 ∧
    4 ≤ (4 : BitVec 3).toNat ∧ (State.reset.hub.fab.bnd.st = 0 ∧ State.reset.hub.fab.bnd.arrivals = 0) ∧
    ¬ ((State.reset.updBnd (fun b => { b with arrivals := 1 })).hub.fab.bnd.st = 0 ∧ (State.reset.updBnd (fun b => { b with arrivals := 1 })).hub.fab.bnd.arrivals = 0) ∧
    (1 : BitVec 12).toNat ≤ (State.reset.updBnd (fun b => { b with arrivals := 1 })).hub.fab.bnd.arrivals ∧ (∀ q ∈ State.reset.hub.fab.queues, q.port ≠ 63) := by decide
/-- Rule 4095: UDP port 7 of Ethernet port 0 for domain 0 of die 0, one slot of 256 bytes at 0x1000, a template at 0x2000; with STATE of the slot's record given. -/
def ruled (st : Nat) : State := dws (State.reset.updHub (fun u => { u with flows := [(4095, [5, 7, 0x40001000, 0x2000, 0, 0, 0, 0])] })) (diePlace 0 0x1000) [(2, st * 2 ^ 48)]
theorem witness_PacketIngress : (∀ i, State.reset.hub.flowMatches i eth0 = false) ∧ (ruled 0).hub.flowMatches 4095 eth0 = true ∧ (∀ k, k < 4095 → (ruled 0).hub.flowMatches k eth0 = false) ∧
    (ruled 0).hub.flow 4095 2 % 2 ^ 26 = 0x1000 ∧ (ruled 0).hub.flow 4095 2 / 2 ^ 30 % 2 ^ 12 ≠ 0 ∧
    (∀ st, st = 0 ∨ st = 5 → (ruled st).recState (diePlace 0 0x1000) = st ∧ 192 + eth0.payload.length ≤ 256 ∧ (ruled st).ownsRange 0 0 0x1000 256 = true ∧ (ruled st).ownsRange 0 0 0x2000 128 = true ∧
      ((ruled st).die 0).pending.length < 4096 ∧ MemOk (ruled st)) ∧ (ruled 1).recState (diePlace 0 0x1000) = 1 := by
  refine ⟨fun i => ?_, by decide +kernel, fun k h => ?_, by decide +kernel, by decide +kernel, ?_, by decide +kernel⟩
  · simp [State.reset, Hub.init, Hub.flowMatches, Hub.flow, nth]
  · have e : (ruled 0).hub.flow k 0 = 0 := by
      have f : (ruled 0).hub.flows = [(4095, [5, 7, 0x40001000, 0x2000, 0, 0, 0, 0])] := by decide +kernel
      have g : ¬ 4095 = k := by omega
      simp [Hub.flow, f, tget, nth, g]
    simp [Hub.flowMatches, e]
  rintro st (rfl | rfl) <;> decide +kernel

/-- A packet of the given type for a device, and the machine with a change of its fabric. -/
def pkt (type : BitVec 4) (dst : BitVec 11) (vc : BitVec 2 := 0) : Packet := { (default : Packet) with type := type, dst := dst, vc := vc, via := 5 }
def fab (f : Fab → Fab) : State := State.reset.updFab f
/-- A route to device 7 by port 32. -/
def routed : State := fab (fun f => { f with routes := [(7, 32), (5, 31)] })
theorem witness_Links : 32 < 33 ∧ 3 < 4 ∧ 33 ≤ 33 ∧ tget 0 State.reset.hub.fab.lanesOut 32 % 16 ≠ 15 ∧ (∀ q ∈ State.reset.hub.fab.queues, q.port ≠ 32) ∧
    (tget 0 (fab (fun f => { f with lanesOut := [(32, 15)] })).hub.fab.lanesOut 32 % 16 = 15 ∧ 32 ∉ (fab (fun f => { f with lanesOut := [(32, 15)] })).hub.fab.down) ∧
    32 ∈ (fab (fun f => { f with down := [32] })).hub.fab.down := by decide
/-- A packet that waits at an output since a cycle, from input 3. -/
def waits (port vc : Nat) (head : Option Nat) (p : Packet) : QPkt := ⟨port, vc, 0, 3, vc, head, p⟩
def atOutputs (qs : List QPkt) : State := fab (fun f => { f with queues := qs, routes := [(7, 32)] })
theorem witness_Routing : Packet.reserved (pkt 0 7) = true ∧ Packet.reserved (pkt 10 7) = true ∧ Packet.reserved (pkt 15 7) = true ∧ Packet.reserved (pkt 9 7) = false ∧ Packet.reserved (pkt 1 0) = false ∧
    (pkt 1 0).dst = State.reset.hub.device ∧ (pkt 1 7).dst ≠ State.reset.hub.device ∧ routed.hub.fab.minimal 7 = some 32 ∧ routed.hub.fab.minimal (pkt 1 7 1).via.toNat = some 31 ∧
    (pkt 1 7).vc ≠ 1 ∧ State.reset.hub.fab.minimal 7 = none ∧ ({ pkt 1 7 1 with via := 0 } : Packet).via = State.reset.hub.device ∧
    routed.hub.fab.roomAt 3 (bufferOf 0 (routed.hub.fab.hopClass (pkt 1 7))) (pkt 1 7) = true ∧ routed.hub.fab.roomAt 32 (bufferOf 3 (routed.hub.fab.hopClass (pkt 1 7 3))) (pkt 1 7 3) = true ∧
    (let f := (atOutputs (List.replicate 48 (waits 32 0 none (pkt 1 7)))).hub.fab; f.roomAt 3 (bufferOf 0 (f.hopClass (pkt 1 7))) (pkt 1 7) = false) ∧
    (let s := atOutputs (List.replicate 9 { waits 32 3 none (pkt 1 7) with cls := 2, buf := 4 } ++ [waits 32 0 (some 0) (pkt 1 7)])
     s.hub.fab.queues[9]? = some (waits 32 0 (some 0) (pkt 1 7)) ∧ s.hub.fab.roomAt 3 (2 + s.hub.fab.hopClass (pkt 1 7)) (pkt 1 7) = false) ∧
    (let s := atOutputs [waits 32 0 (some 0) (pkt 1 7)]; s.hub.fab.queues[0]? = some (waits 32 0 (some 0) (pkt 1 7)) ∧ s.cycle < 0 + 55000) ∧ (waits 32 3 (some 0) (pkt 1 7)).vc = 3 ∧
    (let s := { atOutputs [waits 32 2 (some 0) (pkt 1 7)] with cycle := 55000 }
     0 + 55000 ≤ s.cycle ∧ (2 : Nat) ≠ 3 ∧ 32 < 33 ∧ s.hub.fab.roomAt 3 (2 + s.hub.fab.hopClass (pkt 1 7)) (pkt 1 7) = true) := by decide +kernel
/-- A link with and without room, and one that replays; two packets of one queue and of two. -/
theorem witness_Departures : State.reset.canDepart (waits 32 3 none (pkt 1 7)) = true ∧ (fab (fun f => { f with flits := [(5 * 32 + 3, 9)] })).canDepart (waits 32 3 none (pkt 1 7)) = false ∧
    (fab (fun f => { f with flits := [(5 * 32, 47)] })).canDepart (waits 32 0 none (pkt 1 7)) = true ∧ (fab (fun f => { f with replay := [(32, 1)] })).canDepart (waits 32 0 none (pkt 1 7)) = false ∧
    (waits 32 0 none (pkt 1 7)).key = (waits 32 0 (some 3) (pkt 1 5)).key ∧ (waits 32 0 none (pkt 1 7)).key ≠ (waits 31 0 none (pkt 1 7)).key ∧
    (fab (fun f => { f with replay := [(32, 1)] })).canDepart (waits 31 0 none (pkt 1 7)) = true ∧
    tget [] State.reset.hub.fab.retry 32 = [] ∧ tget [] (fab (fun f => { f with retry := [(32, Packet.wire (pkt 1 7))] })).hub.fab.retry 32 ≠ [] := by decide +kernel
theorem witness_Credits : tget [] (fab (fun f => { f with credits := [(7, [0])] })).hub.fab.credits 7 = [0] ∧ State.reset.cycle < 0 + 65536 ∧ 0 + 65536 ≤ ({ State.reset with cycle := 65536 }).cycle ∧
    State.reset.hub.fab.waiting = [] ∧ State.reset.hub.fab.given = [] ∧ State.reset.hub.fab.rxq.length + 8 ≤ State.reset.hub.pod.rq ∧ State.reset.hub.device.toNat < 2 ^ 11 ∧
    (let s := fab (fun f => { f with rxq := List.replicate 64 (pkt 1 0) }); s.hub.pod.rq ≤ s.hub.fab.rxq.length) := by decide
/-- Packets of thread 0 that wait, with LIMIT and OUT of window 0. -/
def waiting (os : List OutPkt) (allow : DWord) (f : Fab → Fab := id) : State :=
  ((me (fun t => { t with st := .running, regs := { t.regs with allow := [(0, allow)] } })).updHub (fun u => { u with outq := os })).updFab f
def out (dst : BitVec 11) : OutPkt := ⟨some ⟨0, 0, 0, 0⟩, 1, 0, 0x1000000, none, pkt 1 dst⟩
theorem witness_Sending : (waiting [out 0, out 0] 0).hub.outq[1]? = some (out 0) ∧ (∃ e ∈ (waiting [out 0, out 0] 0).hub.outq.take 1, (out 0).follows e = true) ∧ (waiting [out 0] 0).hub.outq[0]? = some (out 0) ∧
    (∀ e ∈ (waiting [out 0] 0).hub.outq.take 0, (out 0).follows e = false) ∧ State.reset.isLive 7 = false ∧ (waiting [out 7] 0).hears ⟨0, 0, 0, 0⟩ = true ∧
    (waiting [out 0] 0).isLive 0 = true ∧ (waiting [out 0] 0x10001).belowLimit (out 0) = false ∧ (waiting [out 0] 0x10002).belowLimit (out 0) = true ∧ (waiting [out 0] 0x10000).belowLimit (out 0) = true ∧
    tget [] (waiting [out 0] 0).hub.fab.credits 0 = [] ∧ 0 ∈ (waiting [out 0] 0 (fun f => { f with asked := [0] })).hub.fab.asked ∧
    tget [] (waiting [out 0] 0 (fun f => { f with credits := [(0, [3])] })).hub.fab.credits 0 = [3] := by decide
/-- A pod of the devices 0 and 1056, with the boundary in a state. -/
def twoDevices (st : Nat) : State := (State.reset.updHub (fun u => { u with pod := { u.pod with members := [(0, true), (1056, true)] } })).updBnd (fun b => { b with st := st })
theorem witness_Acks : State.reset.hub.fab.sent = [] ∧
    (let s := waiting [] 0x10000 (fun f => { f with sent := [out 7] })
     s.hub.fab.sent.find? (fun o => o.pkt.dst.toNat == 7 && o.pkt.seq.toNat == 0) = some (out 7) ∧ (out 7).ack = none ∧ (out 7).win < 16 ∧ (s.thread 0).st ≠ .free ∧ (s.thread 0).born = 0) ∧
    (1056 < 1057 ∧ 1056 ∉ State.reset.hub.pod.failed ∧ State.reset.hub.outq = [] ∧ State.reset.coordinator ≠ some 1056) ∧
    (let s := twoDevices 2; s.coordinator = some 0 ∧ 2 ≤ s.hub.fab.bnd.st ∧ s.hub.fab.bnd.n = 0 ∧ 0 ∉ s.hub.pod.failed ∧ s.hub.outq = [] ∧ s.hub.fab.sent = []) ∧
    ((twoDevices 1).hub.fab.bnd.st < 2 ∧ 0 + 1 = ((twoDevices 1).updBnd (fun b => { b with n := 1 })).hub.fab.bnd.n) ∧
    1056 ∈ (State.reset.updHub (fun u => { u with pod := { u.pod with failed := [1056] } })).hub.pod.failed := by decide +kernel

/-! ### The boundary -/

/-- A packet of a step at the head of the receive queue, with entries in the granary and a boundary. -/
def received (p : Packet) (gran : List GranEnt := []) (b : Bnd → Bnd := id) (s : State := State.reset) : State :=
  (s.updFab (fun f => { f with rxq := [p], gran := gran })).updBnd b
def write0 (stepno : BitVec 32) : Packet := { pkt 1 0 with stepno := stepno, ndata := 8, umask := 1 }
theorem witness_Placing : (received (write0 0)).hub.fab.rxq[0]? = some (write0 0) ∧ (received (write0 0)).hub.fab.waiting = [] ∧ (received (write0 0)).stepClass (write0 0) = 0 ∧
    (received (write0 1)).stepClass (write0 1) = 1 ∧ (received (write0 0x7FFFFFFF)).stepClass (write0 0x7FFFFFFF) = 2 ∧ (received (write0 0x80000000)).stepClass (write0 0x80000000) = 3 ∧
    64 + 64 * (write0 0).ndata.toNat ≤ (received (write0 0) [] (fun b => { b with cap := 576 })).hub.fab.bnd.cap ∧
    (received (write0 0) [] (fun b => { b with cap := 575 })).hub.fab.bnd.cap < 64 + 64 * (write0 0).ndata.toNat ∧ (write0 0).type ≠ 2 ∧ (pkt 2 0).type ≠ 1 := by decide
/-- A FRED packet of line 0 to 31 for a reduction object of 32 elements at 0x1000 of die 0, which is armed. -/
def fred0 : Packet := { pkt 2 0 with ext := BitVec.ofNat 96 (31 * 2 ^ 16 + 0x1000 * 2 ^ 22), data := List.replicate 32 1 }
theorem witness_Reduction :
    (let s := dws (received fred0) (diePlace 0 0x1000) [(0, 8 + 2 * 2 ^ 16), (1, 32)]
     s.hub.fab.rxq[0]? = some fred0 ∧ MemOk s ∧ s.ownsRange 0 0 0x1000 64 = true ∧ s.dwField (diePlace 0 0x1000) 0 0 3 ≤ 5 ∧ 0 + 31 + 1 ≤ s.dwField (diePlace 0 0x1000) 1 0 16 ∧
       0x1000 + 64 + 4 * (0 + 31 + 1) ≤ 2 ^ 26 ∧ s.dwField (diePlace 0 0x1000) 0 3 1 = 1 ∧ s.dwField (diePlace 0 0x1000) 0 4 1 = 0 ∧ fred0.ext.toNat % 2 ^ 16 = 0 ∧
       fred0.ext.toNat / 2 ^ 16 % 2 ^ 5 = 31 ∧ fred0.ext.toNat / 2 ^ 22 % 2 ^ 26 = 0x1000) := by decide +kernel
/-- A token row for expert 9, and a dispatch context whose local expert 63 is expert 9, with the given rows left (CAP). -/
def token0 : Packet := { pkt 3 0 with data := [9, 0] }
theorem witness_Tokens : rowHead token0 = 9 ∧
    -- a row behind another row of its die, one behind a WRITE only, and one behind a row of the step after the next
    (let s := State.reset.updFab (fun f => { f with rxq := [token0, token0] })
     ∃ i q, i < 1 ∧ s.hub.fab.rxq[i]? = some q ∧ q.type = 3 ∧ q.die = token0.die ∧ s.stepClass q ≠ 2) ∧
    (let s := State.reset.updFab (fun f => { f with rxq := [write0 0, { token0 with stepno := 0x7FFFFFFF }, token0] })
     s.hub.fab.waiting = [] ∧ s.hub.fab.rxq[2]? = some token0 ∧ s.stepClass { token0 with stepno := 0x7FFFFFFF } = 2 ∧ (write0 0).type ≠ 3) ∧
    (∀ n, n = 0 ∨ n = 1 →
      let s := dws (received token0 (List.replicate n ⟨0, token0, some (0, 63, 0)⟩)) (diePlace 0 0x440) [(126, 9 + 2 ^ 12 + 1 * 2 ^ 13)]
      (List.range 64).find? (fun j => decide (s.ctxField 0 (0x440 + 16 * j) 12 1 = 1 ∧ s.ctxField 0 (0x440 + 16 * j) 0 12 = 9)) = some 63 ∧
        (s.placedFor s.hub.fab.bnd.n 0 63).length = n ∧ n ≤ s.ctxField 0 (0x440 + 16 * 63) 13 5 ∧ s.stepClass token0 = 0) := by
  refine ⟨by decide, ⟨0, token0, by decide, rfl, by decide, rfl, by decide⟩, by decide, ?_⟩
  rintro n (rfl | rfl) <;> decide +kernel
/-- The boundary of the device, alone in its pod, in a state. -/
def atBnd (st : Nat) (f : Fab → Fab := id) (g : Pod → Pod := id) : State :=
  ((State.reset.updHub (fun u => { u with pod := g u.pod })).updFab f).updBnd (fun b => { b with st := st })
/-- An OVERWRITE entry of step 0 for the word at 0x100 of core 0's scratchpad. -/
def ent0 : GranEnt := ⟨0, { write0 0 with off := 0x100 }, none⟩
theorem witness_Boundary : (atBnd 0).hub.fab.bnd.st ≠ 1 ∧ (atBnd 1).hub.pod.stepnum ≠ (atBnd 1).hub.fab.bnd.n + 1 ∧ ((atBnd 1).updHub (fun u => { u with outq := [out 7] })).unflushed 0 = true ∧
    (let s := atBnd 1 id (fun p => { p with stepnum := 1 }); s.hub.pod.stepnum = s.hub.fab.bnd.n + 1 ∧ s.unflushed 0 = false ∧ s.coordinator = some 0) ∧
    (let s := atBnd 2 (fun f => { f with flushed := [(0, 0)] }); s.coordinator = some s.hub.device.toNat ∧ s.missing = [] ∧ s.liveMembers = [s.hub.device.toNat] ∧ s.hub.fab.newFailed = []) ∧
    (atBnd 2).missing ≠ [] ∧ (atBnd 2).hub.fab.held = none ∧
    (let s := { atBnd 2 (fun f => { f with flushed := [(0, 0)], held := some 0 }) (fun p => { p with members := [(0, true), (1056, true)] }) with cycle := 11000000 }
     s.hub.fab.held = some 0 ∧ s.missing = [1056] ∧ s.coordinator = some s.hub.device.toNat ∧ s.hub.fab.skewed = false ∧ 0 + s.hub.pod.skewlim ≤ s.cycle ∧
       (∃ e ∈ s.hub.fab.flushed, e.1 = s.hub.fab.bnd.n % 2 ^ 32) ∧ (s.die 0).bb.frozen = false ∧ (s.die 1).bb.frozen = false) ∧
    (atBnd 2).hub.fab.bnd.go = none ∧
    -- a FLUSHED of a boundary whose GO has come and of another, a GO of the boundary and of another
    (let s := atBnd 2 (fun f => { f with lastGo := some (0, 5) })
     (pkt 7 0).dst = s.hub.device ∧ s.hub.fab.lastGo = some ((pkt 7 0).stepno.toNat, 5) ∧ s.hub.fab.lastGo.map Prod.fst ≠ some ({ pkt 7 0 with stepno := 1 } : Packet).stepno.toNat ∧
       ({ pkt 8 0 with stepno := 1 } : Packet).stepno.toNat ≠ s.hub.fab.bnd.n % 2 ^ 32 ∧ (pkt 8 0).stepno.toNat = s.hub.fab.bnd.n % 2 ^ 32) ∧
    (atBnd 2).hub.fab.lastGo.map Prod.fst ≠ some (pkt 7 0).stepno.toNat := by decide +kernel
theorem witness_Harvest :
    (let s := (atBnd 2 (fun f => { f with gran := [ent0] })).updBnd (fun b => { b with go := some (false, 0, false) })
     s.hub.fab.bnd.st = 2 ∧ s.hub.fab.bnd.go.isSome = true ∧ (∀ e ∈ s.hub.fab.gran, e.step = s.hub.fab.bnd.n → e.tok = none ∧ s.rejects e.pkt = false ∧ e.pkt.off.toNat % 4 = 0) ∧
       s.harvestBusy ((s.hub.fab.gran.filter (fun e => e.step == s.hub.fab.bnd.n)).map GranEnt.pkt) = false ∧ MemOk s ∧ s.hub.pod.dcb0 < 2 ^ 26 ∧ s.hub.pod.dcb1 < 2 ^ 26 ∧
       (∀ d, d < 2 → ∀ j, j < 64 → s.ctxField d (0x440 + 16 * j) 12 1 = 0) ∧
       (∃ c, c ∈ (s.hub.fab.gran.filter (fun e => e.step == s.hub.fab.bnd.n)).flatMap (fun e => contribs e.pkt))) ∧
    (let s := ((atBnd 3 id (fun p => { p with pcount := 1 })).updThread 0 (fun t => { t with st := .waiting, wait := some (.step 30 0 false 0) }))
     s.hub.pod.pcount ≠ 0 ∧ s.hub.fab.bnd.arrivalsNext < s.hub.pod.pcount ∧ s.threads.filter (fun x => x.1 == 0) = [(0, s.thread 0)] ∧ (s.thread 0).wait = some (.step 30 0 false s.hub.fab.bnd.n) ∧
       (s.thread 0).st = .waiting ∧ (s.thread 0).xwait = none ∧ (s.thread 0).flight = []) := by
  refine ⟨⟨rfl, rfl, by decide, by decide, by decide, by decide, by decide, ?_, ⟨_, List.mem_singleton.mpr rfl⟩⟩, by decide⟩
  have h : ∀ d : Fin 2, ∀ j : Fin 64, ((atBnd 2 (fun f => { f with gran := [ent0] })).updBnd (fun b => { b with go := some (false, 0, false) })).ctxField d.1 (0x440 + 16 * j.1) 12 1 = 0 := by decide +kernel
  intro d hd j hj
  exact h ⟨d, hd⟩ ⟨j, hj⟩

/-! ### The whole machine -/

/-- An addition, a conversion that may raise a flag, and an INIT of the select state, each in the slot that it is tried in. -/
theorem witness_RegisterFrame : OnRegisters (.add g0 31 1 2 0) ∧ OnRegisters (.fadd g0 3 1 2 0) ∧ OnRegisters (.ytopkInit g0 1 0 0) ∧ flagsOrDraws (.add g0 31 1 2 0) = false ∧ changesSelect (.add g0 31 1 2 0) = false ∧
    (∃ t, exec (.add g0 31 1 2 0) State.reset = .next t ∧ t.cur = State.reset.cur) := ⟨.inl rfl, .inl rfl, .inr (.inr (.inr rfl)), rfl, rfl, _, rfl, rfl⟩
/-- Thread 0 RUNNING at 0x1_0000_0000, whose line holds `add s3, s1, s2` alone. -/
def oneAdd : State := State.reset.withFetchWord 32 0x00061100
/-- The bundle's bytes, what they decode to, and that no interlock holds it and no early trap meets it; an agenda of an event and of an instruction. -/
theorem witness_StepRunsDecoded : oneAdd.agenda = [] ∧ oneAdd.nextCore = some 0 ∧
    (let u := oneAdd.updCore 0 (fun x => { x with tried := oneAdd.cycle + 1 })
     let tid := 4 * 0 + ((u.core 0).last + 1) % 4
     let th := u.thread tid
     let v := u.touchLine tid th.pc.toNat
     tid = 0 ∧ u.faulted 0 = [] ∧ u.issuers tid = some ([tid], false) ∧
       (match u.fetch tid th th.pc.toNat with
        | .bytes bs => decide (leNat (bs.take 2) ≠ 0x8000) && (match decodeBundle bs with | .ok b => decide (b.ops = [.add g0 3 1 2 0]) | .error _ => false)
        | _ => false) = true ∧
       v.opLocked tid tid (.add g0 3 1 2 0) = false ∧ v.opBehind tid tid (.add g0 3 1 2 0) = false ∧ v.opShort tid tid (.add g0 3 1 2 0) = false ∧ (u.resident tid).isNone = true ∧ v.levelTrap tid [.add g0 3 1 2 0] = none) ∧
    (∀ p q : EthPacket, p.port = 1 → q.port = 0 → arrivesAt 1 (.packetIngress p) = true ∧ arrivesAt 0 (.packetIngress q) = true ∧ arrivesAt 1 (.packetIngress q) = false) ∧
    (∃ t, exec (.add g0 3 1 2 0) oneAdd = .next t ∧ t.cur.out = .ok) ∧ isEvent (.selfTestVerdict 0 false) = true ∧ isEvent (.add g0 3 1 2 0) = false ∧
    State.reset.agenda = [] ∧ State.reset.nextCore = none :=
  ⟨by decide +kernel, by decide +kernel, by decide +kernel, fun p q h k => by simp [arrivesAt, h, k], ⟨_, rfl, by decide +kernel⟩, rfl, rfl, by decide +kernel, by decide +kernel⟩
/-- One step of that machine puts the sum on its way to s3, from which it lands in the same cycle. -/
theorem test_step_runs_add : (match step oneAdd with | .next t => some ((t.thread 0).pc.toNat, (t.core 0).last) | _ => none) = some (0x100000006, 0) := by decide +kernel
/-- Instructions of every column meet the round trips' hypotheses. -/
theorem witness_RoundTrips : slotOf (.add g0 31 31 31 0) = some .S ∧ (Instr.add g0 31 31 31 0).wellFormed = true ∧ slotOf (.jmp ⟨true, 7⟩ 31) = some .C ∧ (Instr.jmp ⟨true, 7⟩ 31).wellFormed = true ∧
    slotOf (.ldv g0 31 31 0xFFF none) = some .L ∧ (Instr.ldv g0 31 31 0xFFF none).wellFormed = true ∧ slotOf (.rpush g0 7 31 31) = some .X ∧ (Instr.rpush g0 7 31 31).wellFormed = true := by decide
/-- Register 0x012 at either level; the rows of a tile, all of them readable and writable; a set that is free for TLD and TST, with and without draws; an entry of each kind at its turn. -/
theorem witness_Completions : State.reset.guard g0 = true ∧ (7 : BitVec 7).toNat < 8 ∧ (∃ r, sysRegInfo (immU17 0x010 none) = some r ∧ r.atT = true) ∧ (atF id).me.atF = true ∧
    movzOk (immU17 0x010 none) = true ∧ movzReserved (immU17 0x010 none) ((holding id).s 0) = false ∧ movzReserved (immU17 0x011 none) 0x3F = false ∧
    (let rows := (List.range 32).map (fun r => (0x1000 + r * 64, 32 * afBytes 2)); RowsAdmitted (holding id) .read rows ∧ RowsAdmitted (holding id) .write rows) ∧
    (let spans := (List.range 32).flatMap (fun r => (((holding id).core 0).arr.tensor 3).rowSpans false r 0); RowsAdmitted (holding id) .read spans) ∧
    Min.min 32 ((((holding id).core 0).arr.tensor 3).rows - 0) = 32 := by
  refine ⟨by decide, by decide, ⟨_, rfl, rfl⟩, by decide, by decide, by decide, by decide, ?_, ?_, by decide +kernel⟩
  · exact ⟨⟨by decide, by decide, isOk_gives (by decide +kernel)⟩, ⟨by decide, by decide, isOk_gives (by decide +kernel)⟩⟩
  · exact ⟨by decide +kernel, by decide, isOk_gives (by decide +kernel)⟩
/-! ### Waits made in a handler, tags, gangs and reservations -/

/-- Thread 0 in a handler, waiting there since a bundle at address 7, above a wait at T. -/
def pausedAt (w : Option Wait) (x : Option Nat) : State :=
  me (fun t => { t with st := .trapped, atF := true, wait := some .bar, back := some (3, []), inner := [⟨w, x, (7, [])⟩], paused := true })
theorem witness_HandlerWaits : Unwaiting (me (fun t => { t with st := .running })).me ∧ (me (fun t => { t with st := .trapped })).me.st = .trapped ∧
    (me (fun t => { t with st := .trapped })).me.paused = false ∧
    (let u := pausedAt (some (.yield 0)) none
     (u.thread 0).inner = [⟨some (.yield 0), none, (7, [])⟩] ∧ (u.thread 0).paused = true ∧ (u.thread 0).st = .trapped ∧ 0 ≤ u.cycle ∧ Wait.bar.elapsed u.cycle = false) ∧
    (let u := core0 (me (fun t => { t with st := .trapped, wait := some (.yield 0) })) (fun c => { c with snap := some { snapOf 0 [] with retSt := .waiting } })
     (u.core (coreOf 0)).snap = some { snapOf 0 [] with retSt := .waiting } ∧ (u.thread 0).inner = [] ∧ (u.thread 0).wait = some (.yield 0)) ∧
    (let u := groups [(3, ⟨0, [(0, 0)], [0]⟩)] (fun t => { t with st := .trapped, wait := some .bar }); (u.thread 0).wait = some .bar ∧ (u.thread 0).inner = [] ∧ (u.thread 0).st = .trapped) ∧
    (let u := snapped 0 (fun t => { t with atF := true, ret := ⟨true, .waiting⟩, inner := [⟨some (.yield 9), none, (7, [])⟩] })
     u.me.ret = ⟨true, .waiting⟩ ∧ u.me.wdone = false ∧ u.me.paused = false ∧ u.me.inner = [⟨some (.yield 9), none, (7, [])⟩] ∧
       Pause.isDone ⟨some (.yield 9), none, (7, [])⟩ = false ∧ u.mySnap = some (snapOf 0 [⟨.s 31, 2 ^ 64 - 1, 31, 7, 0⟩])) ∧
    (let c : DieCmd := ⟨⟨0, 0, 0, 0⟩, 5, 0, .submit obj0 3 (some 0)⟩
     let u := (pausedAt none (some 5)).updDie 0 (fun d => { d with cmds := [c] })
     (u.die (dieOf 0)).cmds.find? (fun c => c.org.tid == 0 && c.org.born == (u.thread 0).born && (match c.op with | .submit _ _ (some x) => decide (x ≤ u.cycle) | _ => false)) = some c ∧
       (u.thread 0).st = .trapped ∧ (u.thread 0).paused = true ∧ (u.thread 0).inner = [⟨none, some c.id, (7, [])⟩]) ∧
    ((me (fun t => { t with st := .retiring })).thread 0).paused = false ∧ ((me (fun t => { t with st := .suspended })).thread 0).st = .suspended ∧
    (∀ b, let u := me (fun t => { t with st := if b then .running else .waiting, parked := [⟨.s 1, 5, 1, 0, 0⟩] })
      (u.thread 0).mayLand = b ∧ (u.thread 0).parked ≠ [] ∧ ∀ r ∈ (u.thread 0).parked, 1 ≤ r.rem) := by
  refine ⟨⟨by decide, by decide, by decide, by decide, by decide⟩, ?_⟩
  decide +kernel
/-- Thread 0 leaves group 3 alone, and beside thread 4 that has arrived. -/
theorem witness_LeaveAtEnd : ∀ ms, ms = [(0, 0)] ∨ ms = [(0, 0), (1, 4)] →
    let u := (groups [(3, ⟨0, ms, [4]⟩), (5, ⟨0, [(0, 9)], []⟩)] (fun t => { t with grp := some (3, 0) })).updDie 0 (fun d => { d with leaves := [0] })
    dieOf 0 = 0 ∧ (u.die 0).leaves = [0] ∧ (u.thread 0).grp = some (3, 0) ∧ (u.die 0).groups.find? (fun e => e.1 == 3) = some (3, ⟨0, ms, [4]⟩) ∧
      (∀ x ∈ (u.die 0).groups, x.1 ≠ 3 → x.2.arrived = []) ∧ (tdel ms 0 = [] ∨ (tdel ms 0).all (fun x => [4].contains x.2) = true) := by
  rintro ms (rfl | rfl) <;> decide
/-- A record by thread 4 of units 0 to 2 of the granule at 0x1000 of core 0's scratchpad: written, without a release since. -/
def wrote4 : Rec := ⟨4, 7, 0, false, [0, 0, 0, 0, 0], none, none⟩
/-- That granule with a tag, for thread 0 with the given masks. -/
def tagged (g : Tag) (cmask : BitVec 2) : State := { me (fun t => { t with ctl := { t.ctl with cmask := cmask } }) with tags := [((2 ^ 41 + 0x1000) / 64, g)] }
theorem witness_ConflictTags :
    (∀ g m, g = { Tag.empty with writer := some wrote4 } ∨ g = { Tag.empty with lr := true } ∨ g = { Tag.empty with lw := 2 } ∨ g = { Tag.empty with la := true } → m = 0 ∨ m = 3 →
      let u := tagged g m
      (match u.locate 0 u.me Acc.store.perm Acc.store.scope Acc.store.engine 0x1004 with
       | .ok p => p.checked && p.home != .hbm && !u.rangeBusy 0 p 4 .write && !u.heldByOther 0 p 4 true && decide (p.key = 2 ^ 41 + 0x1004)
       | _ => false) = true ∧ (0x1004 : Nat) % 4 = 0 ∧ u.ecc = [] ∧ u.hub.dead = []) ∧
    (let u := tagged { Tag.empty with writer := some wrote4 } 0
     ((u.purge (Home.own).wide (u.tagAt ((2 ^ 41 + 0x1004) / 64))).others 0 u.me.seen) = [wrote4] ∧ wrote4.hits (unitMask (2 ^ 41 + 0x1004) 4) true false ≠ 0 ∧
       wrote4.age (u.thread 4).rel (levelOf 4 0) = .opened ∧ wrote4.hits (unitMask (2 ^ 41 + 0x100C) 4) true false = 0) ∧
    (let t := (tagged { Tag.empty with lw := 2 } 0); (unitMask (2 ^ 41 + 0x1004) 4 &&& (t.purge (Home.own).wide (t.tagAt ((2 ^ 41 + 0x1004) / 64))).lw) ≠ 0) ∧ (2047 : Nat) < 2 ^ 11 ∧
    (let r : Rec := { wrote4 with tid := 0, popped := none }
     { wrote4 with tid := 8 }.tid ≠ r.tid ∧ r.wr ≠ 0 ∧ { r with wr := 0 }.wr = 0 ∧ (Tag.empty.readers.length < 2 ∧ 2 ≤ [wrote4, { wrote4 with tid := 8 }].length)) := by
  refine ⟨?_, by decide +kernel, by decide +kernel, by decide, by decide⟩
  rintro g m (rfl | rfl | rfl | rfl) (rfl | rfl) <;> decide +kernel
/-- An MCALL of threads 0 and 4 whose part at thread 0 is open, and done. -/
def ganged (st : MatSt) : State := engine { call 0 st with gang := some ([0, 4], 3) }
theorem witness_Gang : (∃ t ∈ [0, 4], ∃ c ∈ ((ganged .queued).thread t).mat.queue, c.gang = some ([0, 4], 3) ∧ c.st ≠ .done) ∧
    (∀ t ∈ [0, 4], ∀ c ∈ ((ganged .done).thread t).mat.queue, c.gang = some ([0, 4], 3) → c.st = .done) ∧
    (let f : FuseSet := { set3 0 2 [(0, 0), (1, 4)] with formed := true, lock := true }
     locked.fuseOf 0 = some f ∧ f.lock = true ∧ ∃ p ∈ f.parts, p.2 = locked.cur.tid ∧ f.solo.contains p.1 = false) := by decide +kernel
/-- The same place popped, and pushed again one use of the slot later, and two delays that are no such push. -/
theorem witness_PoppedRecords : (let p : Popped := ⟨0, 5 * 2 ^ 32 + 1, 2, 0, 0⟩; let q : Rec := { wrote4 with popped := some p }
    q.ring = none ∧ (∃ e ∈ [(0, 5 * 2 ^ 32 + 3)], e.1 = p.ring ∧ e.2 / 2 ^ 32 = p.push / 2 ^ 32 ∧ p.push < e.2 ∧ (e.2 - p.push) % p.slots = 0) ∧
    ¬ ∃ e ∈ [(0, 5 * 2 ^ 32 + 2), (1, 5 * 2 ^ 32 + 3)], e.1 = p.ring ∧ e.2 / 2 ^ 32 = p.push / 2 ^ 32 ∧ p.push < e.2 ∧ (e.2 - p.push) % p.slots = 0) ∧
    -- a stranger's push and a ring with a delivery under way
    (let u := ringed { ring0 with owner := 4 } 0x800000 0; (u.s 1).toNat / 2 ^ 3 % 2 ^ 5 = 0 ∧ (u.s 1).toNat / 2 ^ 36 = 0 ∧ ({ ring0 with owner := 4 } : Ring).owner ≠ u.cur.tid ∧ SnapFree u) ∧
    (∃ e ∈ ((delivering none 0).cluster 0).deliveries, e.ring = 0) := by decide
/-- A task refused at cycle 0, 65,536 cycles later, that nine clusters cannot take; and one that can be placed. -/
theorem witness_FirstRefused : (∀ n, n = 1 ∨ n = 9 →
    let x : ReadyTask := { task0 with refused := some 0 }
    let s := dws (sched 65536 (fun d => { d with ready := [x] })) obj0 [(2, n * 2 ^ 40), (12, 0x600)]
    (s.die 0).order s.cycle = [x] ∧ (s.die 0).resv = none ∧ (∀ y ∈ (s.die 0).ready, s.cycle < y.since + 262144) ∧ x.refused = some 0 ∧ 0 + 65536 ≤ s.cycle ∧
      (match s.tryTask 0 x with | .none => n == 9 | _ => n == 1) = true) ∧ (sched 65535 id).cycle < 0 + 65536 := by
  refine ⟨?_, by decide⟩
  rintro n (rfl | rfl) <;> decide +kernel
/-- The routing table's other ports of device 7, of which one is up; the last GO reported device 1056; a copy whose entry cannot be read. -/
theorem witness_OtherPorts : (tget [] (fab (fun f => { f with routes := [(7, 32)], others := [(7, [31, 30])], down := [32, 31] })).hub.fab.others 7).find?
      (fab (fun f => { f with routes := [(7, 32)], others := [(7, [31, 30])], down := [32, 31] })).hub.fab.linkUp = some 30 ∧
    (fab (fun f => { f with routes := [(7, 32)], others := [(7, [31, 30])], down := [32, 31] })).hub.fab.minimal 7 = none ∧
    (fab (fun f => { f with lastGo := some (0, 1 + 2 * 1056) })).hub.fab.reported 1056 = true ∧ State.reset.hub.fab.reported 1056 = false ∧
    ({ copy0 0 none with unread := some 0x32 }).unread = some 0x32 ∧ (copy0 0 none).busy = none := by decide
theorem witness_MemoryStaysCanonical : MemOk State.reset ∧ ∃ t, step State.reset = .next t := ⟨by decide, _, rfl⟩

end Sys2Proof.Tests
end

section
/-! LEMMAS. What leaves memory unchanged (for O59). One lemma for each operation of the model that does not write memory, in the order of
the model's files; with the `simp` lemmas of the state's updates, each follows from those before it. `-implicitDefEqProofs` stands where the side
condition of `foldl_mem` or of a like lemma is closed by a lemma that is true by `rfl`: `simp` needs its proof there. -/

namespace Sys2Proof.Machine

open Sys2Proof

/-- The memory after an operation that answers a next state. -/
def memAfter : Host.Outcome State Fault Refusal → List Host.Cell
  | .next t => t.mem
  | .fault _ => []
  | .refused _ => []

@[simp] theorem memAfter_next (t : State) : memAfter (.next t) = t.mem := rfl

@[simp] theorem ite_mem (c : Prop) [Decidable c] (a b : State) : (if c then a else b).mem = if c then a.mem else b.mem :=
  apply_ite State.mem c a b

@[simp] theorem memAfter_ite (c : Prop) [Decidable c] (a b : Host.Outcome State Fault Refusal) :
    memAfter (if c then a else b) = if c then memAfter a else memAfter b := apply_ite memAfter c a b

/-- A fold of steps that leave memory unchanged leaves it unchanged. -/
@[simp] theorem foldl_mem {α : Type} {g : State → α → State} (h : ∀ s x, (g s x).mem = s.mem) (l : List α) (s : State) :
    (l.foldl g s).mem = s.mem := by
  induction l generalizing s with
  | nil => rfl
  | cons x l ih => exact (ih (g s x)).trans (h s x)

/-- A fold of steps that keep memory canonical keeps it canonical. -/
theorem foldl_memOk {α : Type} {g : State → α → State} (h : ∀ s x, MemOk s → MemOk (g s x)) (l : List α) {s : State} (hs : MemOk s) :
    MemOk (l.foldl g s) := by
  induction l generalizing s with
  | nil => exact hs
  | cons x l ih => exact ih (h s x hs)

/-! ## Ops -/

@[simp] theorem clearSlotErrs_mem (s : State) (core slots) : (s.clearSlotErrs core slots).mem = s.mem := rfl

@[simp] theorem postS_mem (s : State) (r x lat) : (s.postS r x lat).mem = s.mem := by simp [State.postS]

@[simp] theorem postV_mem (s : State) (r x lat) : (s.postV r x lat).mem = s.mem := rfl

@[simp] theorem postG_mem (s : State) {n : Nat} (r : BitVec n) (x : Bool) (lat : Nat) : (s.postG r x lat).mem = s.mem := by simp [State.postG]

@[simp] theorem postM_mem (s : State) {n : Nat} (r : BitVec n) (x : Word) (lat : Nat) : (s.postM r x lat).mem = s.mem := by simp [State.postM]

@[simp] theorem flags_mem (s : State) (f) : (s.flags f).mem = s.mem := rfl

@[simp] theorem draws64_mem (s : State) (n) : (s.draws64 n).2.mem = s.mem := rfl

@[simp] theorem draws16_mem (s : State) (n) : (s.draws16 n).2.mem = s.mem := rfl

@[simp] theorem freeNat_mem (s : State) : s.freeNat.2.mem = s.mem := rfl

@[simp] theorem freeze_mem (s : State) (die) : (s.freeze die).mem = s.mem := rfl

@[simp] theorem record_mem (s : State) (die e) : (s.record die e).mem = s.mem := by simp [State.record]

@[simp] theorem event_mem (s : State) (die ev unit tid dom d0 d1) : (s.event die ev unit tid dom d0 d1).mem = s.mem := by
  simp only [State.event]
  repeat' split
  all_goals simp

@[simp] theorem irq_mem (s : State) : s.irq.mem = s.mem := rfl

@[simp] theorem cleanBank_mem (s : State) (u) : (s.cleanBank u).mem = s.mem := rfl

@[simp] theorem beginTest_mem (s : State) (u) : (s.beginTest u).mem = s.mem := by simp [State.beginTest]

@[simp] theorem startTest_mem (s : State) (u) : (s.startTest u).mem = s.mem := by simp [State.startTest]

@[simp] theorem memError_mem (s : State) (ev key tid dom) : (s.memError ev key tid dom).mem = s.mem := by simp [State.memError]

@[simp] theorem corrected_mem (s : State) (tid dom reads) : (s.corrected tid dom reads).mem = s.mem := by simp [State.corrected]

@[simp] theorem noteDone_mem (s : State) (t) : (s.noteDone t).mem = s.mem := rfl

@[simp] theorem settle_mem (s : State) (t th) : (s.settle t th).mem = s.mem := by simp [State.settle]

@[simp] theorem wakeIf_mem (s : State) (t w) : (s.wakeIf t w).mem = s.mem := by simp [State.wakeIf]

@[simp] theorem wakeX_mem (s : State) (t id) : (s.wakeX t id).mem = s.mem := by simp [State.wakeX]

@[simp] theorem barrierTest_mem (s : State) (die grp) : (s.barrierTest die grp).mem = s.mem := by
  unfold State.barrierTest
  split <;> simp

@[simp] theorem groupLeave_mem (s : State) (t) : (s.groupLeave t).mem = s.mem := by
  simp only [State.groupLeave]
  split
  · simp -implicitDefEqProofs
  · split <;> simp -implicitDefEqProofs

@[simp] theorem orphanRings_mem (s : State) (t) : (s.orphanRings t).mem = s.mem := rfl

@[simp] theorem updFuse_mem (s : State) (t g) : (s.updFuse t g).mem = s.mem := rfl

@[simp] theorem endLine_mem (s : State) (t) : (s.endLine t).mem = s.mem := by
  simp only [State.endLine]
  split <;> simp

@[simp] theorem fuseLeave_mem (s : State) (t) : (s.fuseLeave t).mem = s.mem := by simp [State.fuseLeave]

@[simp] theorem stopLock_mem (s : State) (t) : (s.stopLock t).mem = s.mem := by
  unfold State.stopLock
  split <;> simp

@[simp] theorem leaveLater_mem (s : State) (t) : (s.leaveLater t).mem = s.mem := by simp [State.leaveLater]

@[simp] theorem retire_mem (s : State) (t) : (s.retire t).mem = s.mem := by simp [State.retire]

@[simp] theorem markStopping_mem (s : State) (t k) : (s.markStopping t k).mem = s.mem := by
  unfold State.markStopping
  split <;> simp -implicitDefEqProofs

@[simp] theorem resumeDie_mem (s : State) (tid) : (s.resumeDie tid).mem = s.mem := by simp [State.resumeDie]

@[simp] theorem discardCommands_mem (s : State) (tid) : (s.discardCommands tid).mem = s.mem := by simp [State.discardCommands]

@[simp] theorem leaveService_mem (s : State) (c) : (s.leaveService c).mem = s.mem := by simp [State.leaveService]

@[simp] theorem enterTrap_mem (s : State) (t i xpc) : (s.enterTrap t i xpc).mem = s.mem := rfl

@[simp] theorem doubleFault_mem (s : State) (t first i) : (s.doubleFault t first i).mem = s.mem := by simp -implicitDefEqProofs [State.doubleFault]

@[simp] theorem takeTrap_mem (s : State) (t i xpc) : (s.takeTrap t i xpc).mem = s.mem := by
  unfold State.takeTrap
  split <;> simp

@[simp] theorem raise_mem (s : State) (i) : (s.raise i).mem = s.mem := by
  simp only [State.raise]
  split <;> simp

@[simp] theorem hold_mem (s : State) : s.hold.mem = s.mem := rfl

@[simp] theorem illegal_mem (s : State) (opcode engine) : (s.illegal opcode engine).mem = s.mem := by simp [State.illegal]

@[simp] theorem privileged_mem (s : State) (engine) : (s.privileged engine).mem = s.mem := by simp [State.privileged]

@[simp] theorem postFault_mem (s : State) (o i) : (s.postFault o i).mem = s.mem := by simp [State.postFault]

/-- A guarded operation that leaves memory unchanged when its guard holds does so always. -/
@[simp] theorem guarded_mem (gd : Guard) {s : State} {f : State → State} (h : (f s).mem = s.mem) : memAfter (guarded gd s f) = s.mem := by
  simp [guarded, h]

/-! ## Operands -/

@[simp] theorem modes_mem (s : State) (code n) : (s.modes code n).2.mem = s.mem := by
  unfold State.modes
  split <;> simp

/-! ## Map -/

@[simp] theorem overTag_mem (s : State) (pa) : (s.overTag pa).mem = s.mem := by
  unfold State.overTag
  split <;> simp

@[simp] theorem clearEcc_mem (s : State) (key n) : (s.clearEcc key n).mem = s.mem := rfl

@[simp] theorem joinWalk_mem (s : State) (die dom page cores) : (s.joinWalk die dom page cores).mem = s.mem := rfl

@[simp] theorem engAsk_mem (s : State) (die who dom pages cores) : (s.engAsk die who dom pages cores).mem = s.mem := by
  simp -implicitDefEqProofs [State.engAsk]

@[simp] theorem engTaken_mem (s : State) (die who) : (s.engTaken die who).mem = s.mem := by simp [State.engTaken]

@[simp] theorem afterBundle_mem (s : State) (k) {f : State → VAddr → State} (h : ∀ t, (f s t).mem = s.mem) :
    (s.afterBundle k f).mem = s.mem := by
  unfold State.afterBundle
  split <;> simp [h]

/-! ## Order -/

@[simp] theorem whenDrained_mem {s : State} {f : State → State} (h : (f s).mem = s.mem) : (s.whenDrained f).mem = s.mem := by
  simp [State.whenDrained, h]

/-! ## Control -/

@[simp] theorem jumpTo_mem (s : State) (x) {f : State → VAddr → State} (h : ∀ t, (f s t).mem = s.mem) : (s.jumpTo x f).mem = s.mem := by
  simp [State.jumpTo, h]

@[simp] theorem loopTrap_mem (s : State) (sub) : (s.loopTrap sub).mem = s.mem := by simp [State.loopTrap]

@[simp] theorem groupTrap_mem (s : State) (sub) : (s.groupTrap sub).mem = s.mem := by simp [State.groupTrap]

@[simp] theorem openLoop_mem (s : State) (bl c) : (s.openLoop bl c).mem = s.mem := by simp -implicitDefEqProofs [State.openLoop]

@[simp] theorem waitFor_mem (s : State) (w) : (s.waitFor w).mem = s.mem := rfl

@[simp] theorem waitX_mem (s : State) (id) : (s.waitX id).mem = s.mem := rfl

@[simp] theorem execLbrk_mem (s : State) (gd k) : memAfter (execLbrk gd k s) = s.mem := by
  refine guarded_mem gd ?_
  split <;> simp -implicitDefEqProofs

@[simp] theorem endThread_mem (s : State) : s.endThread.mem = s.mem := by simp [State.endThread]

@[simp] theorem execYieldExpiry_mem (s : State) (tid) : memAfter (execYieldExpiry tid s) = s.mem := by simp [execYieldExpiry]

@[simp] theorem joinNew_mem (s : State) : s.joinNew.mem = s.mem := by
  simp only [State.joinNew]
  split
  · simp -implicitDefEqProofs
  · split <;> simp -implicitDefEqProofs

@[simp] theorem joinEnter_mem (s : State) (g) : (s.joinEnter g).mem = s.mem := by
  simp only [State.joinEnter]
  repeat' split
  all_goals simp

@[simp] theorem execBar_mem (s : State) (gd) : memAfter (execBar gd s) = s.mem := by
  refine guarded_mem gd (whenDrained_mem ?_)
  dsimp only
  split <;> rfl

/-! ## Tags -/

@[simp] theorem tagRecord_mem (s : State) (tid cmask cnt ring wide key n rd wr atom) :
    (s.tagRecord tid cmask cnt ring wide key n rd wr atom).mem = s.mem := rfl

@[simp] theorem tagPop_mem (s : State) (core key n p) : (s.tagPop core key n p).mem = s.mem := rfl

/-! ## Access -/

@[simp] theorem recordAll_mem (s : State) (tid t a ps) : (s.recordAll tid t a ps).mem = s.mem := by simp [State.recordAll]

@[simp] theorem awaitAnswers_mem (s : State) (ps) : (s.awaitAnswers ps).mem = s.mem := rfl

@[simp] theorem access_mem (s : State) (a align ps) {f : State → List Place → State} (h : ∀ s pl, (f s pl).mem = s.mem) :
    (s.access a align ps f).mem = s.mem := by
  unfold State.access
  split
  · rfl
  · split <;> simp [h]

@[simp] theorem takeCredits_mem (s : State) (from_ tgt msg) : (s.takeCredits from_ tgt msg).mem = s.mem := rfl

@[simp] theorem deliver_mem (s : State) (tid id d v) : (s.deliver tid id d v).mem = s.mem := rfl

@[simp] theorem deliverFlags_mem (s : State) (tid id d v f) : (s.deliverFlags tid id d v f).mem = s.mem := rfl

@[simp] theorem finish_mem (s : State) (tid a op) : (s.finish tid a op).mem = s.mem := by
  unfold State.finish
  split <;> simp

@[simp] theorem clearFound_mem (s : State) (core slot) : (s.clearFound core slot).mem = s.mem := rfl

@[simp] theorem execFixedLatencyWriteLands_mem (s : State) (tid) : memAfter (execFixedLatencyWriteLands tid s) = s.mem := rfl

/-! ## Scalar -/

@[simp] theorem scalar2_mem (s : State) (gd d a b lat f) : memAfter (scalar2 gd d a b lat f s) = s.mem := by simp [scalar2]

@[simp] theorem scalarI_mem (s : State) (gd d a lat f) : memAfter (scalarI gd d a lat f s) = s.mem := by simp [scalarI]

@[simp] theorem scalarFp_mem (s : State) (gd d a b r f) : memAfter (scalarFp gd d a b r f s) = s.mem := by simp [scalarFp]

@[simp] theorem scalarMinMax_mem (s : State) (gd d a b isMax) : memAfter (scalarMinMax gd d a b isMax s) = s.mem := by simp [scalarMinMax]

@[simp] theorem sysWrite_mem (s : State) (n x) : (s.sysWrite n x).mem = s.mem := by simp [State.sysWrite]

/-! ## LoadStore -/

@[simp] theorem load_mem (s : State) (d b i kw n sgn) : (s.load d b i kw n sgn).mem = s.mem := by
  refine access_mem s _ _ _ (fun s ps => ?_)
  split <;> rfl

@[simp] theorem sendWindows_mem (s : State) (us) : (s.sendWindows us).mem = s.mem := by simp [State.sendWindows]

@[simp] theorem storeWords_mem (s : State) (vas ps ws blocks) : (s.storeWords vas ps ws blocks).mem = s.mem := by simp [State.storeWords]

@[simp] theorem store_mem (s : State) (d b i kw n) : (s.store d b i kw n).mem = s.mem := by
  refine access_mem s _ _ _ (fun s ps => ?_)
  split
  · split <;> simp -implicitDefEqProofs
  · simp -implicitDefEqProofs

@[simp] theorem loadLanes_mem (s : State) (d act va base) : (s.loadLanes d act va base).mem = s.mem := by simp -implicitDefEqProofs [State.loadLanes]

@[simp] theorem storeActive_mem (s : State) (v act va blocks) : (s.storeActive v act va blocks).mem = s.mem := by simp [State.storeActive]

@[simp] theorem atomicAt_mem (s : State) (k a n sc) {f : State → Place → State} (h : ∀ s p, (f s p).mem = s.mem) :
    (s.atomicAt k a n sc f).mem = s.mem := by
  refine access_mem s _ _ _ (fun s pl => ?_)
  split <;> simp [h]

/-! ## Matrix -/

@[simp] theorem predicated_mem {s : State} (p desc) {f : State → State} (h : (f s).mem = s.mem) : (s.predicated p desc f).mem = s.mem := by
  simp [State.predicated, h]

@[simp] theorem padAccess_mem (s : State) (k engine align ps) {f : State → State} (h : ∀ s, (f s).mem = s.mem) :
    (s.padAccess k engine align ps f).mem = s.mem := by
  unfold State.padAccess
  split
  · simp
  · split <;> simp [h]

@[simp] theorem imageCmd_mem (s : State) (op align n ea) : (s.imageCmd op align n ea).mem = s.mem := by simp -implicitDefEqProofs [State.imageCmd]

@[simp] theorem execMpred_mem (s : State) (gd d a b f) : memAfter (execMpred gd d a b f s) = s.mem := by
  unfold execMpred
  split <;> simp

@[simp] theorem execMcall_mem (s : State) (gd v q x w p r) : memAfter (execMcall gd v q x w p r s) = s.mem := by
  refine guarded_mem gd ?_
  dsimp only
  split <;> rfl

theorem ite_draws16_mem (s : State) (n) (c : Prop) [Decidable c] : (if c then s.draws16 n else ([], s)).2.mem = s.mem := by
  split <;> simp

@[simp] theorem execMrdrow_mem (s : State) (gd d t b r f) : memAfter (execMrdrow gd d t b r f s) = s.mem :=
  guarded_mem gd (ite_draws16_mem s 32 _)

@[simp] theorem clearSlot_mem (s : State) (core slot) : (s.clearSlot core slot).mem = s.mem := rfl

@[simp] theorem spoil_mem (s : State) (slot i) : (s.spoil slot i).mem = s.mem := by
  simp only [State.spoil]
  split <;> simp

@[simp] theorem tldAt_mem (s : State) (slot entry tr coord) : (s.tldAt slot entry tr coord).mem = s.mem := by
  simp only [State.tldAt]
  repeat' split
  all_goals simp

@[simp] theorem tileRows_mem (s : State) (t a b af k) {f : State → Nat → Nat → State} (h : ∀ s x y, (f s x y).mem = s.mem) :
    (s.tileRows t a b af k f).mem = s.mem := by
  simp [State.tileRows, h]

@[simp] theorem execTst_mem (s : State) (gd t a b p r f) : memAfter (execTst gd t a b p r f s) = s.mem := by
  refine guarded_mem gd ?_
  split
  · rfl
  · refine tileRows_mem s _ _ _ _ _ (fun s base str => ?_)
    split
    · simp
    · exact ite_draws16_mem s 1024 _

@[simp] theorem gangTest_mem (s : State) (g) : (s.gangTest g).mem = s.mem := by simp -implicitDefEqProofs [State.gangTest]

@[simp] theorem endPart_mem (s : State) (tid c) : (s.endPart tid c).mem = s.mem := by
  unfold State.endPart
  split <;> simp

@[simp] theorem failCmd_mem (s : State) (tid c i steps) : (s.failCmd tid c i steps).mem = s.mem := by simp [State.failCmd]

@[simp] theorem afterStop_mem (s : State) (tid i key) : (s.afterStop tid i key).mem = s.mem := by
  unfold State.afterStop
  repeat' split
  all_goals simp

@[simp] theorem noteStream_mem (s : State) (tid sts) : (s.noteStream tid sts).mem = s.mem := by simp [State.noteStream]

@[simp] theorem recordStream_mem (s : State) (tid sts) : (s.recordStream tid sts).mem = s.mem := by
  refine foldl_mem (fun s p => ?_) _ s
  split
  · split <;> rfl
  · rfl

@[simp] theorem startCall_mem (s : State) (tid c routine p gather levels first) : (s.startCall tid c routine p gather levels first).mem = s.mem := by
  simp only [State.startCall]
  split
  · simp -implicitDefEqProofs
  · split <;> simp -implicitDefEqProofs

@[simp] theorem startTranslated_mem (s : State) (tid c routine p gather levels first) :
    (s.startTranslated tid c routine p gather levels first).mem = s.mem := by
  simp [State.startTranslated]

@[simp] theorem execMcallEngineStart_mem (s : State) (tid) : memAfter (execMcallEngineStart tid s) = s.mem := by
  unfold execMcallEngineStart
  split
  · simp -implicitDefEqProofs
  · split <;> simp -implicitDefEqProofs

@[simp] theorem execMcallRetire_mem (s : State) (tid) : memAfter (execMcallRetire tid s) = s.mem := by
  unfold execMcallRetire
  split
  · simp -implicitDefEqProofs
  · split <;> simp -implicitDefEqProofs

@[simp] theorem stopRun_mem (s : State) (tid r e) : (s.stopRun tid r e).mem = s.mem := by
  unfold State.stopRun
  repeat' split
  all_goals simp

@[simp] theorem execRoutineStop_mem (s : State) (tid e) : memAfter (execRoutineStop tid e s) = s.mem := by
  unfold execRoutineStop
  split <;> simp

@[simp] theorem refuseCmd_mem (s : State) (tid c cause sub bad) : (s.refuseCmd tid c cause sub bad).mem = s.mem := by simp [State.refuseCmd]

@[simp] theorem runCmd_mem (s : State) (tid c n) : (s.runCmd tid c n).mem = s.mem := rfl

@[simp] theorem onTile_mem (s : State) (tid c tile) {f : State → Tile → State} (h : ∀ s t, (f s t).mem = s.mem) :
    (s.onTile tid c tile f).mem = s.mem := by
  simp [State.onTile, h]

@[simp] theorem putTile_mem (s : State) (tid c tile t f n) : (s.putTile tid c tile t f n).mem = s.mem := rfl

@[simp] theorem beginCmd_mem (s : State) (tid c) : (s.beginCmd tid c).mem = s.mem := by
  simp only [State.beginCmd]
  repeat' split
  all_goals simp -implicitDefEqProofs

@[simp] theorem endCmd_mem (s : State) (tid c) : (s.endCmd tid c).mem = s.mem := by
  unfold State.endCmd
  split <;> simp

@[simp] theorem engineStep_mem (s : State) (tid p) : (s.engineStep tid p).mem = s.mem := by
  simp only [State.engineStep]
  split <;> simp

@[simp] theorem execConfigCommandApply_mem (s : State) (tid) : memAfter (execConfigCommandApply tid s) = s.mem := by simp [execConfigCommandApply]

@[simp] theorem execTableCommandApply_mem (s : State) (tid) : memAfter (execTableCommandApply tid s) = s.mem := by simp [execTableCommandApply]

@[simp] theorem execMatrixCommandEngineApply_mem (s : State) (tid) : memAfter (execMatrixCommandEngineApply tid s) = s.mem := by
  simp [execMatrixCommandEngineApply]

@[simp] theorem execCodeTableFlip_mem (s : State) (core) : memAfter (execCodeTableFlip core s) = s.mem := by simp [execCodeTableFlip]

/-! ## Traps -/

@[simp] theorem dropSnap_mem (s : State) : s.dropSnap.mem = s.mem := rfl

@[simp] theorem execSnapst_mem (s : State) (gd b o kw) : memAfter (execSnapst gd b o kw s) = s.mem := by
  unfold execSnapst
  split
  · simp
  · refine guarded_mem gd ?_
    split <;> simp -implicitDefEqProofs

@[simp] theorem backInLine_mem (s : State) : s.backInLine.mem = s.mem := by
  unfold State.backInLine
  split <;> simp

@[simp] theorem returnFrom_mem (s : State) (recs pf st wdone n) : (s.returnFrom recs pf st wdone n).mem = s.mem := by simp [State.returnFrom]

@[simp] theorem rftLive_mem (s : State) (n) : (s.rftLive n).mem = s.mem := by
  unfold State.rftLive
  split <;> simp

@[simp] theorem rftImage_mem (s : State) (ea) : (s.rftImage ea).mem = s.mem := by
  unfold State.rftImage
  split
  · rfl
  · refine padAccess_mem s _ _ _ _ (fun s => padAccess_mem s _ _ _ _ (fun s => ?_))
    dsimp only
    split <;> simp

@[simp] theorem deliverFault_mem (s : State) (tid) : (s.deliverFault tid).mem = s.mem := by
  simp only [State.deliverFault]
  repeat' split
  all_goals simp

/-! ## Cluster -/

@[simp] theorem queueMisuse_mem (s : State) (sub) : (s.queueMisuse sub).mem = s.mem := by simp [State.queueMisuse]

@[simp] theorem ringMisuse_mem (s : State) (sub) : (s.ringMisuse sub).mem = s.mem := by simp [State.ringMisuse]

@[simp] theorem execQueueCreditReturn_mem (s : State) (core) : memAfter (execQueueCreditReturn core s) = s.mem := rfl

@[simp] theorem setRing_mem (s : State) (clu i r) : (s.setRing clu i r).mem = s.mem := rfl

@[simp] theorem ringStatus_mem (s : State) (d a k pop) : (s.ringStatus d a k pop).mem = s.mem := by
  simp only [State.ringStatus]
  repeat' split
  all_goals simp

@[simp] theorem fuse_mem (s : State) (f n) : (s.fuse f n).mem = s.mem := by simp [State.fuse]

@[simp] theorem lineTest_mem (s : State) (clu f) : (s.lineTest clu f).mem = s.mem := by
  unfold State.lineTest
  split
  · simp -implicitDefEqProofs
  · split <;> simp -implicitDefEqProofs

@[simp] theorem tellPartner_mem (s : State) (lost tid) : (s.tellPartner lost tid).mem = s.mem := by
  simp only [State.tellPartner]
  repeat' split
  all_goals simp

@[simp] theorem tellLost_mem (s : State) (clu) : (s.tellLost clu).mem = s.mem := by simp [State.tellLost]

@[simp] theorem clusterEnd_mem (s : State) (clu) : (s.clusterEnd clu).mem = s.mem := by simp [State.clusterEnd]

/-! ## Engine -/

@[simp] theorem noteRead_mem (s : State) (tid dom key n) : (s.noteRead tid dom key n).mem = s.mem := by
  simp only [State.noteRead]
  split <;> simp

@[simp] theorem noteEng_mem (s : State) (die got dom tid va n) : (s.noteEng die got dom tid va n).mem = s.mem := by
  unfold State.noteEng
  split
  · rfl
  · refine foldl_mem (fun s p => ?_) _ s
    split <;> simp

@[simp] theorem enqueueReady_mem (s : State) (die t) : (s.enqueueReady die t).mem = s.mem := by simp [State.enqueueReady]

@[simp] theorem dropCmd_mem (s : State) (die c) : (s.dropCmd die c).mem = s.mem := rfl

@[simp] theorem endX_mem (s : State) (c) : (s.endX c).mem = s.mem := by simp [State.endX]

@[simp] theorem failDie_mem (s : State) (die c i) : (s.failDie die c i).mem = s.mem := by simp [State.failDie]

@[simp] theorem failAt_mem (s : State) (die o i) : (s.failAt die o i).mem = s.mem := by simp [State.failAt]

@[simp] theorem noteWord_mem (s : State) (tid dom w) : (s.noteWord tid dom w).mem = s.mem := by
  unfold State.noteWord
  split <;> simp

/-! ## Hamper -/

@[simp] theorem noteHam_mem (s : State) (h tid off n) : (s.noteHam h tid off n).mem = s.mem := by simp [State.noteHam]

@[simp] theorem withPages_mem (s : State) (x n) {f : State → State} (h : (f s).mem = s.mem) : (s.withPages x n f).mem = s.mem := by
  unfold State.withPages
  split <;> simp [h]

/-! ## Copies -/

@[simp] theorem chunkCorrected_mem (s : State) (die c) : (s.chunkCorrected die c).mem = s.mem := by simp [State.chunkCorrected]

@[simp] theorem updRun_mem (s : State) (id f) : (s.updRun id f).mem = s.mem := rfl

@[simp] theorem startFrom_mem (s : State) (id fuel) : (s.startFrom id fuel).mem = s.mem := by
  induction fuel generalizing s with
  | zero => rfl
  | succ fuel ih =>
    unfold State.startFrom
    split
    · rfl
    · dsimp only
      repeat' split
      all_goals simp [ih]

@[simp] theorem startEntries_mem (s : State) (id) : (s.startEntries id).mem = s.mem := by simp [State.startEntries]

@[simp] theorem fetchEntries_mem (s : State) (die) : (s.fetchEntries die).mem = s.mem := by simp [State.fetchEntries]

@[simp] theorem dropCopy_mem (s : State) (die k c) : (s.dropCopy die k c).mem = s.mem := by simp -implicitDefEqProofs [State.dropCopy]

/-! ## Tasks -/

@[simp] theorem updReady_mem (s : State) (die seq f) : (s.updReady die seq f).mem = s.mem := rfl

@[simp] theorem formGroup_mem (s : State) (die dom ms) : (s.formGroup die dom ms).1.mem = s.mem := by
  unfold State.formGroup
  split <;> simp

@[simp] theorem startFresh_mem (s : State) (t id tids) : (s.startFresh t id tids).mem = s.mem := by
  unfold State.startFresh
  split <;> simp -implicitDefEqProofs

@[simp] theorem dropReady_mem (s : State) (die seq) : (s.dropReady die seq).mem = s.mem := rfl

@[simp] theorem noteLoad_mem (s : State) (die t) : (s.noteLoad die t).mem = s.mem := by
  unfold State.noteLoad
  split <;> simp

@[simp] theorem noteRecord_mem (s : State) (r off n) : (s.noteRecord r off n).mem = s.mem := by
  unfold State.noteRecord
  split <;> simp

@[simp] theorem requestStop_mem (s : State) (r k h) : (s.requestStop r k h).mem = s.mem := by simp -implicitDefEqProofs [State.requestStop]

@[simp] theorem drain_mem (s : State) (r h) : (s.drain r h).mem = s.mem := by
  simp only [State.drain]
  split <;> simp

@[simp] theorem execPriorityAgeing_mem (s : State) (die k) : memAfter (execPriorityAgeing die k s) = s.mem := by
  unfold execPriorityAgeing
  split <;> simp

@[simp] theorem execReservationTaken_mem (s : State) (die) : memAfter (execReservationTaken die s) = s.mem := by
  simp only [execReservationTaken]
  split
  · simp -implicitDefEqProofs
  · split <;> simp -implicitDefEqProofs

@[simp] theorem execReadyQueueEntry_mem (s : State) (die) : memAfter (execReadyQueueEntry die s) = s.mem := by
  simp only [execReadyQueueEntry]
  split
  · simp -implicitDefEqProofs
  · split <;> simp -implicitDefEqProofs

@[simp] theorem killTask_mem (s : State) (r) : (s.killTask r).mem = s.mem := by simp [State.killTask]

@[simp] theorem killIfStopped_mem (s : State) (tid) : (s.killIfStopped tid).mem = s.mem := by
  unfold State.killIfStopped
  split <;> simp

@[simp] theorem execStopLands_mem (s : State) (tid) : memAfter (execStopLands tid s) = s.mem := by
  simp only [execStopLands]
  split <;> simp

@[simp] theorem runOn_mem (s : State) (susp tid) : (State.runOn susp s tid).mem = s.mem := rfl

@[simp] theorem failSuspend_mem (s : State) (die x code) : (s.failSuspend die x code).mem = s.mem := by
  unfold State.failSuspend
  split <;> simp -implicitDefEqProofs

@[simp] theorem failCheckpoint_mem (s : State) (r) : (s.failCheckpoint r).mem = s.mem := by simp -implicitDefEqProofs [State.failCheckpoint]

@[simp] theorem execStopRequestTimeout_mem (s : State) (tid) : memAfter (execStopRequestTimeout tid s) = s.mem := by
  simp only [execStopRequestTimeout]
  repeat' split
  all_goals simp -implicitDefEqProofs

@[simp] theorem freeSequencer_mem (s : State) (tid) : (s.freeSequencer tid).mem = s.mem := by simp [State.freeSequencer]

@[simp] theorem requeue_mem (s : State) (die r k start) : (s.requeue die r k start).mem = s.mem := by simp [State.requeue]

@[simp] theorem dieCmd_mem (s : State) (op delay dests) : (s.dieCmd op delay dests).mem = s.mem := rfl

@[simp] theorem withRecord_mem (s : State) (a) {f : State → Nat → State} (h : ∀ s r, (f s r).mem = s.mem) : (s.withRecord a f).mem = s.mem := by
  unfold State.withRecord
  split <;> simp [h]

@[simp] theorem execCarrive_mem (s : State) (gd a b) : memAfter (execCarrive gd a b s) = s.mem := by
  refine guarded_mem gd ?_
  dsimp only
  split
  · simp -implicitDefEqProofs
  · split <;> simp -implicitDefEqProofs

@[simp] theorem execAwait_mem (s : State) (gd d a i kw) : memAfter (execAwait gd d a i kw s) = s.mem := by
  refine guarded_mem gd ?_
  split
  · simp -implicitDefEqProofs
  · split <;> simp -implicitDefEqProofs

@[simp] theorem awaitOne_mem (s : State) (tid w) : (State.awaitOne tid s w).mem = s.mem := by
  unfold State.awaitOne
  split
  · split <;> simp -implicitDefEqProofs
  · simp -implicitDefEqProofs

@[simp] theorem awaitTest_mem (s : State) (tid) : (s.awaitTest tid).mem = s.mem := by simp [State.awaitTest]

@[simp] theorem execTsubmitRetry_mem (s : State) (tid) : memAfter (execTsubmitRetry tid s) = s.mem := by
  simp only [execTsubmitRetry]
  split <;> simp

@[simp] theorem applyStage_mem (s : State) (die c t) : (s.applyStage die c t).mem = s.mem := by
  simp only [State.applyStage]
  split <;> simp

@[simp] theorem applySched_mem (s : State) (die c w) : (s.applySched die c w).mem = s.mem := by
  simp only [State.applySched]
  split <;> simp

/-! ## Suspend -/

@[simp] theorem execSuspend_mem (s : State) (gd d a) : memAfter (execSuspend gd d a s) = s.mem := by
  refine guarded_mem gd (withPages_mem s _ _ (withPages_mem s _ _ ?_))
  split
  · simp
  · rw [fuseLeave_mem, orphanRings_mem, State.updMe_mem]
    exact foldl_mem (fun _ _ => State.updThread_mem _ _ _) _ _

@[simp] theorem updSusp_mem (s : State) (die x f) : (s.updSusp die x f).mem = s.mem := rfl

@[simp] theorem freeMembers_mem (s : State) (members) : (s.freeMembers members).mem = s.mem := by
  refine (foldl_mem (fun s m => by simp) _ _).trans (foldl_mem (fun s m => ?_) _ s)
  split <;> rfl

@[simp] theorem giveUp_mem (s : State) (die r x) : (s.giveUp die r x).mem = s.mem := by simp [State.giveUp]

@[simp] theorem addSwap_mem (s : State) (h op) : (s.addSwap h op).mem = s.mem := rfl

@[simp] theorem failHam_mem (s : State) (h o i) : (s.failHam h o i).mem = s.mem := by simp [State.failHam]

@[simp] theorem execResume_mem (s : State) (gd a p) : memAfter (execResume gd a p s) = s.mem := by
  refine guarded_mem gd (withPages_mem s _ _ (withPages_mem s _ _ ?_))
  split <;> simp

@[simp] theorem execHcopy_mem (s : State) (gd d a b) : memAfter (execHcopy gd d a b s) = s.mem := by
  refine guarded_mem gd (withPages_mem s _ _ (withPages_mem s _ _ (withPages_mem s _ _ ?_)))
  dsimp only
  split <;> simp

@[simp] theorem loseSwap_mem (s : State) (die o lock i) : (s.loseSwap die o lock i).mem = s.mem := by simp [State.loseSwap]

@[simp] theorem execHdiscard_mem (s : State) (gd d a) : memAfter (execHdiscard gd d a s) = s.mem := by
  refine guarded_mem gd (withPages_mem s _ _ ?_)
  dsimp only
  split <;> simp

/-! ## Package -/

@[simp] theorem flushMarks_mem (s : State) (die) : (s.flushMarks die).mem = s.mem := by simp [State.flushMarks]

@[simp] theorem fatalCode_mem (s : State) (ev) : (s.fatalCode ev).2.mem = s.mem := by
  unfold State.fatalCode
  split <;> simp -implicitDefEqProofs

@[simp] theorem acctCmd_mem (s : State) (op d r) : (s.acctCmd op d r).mem = s.mem := rfl

@[simp] theorem updEnergy_mem (s : State) (f) : (s.updEnergy f).mem = s.mem := rfl

@[simp] theorem applyAcct_mem (s : State) (c) : (s.applyAcct c).mem = s.mem := by
  unfold State.applyAcct
  split <;> simp

@[simp] theorem settleAcct_mem (s : State) : s.settleAcct.mem = s.mem := by simp [State.settleAcct]

@[simp] theorem execEnergySample_mem (s : State) (nJ) : memAfter (execEnergySample nJ s) = s.mem := by simp -implicitDefEqProofs [execEnergySample]

@[simp] theorem execEnergyInterval_mem (s : State) : memAfter (execEnergyInterval s) = s.mem := by simp [execEnergyInterval]

@[simp] theorem extend_mem (s : State) (image) : (s.extend image).mem = s.mem := rfl

@[simp] theorem lockStore_mem (s : State) (die) : (s.lockStore die).mem = s.mem := rfl

@[simp] theorem bootFails_mem (s : State) : s.bootFails.mem = s.mem := rfl

@[simp] theorem invalidate_mem (s : State) (x) : (s.invalidate x).mem = s.mem := rfl

@[simp] theorem execTlbiComplete_mem (s : State) (k) : memAfter (execTlbiComplete k s) = s.mem := by
  unfold execTlbiComplete
  split <;> simp -implicitDefEqProofs

/-! ## Fabric -/

@[simp] theorem updFab_mem (s : State) (f) : (s.updFab f).mem = s.mem := rfl

@[simp] theorem updBnd_mem (s : State) (f) : (s.updBnd f).mem = s.mem := rfl

@[simp] theorem queuePkt_mem (s : State) (port inp buf p) : (s.queuePkt port inp buf p).mem = s.mem := rfl

@[simp] theorem otherPort_mem (s : State) (dev) : (s.otherPort dev).2.mem = s.mem := by
  simp only [State.otherPort]
  split
  · simp -implicitDefEqProofs
  · split <;> simp -implicitDefEqProofs

@[simp] theorem reroute_mem (s : State) (inp buf p) : (s.reroute inp buf p).mem = s.mem := by
  simp only [State.reroute]
  split <;> simp

@[simp] theorem injectPkt_mem (s : State) (p) : (s.injectPkt p).mem = s.mem := by
  simp only [State.injectPkt]
  repeat' split
  all_goals simp

@[simp] theorem sendPkt_mem (s : State) (p) : (s.sendPkt p).mem = s.mem := by simp [State.sendPkt]

@[simp] theorem rerouteAll_mem (s : State) (port) : (s.rerouteAll port).mem = s.mem := by simp [State.rerouteAll]

@[simp] theorem departFrom_mem (s : State) (qs gone heads kept) : (s.departFrom qs gone heads kept).mem = s.mem := by
  induction qs generalizing s gone heads kept with
  | nil => rfl
  | cons q qs ih =>
    unfold State.departFrom
    split <;> simp [ih]

@[simp] theorem depart_mem (s : State) : s.depart.mem = s.mem := by simp -implicitDefEqProofs [State.depart]

@[simp] theorem laneOut_mem (s : State) (port lane) : (s.laneOut port lane).mem = s.mem := rfl

@[simp] theorem execEscapeMove_mem (s : State) (k) : memAfter (execEscapeMove k s) = s.mem := by
  unfold execEscapeMove
  split
  · simp -implicitDefEqProofs
  · split <;> simp -implicitDefEqProofs

@[simp] theorem grantTo_mem (s : State) (srcs) : (s.grantTo srcs).mem = s.mem := by
  induction srcs generalizing s with
  | nil => rfl
  | cons src rest ih =>
    simp only [State.grantTo]
    split
    · rfl
    · simp [ih]

@[simp] theorem grantCredits_mem (s : State) : s.grantCredits.mem = s.mem := by simp [State.grantCredits]

@[simp] theorem execCreditRequest_mem (s : State) (src) : memAfter (execCreditRequest src s) = s.mem := by simp [execCreditRequest]

@[simp] theorem execCreditGrant_mem (s : State) (src n) : memAfter (execCreditGrant src n s) = s.mem := rfl

@[simp] theorem execCreditExpiry_mem (s : State) (dst) : memAfter (execCreditExpiry dst s) = s.mem := by
  unfold execCreditExpiry
  split <;> simp

@[simp] theorem freeRx_mem (s : State) (k) : (s.freeRx k).mem = s.mem := by simp [State.freeRx]

@[simp] theorem sendAck_mem (s : State) (src seq) : (s.sendAck src seq).mem = s.mem := by simp [State.sendAck]

@[simp] theorem setOut_mem (s : State) (o f) : (s.setOut o f).mem = s.mem := by
  unfold State.setOut
  split <;> simp

@[simp] theorem unreachable_mem (s : State) (o) : (s.unreachable o).mem = s.mem := by
  unfold State.unreachable
  repeat' split
  all_goals simp

@[simp] theorem dropFor_mem (s : State) (dev) : (s.dropFor dev).mem = s.mem := by simp [State.dropFor]

@[simp] theorem sendFlushed_mem (s : State) (n) : (s.sendFlushed n).mem = s.mem := by
  unfold State.sendFlushed
  split <;> simp

@[simp] theorem noteFailed_mem (s : State) (dev) : (s.noteFailed dev).mem = s.mem := by
  simp only [State.noteFailed]
  split
  · simp -implicitDefEqProofs
  · split <;> simp -implicitDefEqProofs

@[simp] theorem execFailedNotice_mem (s : State) (dev) : memAfter (execFailedNotice dev s) = s.mem := by simp [execFailedNotice]

@[simp] theorem execFabricPacketSend_mem (s : State) (k) : memAfter (execFabricPacketSend k s) = s.mem := by
  simp only [execFabricPacketSend]
  repeat' split
  all_goals simp

@[simp] theorem execAckReceive_mem (s : State) (src seq) : memAfter (execAckReceive src seq s) = s.mem := by
  simp only [execAckReceive]
  split
  · simp -implicitDefEqProofs
  · split <;> simp -implicitDefEqProofs

@[simp] theorem receiveGo_mem (s : State) (p) : (s.receiveGo p).mem = s.mem := by simp [State.receiveGo]

@[simp] theorem receiveFlushed_mem (s : State) (p) : (s.receiveFlushed p).mem = s.mem := by
  unfold State.receiveFlushed
  split <;> simp

@[simp] theorem receive_mem (s : State) (p) : memAfter (s.receive p) = s.mem := by
  unfold State.receive
  split <;> simp

@[simp] theorem execPacketRoute_mem (s : State) (port p) : memAfter (execPacketRoute port p s) = s.mem := by
  simp only [execPacketRoute]
  repeat' split
  all_goals simp

@[simp] theorem loopback_mem (s : State) : memAfter s.loopback = s.mem := by
  unfold State.loopback
  split
  · simp -implicitDefEqProofs
  · split <;> simp -implicitDefEqProofs

@[simp] theorem inPod_mem (s : State) {f : State → State} (h : (f s).mem = s.mem) : (s.inPod f).mem = s.mem := by
  unfold State.inPod
  split <;> simp [h]

/-! ## Vector -/

@[simp] theorem vecPost_mem (s : State) (d z k lat rs) : (s.vecPost d z k lat rs).mem = s.mem := rfl

@[simp] theorem vecAll_mem (s : State) (d lat rs) : (s.vecAll d lat rs).mem = s.mem := rfl

@[simp] theorem vecInt_mem (s : State) (d a b e z k lat f) : (s.vecInt d a b e z k lat f).mem = s.mem := rfl

@[simp] theorem vecFp_mem (s : State) (d a b code z k f) : (s.vecFp d a b code z k f).mem = s.mem := by simp [State.vecFp]

@[simp] theorem vecFminmax_mem (s : State) (d a b z k isMax) : (s.vecFminmax d a b z k isMax).mem = s.mem := rfl

@[simp] theorem vecApprox_mem (s : State) (op d a z k) : (s.vecApprox op d a z k).mem = s.mem := rfl

@[simp] theorem maskPost_mem (s : State) (d z k lat f a b) : (s.maskPost d z k lat f a b).mem = s.mem := by simp [State.maskPost]

@[simp] theorem execVcvt_mem (s : State) (gd d a p r f) : memAfter (execVcvt gd d a p r f s) = s.mem := by
  unfold execVcvt
  split <;> simp

@[simp] theorem execVred_mem (s : State) (gd d a p k) : memAfter (execVred gd d a p k s) = s.mem := by
  unfold execVred
  split <;> simp -implicitDefEqProofs

@[simp] theorem execVscan_mem (s : State) (gd d a x p k) : memAfter (execVscan gd d a x p k s) = s.mem := by
  unfold execVscan
  split <;> simp -implicitDefEqProofs

@[simp] theorem shortVector_mem (s : State) (op d a b) : (s.shortVector op d a b).mem = s.mem := by
  unfold State.shortVector
  split <;> simp

@[simp] theorem inSlot_mem (s : State) (n) : (s.inSlot n).mem = s.mem := rfl

/-! ## Select -/

@[simp] theorem postSums_mem (s : State) (d kt code lat x y) : (s.postSums d kt code lat x y).mem = s.mem := by
  simp only [State.postSums]
  split <;> simp

@[simp] theorem postSelSums_mem (s : State) (d code lat) : (s.postSelSums d code lat).mem = s.mem := by simp [State.postSelSums]

@[simp] theorem execYargx_mem (s : State) (gd d a k x t) : memAfter (execYargx gd d a k x t s) = s.mem := by
  refine guarded_mem gd ?_
  dsimp only
  split <;> simp

/-! ## Harvest -/

@[simp] theorem enterBoundary_mem (s : State) : s.enterBoundary.mem = s.mem := rfl

@[simp] theorem arrive_mem (s : State) (cap) : (s.arrive cap).1.mem = s.mem := by
  simp only [State.arrive]
  split <;> simp

@[simp] theorem boundaryTick_mem (s : State) : s.boundaryTick.mem = s.mem := by
  simp only [State.boundaryTick]
  split <;> simp

@[simp] theorem execStep_mem (s : State) (gd d a t) : memAfter (execStep gd d a t s) = s.mem := by
  refine guarded_mem gd ?_
  split <;> simp

@[simp] theorem placeEntry_mem (s : State) (next p tok) : (s.placeEntry next p tok).mem = s.mem := by simp [State.placeEntry]

@[simp] theorem execWritePlace_mem (s : State) (k) : memAfter (execWritePlace k s) = s.mem := by
  unfold execWritePlace
  repeat' split
  all_goals simp

@[simp] theorem execSladd_mem (s : State) (gd d a b) : memAfter (execSladd gd d a b s) = s.mem := by
  refine guarded_mem gd ?_
  dsimp only
  split <;> simp -implicitDefEqProofs

@[simp] theorem forwardRow_mem (s : State) (p head dst die) : (s.forwardRow p head dst die).mem = s.mem := rfl

@[simp] theorem execTokenPlace_mem (s : State) (k) : memAfter (execTokenPlace k s) = s.mem := by
  simp only [execTokenPlace]
  repeat' split
  all_goals simp

@[simp] theorem execFlushComplete_mem (s : State) : memAfter (execFlushComplete s) = s.mem := by simp [execFlushComplete]

@[simp] theorem execCoordinatorGo_mem (s : State) : memAfter (execCoordinatorGo s) = s.mem := by simp [execCoordinatorGo]

@[simp] theorem execStepSkew_mem (s : State) : memAfter (execStepSkew s) = s.mem := by
  unfold execStepSkew
  split <;> simp

@[simp] theorem completeStep_mem (s : State) (tid b) : (s.completeStep tid b).mem = s.mem := by
  unfold State.completeStep
  split
  · split
    rw [wakeIf_mem]
    split
    · rw [postFault_mem]
      split <;> simp
    · split <;> simp
  · rfl

@[simp] theorem writePod_mem (s : State) (w) : (s.writePod w).mem = s.mem := by
  unfold State.writePod
  split <;> simp

@[simp] theorem execBoundaryComplete_mem (s : State) : memAfter (execBoundaryComplete s) = s.mem := by simp [execBoundaryComplete]

/-! ## Health -/

@[simp] theorem updUnit_mem (s : State) (u f) : (s.updUnit u f).mem = s.mem := rfl

@[simp] theorem deadUnit_mem (s : State) (u) : (s.deadUnit u).mem = s.mem := rfl

@[simp] theorem lasting_mem (s : State) (u moved) : (s.lasting u moved).mem = s.mem := by
  simp only [State.lasting]
  split <;> simp

@[simp] theorem execSelfTestVerdict_mem (s : State) (unit lasting) : memAfter (execSelfTestVerdict unit lasting s) = s.mem := by
  simp only [execSelfTestVerdict]
  split
  · simp -implicitDefEqProofs
  · split <;> simp -implicitDefEqProofs

/-! ## DieEngine -/

@[simp] theorem wantWalk_mem (s : State) (tid dom page) : (s.wantWalk tid dom page).mem = s.mem := rfl

@[simp] theorem giveWalk_mem (s : State) (die dom page r) : (s.giveWalk die dom page r).mem = s.mem := rfl

@[simp] theorem execTranslationWalk_mem (s : State) (die) : memAfter (execTranslationWalk die s) = s.mem := by
  simp only [execTranslationWalk]
  repeat' split
  all_goals simp -implicitDefEqProofs

@[simp] theorem readyRuns_mem (s : State) (tid) : (s.readyRuns tid).mem = s.mem := rfl

@[simp] theorem execLineFill_mem (s : State) (tid) : memAfter (execLineFill tid s) = s.mem := by
  simp only [execLineFill]
  repeat' split
  all_goals simp

@[simp] theorem countEdge_mem (s : State) (tid e) : (s.countEdge tid e).mem = s.mem := by
  simp only [State.countEdge]
  split <;> simp

@[simp] theorem fallThrough_mem (s : State) (tid pc next) : (s.fallThrough tid pc next).mem = s.mem := by simp [State.fallThrough]

/-! ## Firmware -/

@[simp] theorem putS1_mem (s : State) (v) : (s.putS1 v).mem = s.mem := rfl

@[simp] theorem fwRegister_mem (s : State) : s.fwRegister.mem = s.mem := by simp [State.fwRegister]

@[simp] theorem fwReload_mem (s : State) : s.fwReload.mem = s.mem := by simp [State.fwReload]

@[simp] theorem fwDone_mem (s : State) : s.fwDone.mem = s.mem := by simp [State.fwDone]

@[simp] theorem fwStop_mem (s : State) : s.fwStop.mem = s.mem := by simp [State.fwStop]

@[simp] theorem fwEnd_mem (s : State) : s.fwEnd.mem = s.mem := by simp [State.fwEnd]

@[simp] theorem fwMended_mem (s : State) : s.fwMended.mem = s.mem := by
  simp only [State.fwMended]
  repeat' split
  all_goals simp

/-! ## Issue -/

@[simp] theorem reportError_mem (s : State) (tid i) : (s.reportError tid i).mem = s.mem := by
  unfold State.reportError
  split
  · split <;> simp -implicitDefEqProofs
  · simp -implicitDefEqProofs

@[simp] theorem trapAt_mem (s : State) (tid pc i) : (s.trapAt tid pc i).1.mem = s.mem := by
  simp only [State.trapAt]
  split <;> simp

@[simp] theorem spoilAt_mem (s : State) (tid slot i pc) : (s.spoilAt tid slot i pc).mem = s.mem := by simp [State.spoilAt]

@[simp] theorem noteCorrected_mem (s : State) (tid) : (s.noteCorrected tid).mem = s.mem := by simp [State.noteCorrected]

@[simp] theorem afterIssue_mem (s : State) (p) : (s.afterIssue p).mem = s.mem := by
  simp only [State.afterIssue]
  split <;> simp

@[simp] theorem touchLine_mem (s : State) (tid va) : (s.touchLine tid va).mem = s.mem := by simp [State.touchLine]

@[simp] theorem follow_mem (s : State) (lead parts) : (s.follow lead parts).mem = s.mem := by simp -implicitDefEqProofs [State.follow]

/-! ## Cycle -/

@[simp] theorem endGroups_mem (s : State) (die) : (s.endGroups die).mem = s.mem := by simp [State.endGroups]

end Sys2Proof.Machine
end

section
/-! LEMMAS. What writes memory keeps it canonical (for O59): `X_memOk` says so of the operation `X`. All writes come down to `wf_putByte`,
`wf_putBytes` and `wf_write`; a proof follows the branches of its operation, and a branch that only updates other fields is a frame lemma. -/

namespace Sys2Proof.Machine

open Sys2Proof

/-- The outcome of an operation leaves memory in canonical form. -/
abbrev OutOk (o : Host.Outcome State Fault Refusal) : Prop := Memory.wf (memAfter o) = true

/-- What leaves memory unchanged keeps it canonical: how the frame lemmas enter the proofs about writers. -/
theorem memOk_of_mem_eq {s t : State} (e : t.mem = s.mem) (h : MemOk s) : MemOk t := by
  rw [MemOk, e]
  exact h

theorem outOk_of_mem_eq {o : Host.Outcome State Fault Refusal} {s : State} (e : memAfter o = s.mem) (h : MemOk s) : OutOk o := by
  rw [OutOk, e]
  exact h

theorem guarded_outOk {gd : Guard} {s : State} {f : State → State} (h : MemOk s) (hf : MemOk (f s)) : OutOk (guarded gd s f) := by
  unfold guarded
  split
  · exact hf
  · exact h

/-- A store, byte by byte: one that a store cannot change is ignored (R5), and every other is put. -/
theorem softBytes_memOk {s : State} {k bs} (h : MemOk s) : MemOk (s.softBytes k bs) := by
  induction bs generalizing s k with
  | nil => exact h
  | cons b bs ih =>
    unfold State.softBytes
    split
    · exact ih h
    · exact ih (wf_putByte h _ _)

theorem rekey_memOk {s : State} {unit key} (h : MemOk s) : MemOk (s.rekey unit key) := by
  grind [State.rekey, wf_putBytes]

/-- The bytes of a write of HBM: each may encrypt its unit again, which rewrites the unit's bytes (R374). -/
theorem hbmPut_memOk {s : State} {pa key bs} (h : MemOk s) : MemOk (s.hbmPut pa key bs) := by
  induction bs generalizing s pa with
  | nil => exact h
  | cons b bs ih => exact ih (memOk_of_mem_eq (overTag_mem _ _) (wf_putByte (rekey_memOk h) _ _))

theorem putPlace_memOk {s : State} {p bs} (h : MemOk s) : MemOk (s.putPlace p bs) := by
  unfold State.putPlace
  split
  · exact hbmPut_memOk h
  · exact softBytes_memOk h

theorem setDw_memOk {s : State} {key i lo n v} (h : MemOk s) : MemOk (s.setDw key i lo n v) := wf_write h _ _ _

theorem objAdd_memOk {s : State} {key n} (h : MemOk s) : MemOk (s.objAdd key n) := by
  grind [State.objAdd, setDw_memOk]

theorem objTest_memOk {s : State} {key} (h : MemOk s) : MemOk (s.objTest key) := by
  grind [State.objTest, setDw_memOk]

theorem objDecrement_memOk {s : State} {key n} (h : MemOk s) : MemOk (s.objDecrement key n) := objTest_memOk (objAdd_memOk h)

theorem objArrive_memOk {s : State} {key n} (h : MemOk s) : MemOk (s.objArrive key n) := by
  grind [State.objArrive, setDw_memOk, objTest_memOk, objAdd_memOk]

theorem objRecord_memOk {s : State} {key under addr sub ent done} (h : MemOk s) : MemOk (s.objRecord key under addr sub ent done) := by
  grind [State.objRecord, setDw_memOk]

theorem appendEntry_memOk {s : State} {from_ tgt e} (h : MemOk s) : MemOk (s.appendEntry from_ tgt e) := by
  grind [State.appendEntry, wf_write, State.updCore_mem]

theorem sendEntry_memOk {s : State} {from_ tgt e} (h : MemOk s) : MemOk (s.sendEntry from_ tgt e) := appendEntry_memOk h

theorem storeLanes_memOk {s : State} {tid blocks fuel ls} (h : MemOk s) : MemOk (s.storeLanes tid blocks fuel ls).1 := by
  fun_induction State.storeLanes <;> grind [sendEntry_memOk, putPlace_memOk]

theorem atBank_memOk {s : State} {p n op x y} (h : MemOk s) : MemOk (s.atBank p n op x y).1 := by
  grind [State.atBank, putPlace_memOk]

theorem vamoLanes_memOk {s : State} {op ls acc fl} (h : MemOk s) : MemOk (s.vamoLanes op ls acc fl).1 := by
  fun_induction State.vamoLanes <;> grind [atBank_memOk]

theorem finish_memOk {s : State} {tid a op} (h : MemOk s) : MemOk (s.finish tid a op) := memOk_of_mem_eq (finish_mem _ _ _ _) h
theorem storeRow_memOk {s : State} {k bs} (h : MemOk s) : MemOk ((s.clearEcc k bs.length).softBytes k bs) := softBytes_memOk h

/-- An access that performs writes memory through the operations above, or not at all. -/
theorem performOp_memOk {s : State} {tid a} (h : MemOk s) : MemOk (s.performOp tid a) := by
  unfold State.performOp
  cases a.op with
  | st => dsimp only; grind [finish_memOk, sendEntry_memOk, putPlace_memOk]
  | stv => exact finish_memOk (storeLanes_memOk h)
  | amo | cas => grind [finish_memOk, sendEntry_memOk, atBank_memOk, deliverFlags_mem]
  | vamo => grind [finish_memOk, vamoLanes_memOk, deliverFlags_mem]
  | peerAmo => grind [finish_memOk, deliverFlags_mem]
  | peerVamo => grind [finish_memOk, sendEntry_memOk, vamoLanes_memOk, deliverFlags_mem]
  | carrive => exact finish_memOk (objArrive_memOk h)
  | tst =>
    refine finish_memOk (memOk_of_mem_eq (State.updThread_mem _ _ _) ?_)
    exact foldl_memOk (fun s r h => storeRow_memOk h) _ h
  | snapst => exact finish_memOk (softBytes_memOk h)
  | msg => exact finish_memOk (appendEntry_memOk h)
  | ld | ldv | fence | tld | tlda | image | rpush | sladd | packets | sending => exact memOk_of_mem_eq (by simp) h

theorem performFirst_memOk {s : State} {tid p} (h : MemOk s) : MemOk (s.performFirst tid p) := by
  unfold State.performFirst
  split
  · exact performOp_memOk h
  · exact h

/-! ## Cluster -/

theorem freeEntry_memOk {s : State} {core j e} (h : MemOk s) : MemOk (s.freeEntry core j e) := by
  grind [State.freeEntry, State.updCore_mem, wf_putByte]

theorem putMasked_memOk {s : State} {place mask data} (h : MemOk s) : MemOk (s.putMasked place mask data) := by
  refine foldl_memOk (fun s w h => ?_) _ h
  refine foldl_memOk (fun s b h => softBytes_memOk h) _ ?_
  split <;> exact h

theorem applyEntry_memOk {s : State} {core j e} (h : MemOk s) : MemOk (s.applyEntry core j e) := by
  grind [State.applyEntry, State.updCore_mem, freeEntry_memOk, putMasked_memOk, softBytes_memOk, clearEcc_mem, State.updThread_mem]

theorem execQueueEntryApply_memOk {s : State} {core} (h : MemOk s) : OutOk (execQueueEntryApply core s) := by
  unfold execQueueEntryApply
  split
  · exact h
  · exact applyEntry_memOk h

theorem execMqsend_memOk {s : State} {gd d a b} (h : MemOk s) : OutOk (execMqsend gd d a b s) := by
  refine guarded_outOk h ?_
  grind [queueMisuse_mem, postVar_mem, enqueue_mem, takeCredits_mem, appendEntry_memOk]

theorem execMqrecv_memOk {s : State} {gd d a x k} (h : MemOk s) : OutOk (execMqrecv gd d a x k s) := by
  refine guarded_outOk h ?_
  grind [queueMisuse_mem, postVar_mem, freeEntry_memOk]

theorem landDelivery_memOk {s : State} {clu x} (h : MemOk s) : MemOk (s.landDelivery clu x) := by
  refine memOk_of_mem_eq (setRing_mem _ _ _ _) (memOk_of_mem_eq (State.updCore_mem _ _ _) ?_)
  refine foldl_memOk (fun s p h => memOk_of_mem_eq (tagRecord_mem _ _ _ _ _ _ _ _ _ _ _) h) _ ?_
  exact wf_putBytes (memOk_of_mem_eq (clearEcc_mem _ _ _) h) _ _

theorem execRingDeliveryLand_memOk {s : State} {clu k} (h : MemOk s) : OutOk (execRingDeliveryLand clu k s) := by
  unfold execRingDeliveryLand
  split
  · exact h
  · split
    · grind [memAfter_next, State.updCore_mem, State.updCluster_mem]
    · split
      · exact h
      · exact landDelivery_memOk h

/-! ## Engine -/

theorem engWrite_memOk {s : State} {die got dom va bs} (h : MemOk s) : MemOk (s.engWrite die got dom va bs) := by
  refine foldl_memOk (fun s p h => ?_) _ h
  split
  · exact putPlace_memOk h
  · exact h

theorem setRecState_memOk {s : State} {r st} (h : MemOk s) : MemOk (s.setRecState r st) := setDw_memOk h

theorem setRecJoin_memOk {s : State} {r j} (h : MemOk s) : MemOk (s.setRecJoin r j) := setDw_memOk h

theorem onRecord_memOk {s : State} {dom r} {f : State → State} (h : MemOk s) (hf : MemOk (f s)) : MemOk (s.onRecord dom r f) := by
  unfold State.onRecord
  split
  · exact hf
  · exact h

theorem becomeReady_memOk {s : State} {die r dom ranges} (h : MemOk s) : MemOk (s.becomeReady die r dom ranges) := by
  refine memOk_of_mem_eq (enqueueReady_mem _ _ _) (onRecord_memOk h ?_)
  exact setRecState_memOk (setDw_memOk h)

theorem atObject_memOk {s : State} {dom key} {f : State → State} (hf : ∀ s, MemOk s → MemOk (f s)) (h : MemOk s) :
    MemOk (s.atObject dom key f) := by
  have hn : MemOk (s.noteRead noTid dom key 16) := memOk_of_mem_eq (by simp) h
  unfold State.atObject
  extract_lets s1
  split
  · exact hn
  · exact hf _ hn

/-- A predecessor less: the count, the failure record of the join, or the task made ready, each a write of the record. -/
theorem decJoin_memOk {s : State} {r va by_} (h : MemOk s) : MemOk (s.decJoin r va by_) := by
  unfold State.decJoin
  extract_lets j s1
  have h1 : MemOk s1 := by cases by_ <;> exact memOk_of_mem_eq (corrected_mem _ _ _ _) h
  clear_value s1
  split
  · cases by_ <;> exact memOk_of_mem_eq (by simp) h1
  · split
    · split
      · exact atObject_memOk (fun s h => objRecord_memOk h) h1
      · exact memOk_of_mem_eq (event_mem _ _ _ _ _ _ _ _) h1
      · exact memOk_of_mem_eq (by simp) h1
    · have h2 : MemOk (s1.setRecJoin r (j - 1)) := setRecJoin_memOk h1
      split
      · refine foldl_memOk (fun s die h => ?_) _ h2
        split
        · exact h
        · exact becomeReady_memOk h
      · exact h2

/-! ## Hamper -/

theorem hamWrite_memOk {s : State} {x off bs} (h : MemOk s) : MemOk (s.hamWrite x off bs) := by
  unfold State.hamWrite
  split
  · exact putPlace_memOk h
  · exact engWrite_memOk h

theorem setHamState_memOk {s : State} {x st} (h : MemOk s) : MemOk (s.setHamState x st) := hamWrite_memOk h

theorem swapHamState_memOk {s : State} {x old gen st} (h : MemOk s) : MemOk (s.swapHamState x old gen st) := by
  unfold State.swapHamState
  split
  · exact setHamState_memOk h
  · exact h

/-! ## Copies -/

theorem moveChunk_memOk {s : State} {die c} (h : MemOk s) : MemOk (s.moveChunk die c) := by
  refine foldl_memOk (fun s m h => putPlace_memOk h) _ ?_
  split <;> exact h

theorem stopCopy_memOk {s : State} {die k c addr sub} (h : MemOk s) : MemOk (s.stopCopy die k c addr sub) := by
  unfold State.stopCopy
  extract_lets s1 s2
  have h1 : MemOk s1 := by
    unfold s1
    split
    · split
      · exact memOk_of_mem_eq (memError_mem _ _ _ _ _) h
      · exact h
    · exact h
  have h2 : MemOk s2 := memOk_of_mem_eq (dropCopy_mem _ _ _ _) h1
  clear_value s2
  split
  · exact atObject_memOk (fun s h => objRecord_memOk h) h2
  · split <;> exact memOk_of_mem_eq (by simp) h2

theorem execCopyChunk_memOk {s : State} {die k} (h : MemOk s) : OutOk (execCopyChunk die k s) := by
  unfold execCopyChunk
  dsimp only
  split
  · exact h
  · split
    · exact outOk_of_mem_eq (by simp -implicitDefEqProofs) h
    · grind [memAfter_next, engAsk_mem, engTaken_mem, moveChunk_memOk, chunkCorrected_mem, State.updDie_mem]

theorem execCopyEntryComplete_memOk {s : State} {die k} (h : MemOk s) : OutOk (execCopyEntryComplete die k s) := by
  unfold execCopyEntryComplete
  split
  · exact h
  · split
    · exact h
    · extract_lets s1 obj s2
      have h1 : MemOk s1 := memOk_of_mem_eq (dropCopy_mem _ _ _ _) h
      have h2 : MemOk s2 := by
        unfold s2
        clear_value obj
        split
        · exact atObject_memOk (fun s h => objDecrement_memOk h) h1
        · exact h1
      clear_value s2
      show MemOk _
      split
      · exact decJoin_memOk h2
      · exact h2

theorem execCopyEntryStop_memOk {s : State} {die k} (h : MemOk s) : OutOk (execCopyEntryStop die k s) := by
  unfold execCopyEntryStop
  split
  · exact h
  · grind [memAfter_next, stopCopy_memOk]

/-- The same of a fold that carries a value beside the state. -/
theorem foldl_fst_memOk {α β : Type} {g : State × β → α → State × β} (hg : ∀ x a, MemOk x.1 → MemOk (g x a).1) (l : List α)
    {x : State × β} (hx : MemOk x.1) : MemOk (l.foldl g x).1 := by
  induction l generalizing x with
  | nil => exact hx
  | cons a l ih => exact ih (hg x a hx)

/-! ## Tasks -/

theorem loadHoldings_memOk {s : State} {x ms tids} (h : MemOk s) : MemOk (s.loadHoldings x ms tids) := by
  unfold State.loadHoldings
  extract_lets ps oacc oslot ocarry tiles slots s1 s2 carry parts
  have h1 : MemOk s1 := foldl_memOk (fun s x h => by exact h) _ h
  have h2 : MemOk s2 := foldl_memOk (fun s x h => by exact h) _ h1
  clear_value s2 parts
  exact foldl_fst_memOk (fun x p h => wf_putBytes (memOk_of_mem_eq (clearEcc_mem _ _ _) h) _ _) _ h2

theorem startHamper_memOk {s : State} {x dom id tids} (h : MemOk s) : MemOk (s.startHamper x dom id tids) := by
  unfold State.startHamper
  extract_lets ms
  split
  next s1 g e =>
    have h1 : MemOk s1 := by
      have hs := formGroup_mem s (((tids.head?).map dieOf).getD 0) dom ((ms.map MemRec.mem).zip tids)
      rw [e] at hs
      exact memOk_of_mem_eq hs h
    exact loadHoldings_memOk (foldl_memOk (fun s m h => by exact h) _ h1)

/-- A task placed writes its record's state and, when it comes from a hamper, the holdings of its members. -/
theorem placeTask_memOk {s : State} {die t tids use} (h : MemOk s) : MemOk (s.placeTask die t tids use) := by
  unfold State.placeTask
  extract_lets id isRes r e ham code
  split
  extract_lets run s1 s2 s3 s4
  have h2 : MemOk s2 := by
    unfold s2
    split <;> exact h
  have h3 : MemOk s3 := by
    unfold s3
    split
    · exact h2
    · exact onRecord_memOk h2 (setRecState_memOk h2)
  refine memOk_of_mem_eq (startEntries_mem _ _) ?_
  unfold s4
  clear_value s3 ham
  split
  · exact memOk_of_mem_eq (startFresh_mem _ _ _ _) h3
  · exact swapHamState_memOk (startHamper_memOk (memOk_of_mem_eq (noteHam_mem _ _ _ _ _) h3))

theorem failHamper_memOk {s : State} {die t cause} (h : MemOk s) : MemOk (s.failHamper die t cause) := by
  unfold State.failHamper
  split
  · exact memOk_of_mem_eq (by simp) h
  · have h1 : MemOk (s.onRecord t.dom t.record fun s => (s.setRecJoin t.record 0).setRecState t.record 2) :=
      onRecord_memOk h (setRecState_memOk (setRecJoin_memOk h))
    exact memOk_of_mem_eq (by simp) h1

/-- The decision for one victim of a preemption (R340): the tokens that the preempting task spends are written to its record. -/
theorem decideVictim_memOk {s : State} {die x r} (h : MemOk s) : MemOk (s.decideVictim die x r) := by
  unfold State.decideVictim
  extract_lets fresh tok spend bit s1 s2
  have h1 : MemOk s1 := memOk_of_mem_eq (noteRecord_mem _ _ _ _) h
  have hspend (n : Nat) : MemOk (spend s1 n) := by
    unfold spend
    split
    · exact onRecord_memOk h1 (setDw_memOk h1)
    · exact h1
  have h2 : MemOk s2 := hspend 2
  clear_value s2 s1 spend
  grind [drain_mem, requestStop_mem]

theorem preempt_memOk {s : State} {die x} (h : MemOk s) : MemOk (s.preempt die x) := by
  unfold State.preempt
  extract_lets runs pend better cands
  split
  · exact h
  · split
    · exact h
    · exact foldl_memOk (fun s v h => decideVictim_memOk h) _ h

theorem execTaskPlacement_memOk {s : State} {die} (h : MemOk s) : OutOk (execTaskPlacement die s) := by
  unfold execTaskPlacement
  split
  · exact h
  · extract_lets order taken
    split
    extract_lets s1 s2 s3
    have h2 : MemOk s2 := by
      refine foldl_memOk (fun s t h => ?_) _ (foldl_memOk (fun s t h => by exact h) _ h)
      split
      · exact h
      · split
        · exact h
        · exact memOk_of_mem_eq (engAsk_mem _ _ _ _ _ _) h
    have htaken {s : State} {t} (h : MemOk s) : MemOk (taken s t) := by
      unfold taken
      split
      · exact h
      · exact memOk_of_mem_eq (engTaken_mem _ _ _) h
    have h3 : MemOk s3 := by
      unfold s3
      clear_value taken s2
      split
      · exact h2
      · exact htaken (placeTask_memOk h2)
      · exact htaken (failHamper_memOk h2)
    clear_value s3
    split
    · exact h3
    · show MemOk _
      split
      · exact preempt_memOk h3
      · exact h3

theorem execHamperLoadComplete_memOk {s : State} {die k} (h : MemOk s) : OutOk (execHamperLoadComplete die k s) := by
  unfold execHamperLoadComplete
  split
  · exact h
  · extract_lets x
    split
    · exact h
    · rename_i l _ s1 _
      have h1 : MemOk s1 := swapHamState_memOk h
      show MemOk _
      split
      · exact onRecord_memOk h1 (setDw_memOk h1)
      · exact h1

theorem completeTask_memOk {s : State} {die r} (h : MemOk s) : MemOk (s.completeTask die r) := by
  unfold State.completeTask
  extract_lets s1
  split
  · exact h
  · extract_lets waiters s2 succs s3
    have h2 : MemOk s2 := foldl_memOk (fun s d h => by exact h) _ h
    have hn : MemOk (s2.noteRecord r 56 8) := memOk_of_mem_eq (noteRecord_mem _ _ _ _) h2
    exact foldl_memOk (fun s w h => decJoin_memOk h) _ (onRecord_memOk hn (setRecState_memOk hn))

theorem leaveTask_memOk {s : State} {tid id} (h : MemOk s) : MemOk (s.leaveTask tid id) := by
  grind [State.leaveTask, updRun_mem, completeTask_memOk]

theorem execThreadFree_memOk {s : State} {tid} (h : MemOk s) : OutOk (execThreadFree tid s) := by
  have hf : MemOk (s.freeSequencer tid) := memOk_of_mem_eq (freeSequencer_mem _ _) h
  unfold execThreadFree
  split
  · exact h
  · dsimp only
    split
    · exact hf
    · exact leaveTask_memOk hf

theorem execKillRequeue_memOk {s : State} {die k} (h : MemOk s) : OutOk (execKillRequeue die k s) := by
  unfold execKillRequeue
  split
  · exact h
  · split
    · exact h
    · split
      · exact h
      · exact memOk_of_mem_eq (requeue_mem _ _ _ _ _) (onRecord_memOk h (setRecState_memOk (setRecJoin_memOk h)))

theorem applySubmit_memOk {s : State} {die c r d} (h : MemOk s) : MemOk (s.applySubmit die c r d) := by
  grind [State.applySubmit, failDie_mem, noteWord_mem, corrected_mem, State.updDie_mem, setRecJoin_memOk, setDw_memOk,
    becomeReady_memOk, setRecState_memOk, State.updThread_mem, endX_mem, dropCmd_mem]

theorem applyLaunch_memOk {s : State} {die c r od nb} (h : MemOk s) : MemOk (s.applyLaunch die c r od nb) := by
  unfold State.applyLaunch
  grind [State.updThread_mem, endX_mem, dropCmd_mem, failDie_mem, noteWord_mem, State.updDie_mem, setRecState_memOk, corrected_mem]

theorem execPendingLaunchDrain_memOk {s : State} {die} (h : MemOk s) : OutOk (execPendingLaunchDrain die s) := by
  unfold execPendingLaunchDrain
  split
  · exact h
  · split
    · exact h
    · extract_lets s1 va trap s2 new
      have h2 : MemOk s2 := setDw_memOk (memOk_of_mem_eq (corrected_mem _ _ _ _) h)
      clear_value trap
      split
      · refine outOk_of_mem_eq (s := s1) ?_ h
        dsimp only
        split <;> simp
      · split
        · exact becomeReady_memOk h2
        · exact memOk_of_mem_eq (State.updDie_mem _ _ _) (setRecState_memOk h2)

/-! ## Suspend -/

theorem beginWriting_memOk {s : State} {die x} (h : MemOk s) : MemOk (s.beginWriting die x) :=
  memOk_of_mem_eq (updSusp_mem _ _ _ _) (hamWrite_memOk h)

theorem seal_memOk {s : State} {die x used} (h : MemOk s) : MemOk (s.seal die x used) := by
  unfold State.seal
  extract_lets y det gen s1 s2 s3
  have h3 : MemOk s3 := hamWrite_memOk (hamWrite_memOk (memOk_of_mem_eq (State.updHub_mem _ _) h))
  clear_value s3
  exact foldl_memOk (fun s d h => by exact h) _ h3

theorem execSuspendComplete_memOk {s : State} {die k} (h : MemOk s) : OutOk (execSuspendComplete die k s) := by
  unfold execSuspendComplete
  split
  · exact h
  · split
    · exact h
    · split
      · grind [memAfter_next, failSuspend_mem, beginWriting_memOk]
      · split
        · exact h
        · split
          · exact memOk_of_mem_eq (failSuspend_mem _ _ _ _) (swapHamState_memOk h)
          · refine foldl_memOk (fun s p h => ?_) _ ?_
            · split
              · exact leaveTask_memOk h
              · exact h
            · exact memOk_of_mem_eq (State.updDie_mem _ _ _) (memOk_of_mem_eq (freeMembers_mem _ _) (seal_memOk h))

theorem execCheckpointWrite_memOk {s : State} {die k} (h : MemOk s) : OutOk (execCheckpointWrite die k s) := by
  unfold execCheckpointWrite
  split
  · exact h
  · split
    · split
      · grind [memAfter_next, failCheckpoint_mem, engAsk_mem, noteRecord_mem, engTaken_mem, State.updDie_mem, beginWriting_memOk]
      · grind [memAfter_next, giveUp_mem, swapHamState_memOk, State.updDie_mem, freeMembers_mem, seal_memOk, onRecord_memOk, setDw_memOk,
          setRecState_memOk, requeue_mem]
    · exact h

theorem execHcopyComplete_memOk {s : State} {die k} (h : MemOk s) : OutOk (execHcopyComplete die k s) := by
  unfold execHcopyComplete
  split
  · exact h
  · grind [memAfter_next, State.updDie_mem, noteHam_mem, loseSwap_mem, hamWrite_memOk]

theorem applySwap_memOk {s : State} {die x} (h : MemOk s) : MemOk (s.applySwap die x) := by
  unfold State.applySwap
  extract_lets y st hit lost
  split
  · grind [State.updDie_mem, setHamState_memOk, enqueueReady_mem, failAt_mem]
  · grind [setHamState_memOk, State.setThread_mem]
  · grind [State.updHub_mem, hamWrite_memOk, State.setThread_mem, loseSwap_mem]

theorem applySwaps_memOk {s : State} {die} (h : MemOk s) : MemOk (s.applySwaps die) := by
  unfold State.applySwaps
  extract_lets xs
  split
  · exact h
  · exact foldl_memOk (fun s x h => applySwap_memOk h) _ h

/-! ## Package -/

theorem fillStore_memOk {s : State} {die image} (h : MemOk s) : MemOk (s.fillStore die image) := wf_putBytes h _ _

theorem boot_memOk {s : State} {b} (h : MemOk s) : MemOk (s.boot b) := by
  grind [State.boot, bootFails_mem, extend_mem, State.updHub_mem, fillStore_memOk, lockStore_mem]

theorem setCtx_memOk {s : State} {die off lo n v} (h : MemOk s) : MemOk (s.setCtx die off lo n v) := wf_write h _ _ _

theorem resetCtx_memOk {s : State} {die} (h : MemOk s) : MemOk (s.resetCtx die) :=
  foldl_memOk (fun _ _ h => setCtx_memOk (setCtx_memOk (setCtx_memOk h))) _ (setCtx_memOk h)

/-- A canonical table stays canonical when some of its entries are dropped: the memory that a package reset keeps. -/
theorem tcanon_filter {α : Type} [DecidableEq α] (d : α) (p : Nat × α → Bool) {lo : Nat} {t : Table α} (h : tcanon d lo t = true) :
    tcanon d lo (t.filter p) = true := by
  induction t generalizing lo with
  | nil => rfl
  | cons e t ih =>
    simp only [tcanon, Bool.and_eq_true, decide_eq_true_eq] at h
    obtain ⟨⟨hlo, hd⟩, ht⟩ := h
    rw [List.filter_cons]
    split
    · simp [tcanon, hlo, hd, ih ht]
    · exact tcanon_mono d (ih ht) (by omega)

theorem execPackageReset_memOk {s : State} {b} (h : MemOk s) : OutOk (execPackageReset b s) := by
  refine boot_memOk (resetCtx_memOk (resetCtx_memOk (foldl_memOk (fun s d h => ?_) _ ?_)))
  · exact h
  · exact tcanon_filter unlisted _ h

theorem ingress_memOk {s : State} {i p} (h : MemOk s) : MemOk (s.ingress i p) := by
  grind [State.ingress, State.updHub_mem, wf_putBytes, clearEcc_mem, setDw_memOk, setRecState_memOk, setRecJoin_memOk, State.updDie_mem]

theorem execPacketIngress_memOk {s : State} {p} (h : MemOk s) : OutOk (execPacketIngress p s) := by
  unfold execPacketIngress
  split
  · exact ingress_memOk h
  · exact h

theorem execSystemCoreLineWriteback_memOk {s : State} {line data} (h : MemOk s) : OutOk (execSystemCoreLineWriteback line data s) := by
  unfold execSystemCoreLineWriteback
  grind [memAfter_next, hbmPut_memOk, clearEcc_mem]

/-! ## Fabric and Harvest -/

theorem applyFred_memOk {s : State} {p} (h : MemOk s) : MemOk (s.applyFred p) := by
  unfold State.applyFred
  extract_lets x eidx ln die off dom key bump op s1 seen s2
  have hbump (dw lo : Nat) : MemOk (bump dw lo) := setDw_memOk h
  have h1 : MemOk s1 := foldl_memOk (fun s i h => by exact wf_write h _ _ _) _ h
  have h2 : MemOk s2 := setDw_memOk h1
  clear_value s2 bump
  grind [setDw_memOk]

theorem execFredApply_memOk {s : State} {k} (h : MemOk s) : OutOk (execFredApply k s) := by
  unfold execFredApply
  split
  · exact h
  · split
    · exact h
    · exact memOk_of_mem_eq (sendAck_mem _ _ _) (memOk_of_mem_eq (freeRx_mem _ _) (applyFred_memOk h))

theorem applySladd_memOk {s : State} {die x y payload} (h : MemOk s) : MemOk (s.applySladd die x y payload).1 := by
  grind [State.applySladd, wf_putBytes, setCtx_memOk]

theorem applySlsend_memOk {s : State} {die step id dom} (h : MemOk s) : MemOk (s.applySlsend die step id dom).1 := by
  unfold State.applySlsend
  refine memOk_of_mem_eq (State.updHub_mem _ _) (foldl_memOk (fun s k h => ?_) _ h)
  exact setCtx_memOk (setCtx_memOk h)

theorem applyUnits_memOk {s : State} {all ls} (h : MemOk s) : MemOk (s.applyUnits all ls) := by
  fun_induction State.applyUnits <;> grind [wf_write, clearEcc_mem, updBnd_mem]

theorem applyRow_memOk {s : State} {e} (h : MemOk s) : MemOk (s.applyRow e) := by
  grind [State.applyRow, wf_putBytes]

theorem writeCounts_memOk {s : State} {n die} (h : MemOk s) : MemOk (s.writeCounts n die) := by
  refine memOk_of_mem_eq (State.updDie_mem _ _ _) (setCtx_memOk (setCtx_memOk (foldl_memOk (fun s j h => ?_) _ h)))
  dsimp only
  split
  · exact h
  · exact setCtx_memOk (setCtx_memOk h)

theorem execHarvestApply_memOk {s : State} (h : MemOk s) : OutOk (execHarvestApply s) := by
  unfold execHarvestApply
  extract_lets b es ws good bad s1 s2 all locs s3
  split
  · exact h
  · have h2 : MemOk s2 := memOk_of_mem_eq (by simp [s2, s1]) h
    have h3 : MemOk s3 := foldl_memOk (fun s e h => applyRow_memOk h) _ (applyUnits_memOk h2)
    exact writeCounts_memOk (writeCounts_memOk h3)

/-! ## Health and DieEngine -/

theorem execHubRegisterWrite_memOk {s : State} {w} (h : MemOk s) : OutOk (execHubRegisterWrite w s) := by
  unfold execHubRegisterWrite
  extract_lets hub pod
  split
  case h_5 =>
    dsimp only
    grind [memAfter_next, wf_putBytes, clearEcc_mem]
  case h_6 =>
    grind [memAfter_next, wf_putBytes, clearEcc_mem]
  all_goals exact outOk_of_mem_eq (by simp [hub, pod]) h

theorem applyCmd_memOk {s : State} {die c} (h : MemOk s) : MemOk (s.applyCmd die c) := by
  grind [State.applyCmd, endX_mem, dropCmd_mem, State.updThread_mem, applySubmit_memOk, applyLaunch_memOk, applyStage_mem, applySched_mem,
    applySladd_memOk, applySlsend_memOk]

theorem applySignals_memOk {s : State} {die} (h : MemOk s) : MemOk (s.applySignals die) := by
  refine foldl_memOk (fun s c h => ?_) _ h
  grind [decJoin_memOk, dropCmd_mem]

theorem execDieEngineCommandApply_memOk {s : State} {die} (h : MemOk s) : OutOk (execDieEngineCommandApply die s) := by
  unfold execDieEngineCommandApply
  extract_lets s1
  have h1 : MemOk s1 := applySignals_memOk h
  clear_value s1
  split
  · exact h1
  · exact applyCmd_memOk h1

end Sys2Proof.Machine
end

section
/-! LEMMAS. Every instruction, the issue of a bundle, the end of a cycle and so the step keep memory canonical. SETTLES O59. -/

namespace Sys2Proof.Machine

open Sys2Proof

/-! ## Dispatch -/

theorem execAccessPerformsAtHome_memOk {s : State} {tid} (h : MemOk s) : OutOk (execAccessPerformsAtHome tid s) := performFirst_memOk h

/-- Every instruction: the arms that can write memory by their own lemmas above; every other one leaves it as it was, as the frame lemmas say. -/
theorem exec_memOk (i : Instr) {s : State} (h : MemOk s) : OutOk (exec i s) := by
  cases i with
  | suspendComplete => exact execSuspendComplete_memOk h
  | hamperLoadComplete => exact execHamperLoadComplete_memOk h
  | hcopyComplete => exact execHcopyComplete_memOk h
  | ringDeliveryLand => exact execRingDeliveryLand_memOk h
  | mqsend => exact execMqsend_memOk h
  | mqrecv => exact execMqrecv_memOk h
  | queueEntryApply => exact execQueueEntryApply_memOk h
  | pendingLaunchDrain => exact execPendingLaunchDrain_memOk h
  | threadFree => exact execThreadFree_memOk h
  | taskPlacement => exact execTaskPlacement_memOk h
  | killRequeue => exact execKillRequeue_memOk h
  | checkpointWrite => exact execCheckpointWrite_memOk h
  | copyChunk => exact execCopyChunk_memOk h
  | copyEntryComplete => exact execCopyEntryComplete_memOk h
  | copyEntryStop => exact execCopyEntryStop_memOk h
  | packageReset => exact execPackageReset_memOk h
  | packetIngress p => rw [exec_packetIngress]; exact execPacketIngress_memOk h
  | hubRegisterWrite => exact execHubRegisterWrite_memOk h
  | fredApply => exact execFredApply_memOk h
  | harvestApply => exact execHarvestApply_memOk h
  | accessPerformsAtHome => exact execAccessPerformsAtHome_memOk h
  | dieEngineCommandApply => exact execDieEngineCommandApply_memOk h
  | systemCoreLineWriteback => exact execSystemCoreLineWriteback_memOk h
  | nop | br | jmp | call | callr | ret | loop | loopr | lbrk | endThread | yield | await | joinNew | join | leave | bar | fuse | decouple | rejoin
  | suspend | resume | hcopy | hdiscard | trap | gate | rft | rftN | snapst | snaprel | step | add | addi | sub | mul | mulh | mulhu | div | divu
  | rem | remu | andS | andi | orS | ori | xorS | xori | andn | shl | shli | shr | shri | sar | sari | cmp | cmpi | sel | min | max | minu | maxu
  | clz | popc | bfx | bfi | li | lih | lea | addpc | gop | movs | movz | fadd | fsub | fmul | fma | fmin | fmax | fcmp | fcvti | fcvtf | pairWord
  | vadd | vsub | vmul | vmulh | vmad | vand | vor | vxor | vshl | vshr | vsar | vmin | vmax | vabs | vcmp | vsel | vfadd | vfsub | vfmul | vfma
  | vfmin | vfmax | vfcmp | vrcp | vrsq | vexp2 | vlog2 | vcvt | vcvtWide | vqnt | vdqnt | vbsc | vperm | vbcast | vslide | vred | vscan | viota
  | vmop | vmpopPopc | vmpopFfs | vmpopGet | vmpopSet | vrng | vprune | vnm | vmovs | vins | ldB | ldH | ldW | ldD | lduB | lduH | lduW | stB | stH
  | stW | stD | ldv | stv | ldvs | stvs | ldvx | stvx | lda | sta | amo | cas | vamo | fence | tld | tlda | tst | mcall | mcallEngineStart
  | mcallRetire | routineStop | msetp | mgetp | mclaim | mrel | mzero | mnorm | mrdrow | mwrrow | mcell | mcellPre | mflow | mrout
  | configCommandApply | mtid | mtidr | mdup | tableCommandApply | mcode | mcodeFixed | codeTableFlip | mpred | mwait | ysort | ymerge | ytopkInit
  | ytopkAdd | ytopkOut | ysums | yrank | ybkt | ycmpr | yexpd | yhist | yargx | cstage | carrive | csched | rpush | rpushOpen | rpushClose | rpop
  | rstat | mqstat | queueCreditReturn | tsubmit | tsubmitRetry | tsignal | launch | launchNb | fred | sladd | slsend | slrecv | bbmark | pwrq
  | pwrres | pwrresRel | tlbi | tlbiComplete | selft | emptyBundle | lineSkip | lineFill | asyncTrap | yieldExpiry | priorityAgeing | reservationTaken
  | readyQueueEntry | stopLands | stopRequestTimeout | translationWalk | attestationQuote | keySlotWrite | grantWrite | energySample | energyInterval
  | selfTestVerdict | blackBoxClear | fatalHardwareEvent | flitCrcFail | laneOutOfService | linkDown | packetRoute | escapeMove | fabricPacketSend
  | creditRequest | creditGrant | creditExpiry | ackReceive | writePlace | tokenPlace | flushComplete | coordinatorGo | boundaryComplete | stepSkew
  | declareFailed | failedNotice | fixedLatencyWriteLands | matrixCommandEngineApply | thermalWarning | decodeCheckTrap =>
    simp -implicitDefEqProofs [OutOk, exec, h, execNop, execBr, execJmp, execCall, execCallr, execRet, execLoop, execLoopr, execEndThread, execYield,
      execJoinNew, execJoin, execLeave, execAdd, execAddi, execSub, execMul, execMulh, execMulhu, execDiv, execDivu, execRem, execRemu, execAndS,
      execAndi, execOrS, execOri, execXorS, execXori, execAndn, execShl, execShli, execShr, execShri, execSar, execSari, execCmp, execCmpi, execSel,
      execMin, execMax, execMinu, execMaxu, execClz, execPopc, execBfx, execBfi, execLi, execLih, execLea, execAddpc, execGop, execMovs, execMovz,
      execFadd, execFsub, execFmul, execFma, execFmin, execFmax, execFcmp, execFcvti, execFcvtf, execLdB, execLdH, execLdW, execLdD, execLduB,
      execLduH, execLduW, execStB, execStH, execStW, execStD, execLdv, execStv, execLdvs, execStvs, execLdvx, execStvx, execLda, execSta, execAmo,
      execCas, execVamo, execFence, execMclaim, execMrel, execMsetp, execMgetp, execMzero, execMnorm, execMwrrow, execMcell, execMcellPre, execMflow,
      execMrout, execMtid, execMtidr, execMdup, execMcode, execMcodeFixed, execMwait, execTld, execTlda, execTrap, execGate, execSnaprel, execRft,
      execRftN, execAsyncTrap, execDecodeCheckTrap, execMqstat, execRpushOpen, execRpush, execRpushClose, execRpop, execRstat, execFuse,
      execDecouple, execRejoin, execTsubmit, execTsignal, execLaunch, execLaunchNb, execCstage, execCsched, execBbmark, execBlackBoxClear,
      execFatalHardwareEvent, execThermalWarning, execPwrq, execPwrres, execPwrresRel, execGrantWrite, execKeySlotWrite, execAttestationQuote,
      execTlbi, execFlitCrcFail, execLaneOutOfService, execLinkDown, execDeclareFailed, execFred, execVadd, execVsub, execVmul, execVmulh, execVmad,
      execVand, execVor, execVxor, execVshl, execVshr, execVsar, execVmin, execVmax, execVabs, execVcmp, execVsel, execVfadd, execVfsub, execVfmul,
      execVfma, execVfmin, execVfmax, execVfcmp, execVrcp, execVrsq, execVexp2, execVlog2, execVcvtWide, execVbsc, execVqnt, execVdqnt, execVperm,
      execVbcast, execVslide, execViota, execVmovs, execVins, execVmop, execVmpopPopc, execVmpopFfs, execVmpopGet, execVmpopSet, execVrng,
      execVprune, execVnm, execPairWord, execYsort, execYmerge, execYrank, execYtopkInit, execYtopkAdd, execYtopkOut, execYsums, execYbkt, execYhist,
      execYcmpr, execYexpd, execSlsend, execSlrecv, execSelft, execEmptyBundle, execLineSkip]

/-! ## Firmware -/

theorem fwStore_memOk {s : State} {off bs} (h : MemOk s) : MemOk (s.fwStore off bs) := softBytes_memOk h

theorem fwCause_memOk {s : State} (h : MemOk s) : MemOk s.fwCause := by
  grind [State.fwCause, fwStop_mem, fwEnd_mem, putS1_mem, fwStore_memOk, rftLive_mem, State.updMe_mem]

theorem fwMend_memOk {s : State} (h : MemOk s) : MemOk s.fwMend := by
  grind [State.fwMend, dropSnap_mem, fwStore_memOk, State.updMe_mem]

/-- What resident firmware does writes memory only through `fwStore`. -/
theorem resident_memOk {s : State} {tid} {f : State → State} (hf : s.resident tid = some f) {u : State} (h : MemOk u) : MemOk (f u) := by
  unfold State.resident at hf
  extract_lets t pc args at hf
  have hargs {g : State → State} (hg : ∀ u, (g u).mem = u.mem) : MemOk (args g u) := by
    unfold args
    split
    · exact memOk_of_mem_eq (hg u) h
    · exact h
  repeat' split at hf
  all_goals cases hf
  · exact hargs fwDone_mem
  · exact hargs fwRegister_mem
  · exact hargs fwReload_mem
  · exact memOk_of_mem_eq (fwMended_mem u) h
  · exact fwMend_memOk h
  · exact fwCause_memOk h

theorem runFirmware_memOk {s : State} {tid} {f : State → State} (hf : ∀ u, MemOk u → MemOk (f u)) (h : MemOk s) :
    MemOk (s.runFirmware tid f).1 := by
  unfold State.runFirmware
  extract_lets pc c s1
  have h1 : MemOk s1 := hf _ h
  clear_value s1
  split
  · exact memOk_of_mem_eq (afterIssue_mem _ _) h1
  · exact memOk_of_mem_eq (trapAt_mem _ _ _ _) h
  · exact h

/-! ## Issue -/

theorem runOp_memOk {s : State} {tid src i} (h : MemOk s) : MemOk (s.runOp tid src i) := by
  have he := exec_memOk i (s := { s with cur := { s.cur with tid := tid, src := src, slot := slotBit i } }) h
  unfold State.runOp
  split
  next e => rwa [e] at he
  · exact h

theorem runOps_memOk {s : State} {tid src is} (h : MemOk s) : MemOk (s.runOps tid src is) := by
  induction is generalizing s with
  | nil => exact h
  | cons i is ih =>
    simp only [State.runOps]
    split
    · exact ih (runOp_memOk h)
    · exact runOp_memOk h

theorem eachPart_memOk {s : State} {f : State → Nat → State} (hf : ∀ s p, MemOk s → MemOk (f s p)) {ps} (h : MemOk s) :
    MemOk (s.eachPart f ps) := by
  induction ps generalizing s with
  | nil => exact h
  | cons p ps ih =>
    simp only [State.eachPart]
    split
    · exact ih (hf s p h)
    · exact hf s p h

theorem runBundle_memOk {s : State} {lead parts ops} (h : MemOk s) : MemOk (s.runBundle lead parts ops) := by
  unfold State.runBundle
  extract_lets cs rest s1
  have h1 : MemOk s1 := eachPart_memOk (fun s p h => by grind [runOps_memOk]) h
  split
  · exact eachPart_memOk (fun s p h => runOps_memOk h) h1
  · exact h1

theorem issueBundle_memOk {s : State} {lead parts locked pc b} (h : MemOk s) : MemOk (s.issueBundle lead parts locked pc b).1 := by
  unfold State.issueBundle
  split
  · exact h
  · extract_lets short s0 s1
    have h1 : MemOk s1 := runBundle_memOk (foldl_memOk (fun s p h => by exact h) _ h)
    clear_value s1
    split
    · exact memOk_of_mem_eq (by simp) h
    · exact memOk_of_mem_eq (by simp) h
    · split
      case h_2 => exact foldl_memOk (fun s p h => memOk_of_mem_eq (afterIssue_mem s p) h) _ h1
      all_goals exact memOk_of_mem_eq (by simp) h

theorem skipLines_memOk {s : State} {tid n} (h : MemOk s) : MemOk (s.skipLines tid n) := by
  induction n generalizing s with
  | zero => exact h
  | succ n ih =>
    unfold State.skipLines
    dsimp only
    split
    · split
      · have he := exec_memOk .lineSkip (s := { s with cur := { s.cur with tid := tid, src := tid, pc := (s.thread tid).pc } }) h
        refine ih ?_
        split
        next e => rwa [e] at he
        · exact h
      · exact h
    · exact h

theorem tryIssue_memOk {s : State} {lead parts locked} (h : MemOk s) : MemOk (s.tryIssue lead parts locked).1 := by
  unfold State.tryIssue
  split
  next f hf => exact runFirmware_memOk (fun u hu => resident_memOk hf hu) h
  · extract_lets s1 t
    have h1 : MemOk s1 := memOk_of_mem_eq (follow_mem _ _ _) (skipLines_memOk h)
    clear_value s1
    split
    · exact memOk_of_mem_eq (by simp) h1
    · exact memOk_of_mem_eq (by simp) h1
    · exact memOk_of_mem_eq (by simp) h1
    · grind [touchLine_mem, trapAt_mem, issueBundle_memOk]

theorem tryEach_memOk {s : State} {core ks} (h : MemOk s) : MemOk (s.tryEach core ks).1 := by
  induction ks generalizing s with
  | nil => exact h
  | cons k ks ih =>
    unfold State.tryEach
    split
    · exact ih h
    next parts locked _ =>
      have h1 : MemOk (s.tryIssue (4 * core + k) parts locked).1 := tryIssue_memOk h
      dsimp only
      split
      · exact foldl_memOk (fun s p h => by exact h) _ h1
      · exact ih h1

theorem deliverAll_memOk {s : State} {core} (h : MemOk s) : MemOk (s.deliverAll core) := by
  refine foldl_memOk (fun s k h => ?_) _ h
  have he := exec_memOk (.asyncTrap (4 * core + k)) h
  split
  next e => rwa [e] at he
  · exact h

theorem issueCore_memOk {s : State} {core} (h : MemOk s) : MemOk (s.issueCore core) := by
  grind [State.issueCore, State.updCore_mem, tryEach_memOk, deliverAll_memOk]

/-! ## Cycle -/

/-- An event acts through its instruction. -/
theorem run_memOk {s : State} {e : Event} (he : ∀ s, MemOk s → OutOk (e s)) (h : MemOk s) : MemOk (s.run e) := by
  have hs := he s h
  unfold State.run
  split
  next e => rwa [e] at hs
  · exact h

theorem run_memOk_of_mem {s : State} {e : Event} (he : ∀ s, memAfter (e s) = s.mem) (h : MemOk s) : MemOk (s.run e) :=
  run_memOk (fun s h => outOk_of_mem_eq (he s) h) h

theorem sweep_memOk {s : State} {f : Nat → Event} {len : State → Nat} {fuel k : Nat} (hf : ∀ k s, MemOk s → OutOk (f k s)) (h : MemOk s) :
    MemOk (s.sweep f len fuel k) := by
  induction fuel generalizing s k with
  | zero => exact h
  | succ fuel ih =>
    unfold State.sweep
    split
    · exact h
    · exact ih (run_memOk (hf k) h)

theorem sweepAll_memOk {s : State} {f : Nat → Event} {len : State → Nat} (hf : ∀ k s, MemOk s → OutOk (f k s)) (h : MemOk s) :
    MemOk (s.sweepAll f len) := sweep_memOk hf h

theorem sweepAll_memOk_of_mem {s : State} {f : Nat → Event} {len : State → Nat} (hf : ∀ k s, memAfter (f k s) = s.mem) (h : MemOk s) :
    MemOk (s.sweepAll f len) := sweep_memOk (fun k s h => outOk_of_mem_eq (hf k s) h) h

theorem onThreads_memOk {s : State} {p : Thread → Bool} {f : Nat → Event} (hf : ∀ t s, memAfter (f t s) = s.mem) (h : MemOk s) :
    MemOk (s.onThreads p f) :=
  foldl_memOk (fun _ t h => run_memOk_of_mem (hf t) h) _ h

theorem onDies_memOk {s : State} {f : Nat → Event} (hf : ∀ d s, MemOk s → OutOk (f d s)) (h : MemOk s) : MemOk (s.onDies f) :=
  run_memOk (hf 1) (run_memOk (hf 0) h)

theorem performAll_memOk {s : State} {tid p fuel} (h : MemOk s) : MemOk (s.performAll tid p fuel) := by
  induction fuel generalizing s with
  | zero => exact h
  | succ fuel ih =>
    have h1 : MemOk (s.performFirst tid p) := performFirst_memOk h
    unfold State.performAll
    split
    · exact h
    · dsimp only
      split
      · exact ih h1
      · exact h1

theorem perform_memOk {s : State} {p} (h : MemOk s) : MemOk (s.perform p) := foldl_memOk (fun _ _ h => performAll_memOk h) _ h

theorem queueUnits_memOk {s : State} {p done} (h : MemOk s) : MemOk (s.queueUnits p done).1 := by
  refine foldl_fst_memOk (fun x c h => ?_) _ h
  obtain ⟨s, done⟩ := x
  dsimp only
  split
  · split
    · exact run_memOk (fun _ => execQueueEntryApply_memOk) h
    · exact h
  · exact h

theorem queueUnits_memOk_of_eq {s t : State} {p done r} (e : s.queueUnits p done = (t, r)) (h : MemOk s) : MemOk t := by
  have hq : MemOk (s.queueUnits p done).1 := queueUnits_memOk h
  rwa [e] at hq

/-! ## The end of the cycle -/

theorem endGroups_memOk {s : State} {die} (h : MemOk s) : MemOk (s.endGroups die) := memOk_of_mem_eq (endGroups_mem s die) h

theorem endBanks_memOk {s : State} (h : MemOk s) : MemOk s.endBanks := by
  unfold State.endBanks
  extract_lets copies s1 s2 s3 s4
  have h1 : MemOk s1 := foldl_memOk (fun s d h =>
    sweepAll_memOk (fun _ _ h => execCopyEntryComplete_memOk h) (memOk_of_mem_eq (fetchEntries_mem s d) h)) _ h
  have h2 : MemOk s2 := perform_memOk (s := { s1 with atoms := [] }) h1
  have h3 : MemOk s3 := memOk_of_mem_eq (foldl_mem awaitTest_mem _ _) h2
  have h4 : MemOk s4 := perform_memOk (perform_memOk h3)
  clear_value s4
  split
  next s5 done e5 =>
  extract_lets s6
  have h5 : MemOk s5 := queueUnits_memOk_of_eq e5 h4
  have h6 : MemOk s6 := perform_memOk h5
  clear_value s6
  split
  next s7 _ e7 =>
  extract_lets s8 s9
  have h7 : MemOk s7 := queueUnits_memOk_of_eq e7 h6
  have h8 : MemOk s8 := foldl_memOk (fun _ _ h =>
    sweepAll_memOk (fun _ _ h => execCopyEntryStop_memOk h) (sweepAll_memOk (fun _ _ h => execCopyChunk_memOk h) h)) _ h7
  have h9 : MemOk s9 := foldl_memOk (fun _ _ h => sweepAll_memOk (fun _ _ h => execRingDeliveryLand_memOk h) h) _ h8
  exact foldl_memOk (fun _ c h => run_memOk_of_mem (fun s => execQueueCreditReturn_mem s c) h) _ h9

theorem endMatrix_memOk {s : State} (h : MemOk s) : MemOk s.endMatrix := by
  unfold State.endMatrix
  extract_lets busy s1 s2 s3 s4 s5
  have h1 : MemOk s1 := onThreads_memOk (fun t s => execMcallRetire_mem s t) h
  have h2 : MemOk s2 := onThreads_memOk (fun t s => execConfigCommandApply_mem s t) h1
  have h3 : MemOk s3 := onThreads_memOk (fun t s => execTableCommandApply_mem s t) h2
  have h4 : MemOk s4 := onThreads_memOk (fun t s => execMatrixCommandEngineApply_mem s t) h3
  have h5 : MemOk s5 := onThreads_memOk (fun t s => execMcallEngineStart_mem s t) h4
  exact foldl_memOk (fun _ c h => run_memOk_of_mem (fun s => execCodeTableFlip_mem s c) h) _ h5

theorem endStops_memOk {s : State} (h : MemOk s) : MemOk s.endStops := by
  unfold State.endStops
  extract_lets asked s1
  have h1 : MemOk s1 :=
    onThreads_memOk (fun t s => execStopRequestTimeout_mem s t) (onThreads_memOk (fun t s => execStopLands_mem s t) h)
  refine foldl_memOk (fun s d h => ?_) _ h1
  exact sweepAll_memOk (fun _ _ h => execHcopyComplete_memOk h) <| sweepAll_memOk (fun _ _ h => execHamperLoadComplete_memOk h) <|
    sweepAll_memOk (fun _ _ h => execCheckpointWrite_memOk h) <| sweepAll_memOk (fun _ _ h => execSuspendComplete_memOk h) h

theorem endTasks_memOk {s : State} (h : MemOk s) : MemOk s.endTasks := by
  unfold State.endTasks
  extract_lets s1 s2 s3 s4 s5
  have h1 : MemOk s1 := foldl_memOk (fun _ _ h => run_memOk (fun _ h => execThreadFree_memOk h) h) _ h
  have h2 : MemOk s2 := foldl_memOk (fun _ _ h => sweepAll_memOk (fun _ _ h => execKillRequeue_memOk h) h) _ h1
  have h3 : MemOk s3 := onDies_memOk (fun _ _ h => execDieEngineCommandApply_memOk h) h2
  have h4 : MemOk s4 := onThreads_memOk (fun t s => execTsubmitRetry_mem s t) h3
  have h5 : MemOk s5 := onDies_memOk (fun _ _ h => execPendingLaunchDrain_memOk h) h4
  refine foldl_memOk (fun s d h => ?_) _ h5
  exact sweepAll_memOk_of_mem (fun k s => execPriorityAgeing_mem s d k) (sweepAll_memOk_of_mem (fun _ s => execReadyQueueEntry_mem s d) h)

theorem endEnergy_memOk {s : State} (h : MemOk s) : MemOk s.endEnergy := by
  unfold State.endEnergy
  extract_lets s1 s2
  have h1 : MemOk s1 := by
    unfold s1
    split
    · exact h
    · exact run_memOk_of_mem (fun s => execEnergySample_mem s _) (memOk_of_mem_eq (freeNat_mem s) h)
  have h2 : MemOk s2 := run_memOk_of_mem execEnergyInterval_mem h1
  exact onDies_memOk (fun _ _ h => execTaskPlacement_memOk h) <|
    onDies_memOk (fun d s h => outOk_of_mem_eq (execReservationTaken_mem s d) h) h2

theorem loopback_memOk {s : State} (h : MemOk s) : OutOk s.loopback := outOk_of_mem_eq (loopback_mem s) h

theorem endFabric_memOk {s : State} (h : MemOk s) : MemOk s.endFabric := by
  unfold State.endFabric
  extract_lets s1 s2 s3 s4 rx s5 s6 s7 s8
  have h1 : MemOk s1 := by
    unfold s1
    split
    · exact h
    · exact sweepAll_memOk_of_mem (fun k s => execFabricPacketSend_mem s k) h
  have h2 : MemOk s2 := by
    unfold s2
    split
    · exact h1
    · exact sweepAll_memOk_of_mem (fun k s => execEscapeMove_mem s k) h1
  have h3 : MemOk s3 := by
    unfold s3
    split
    · exact h2
    · exact memOk_of_mem_eq (depart_mem s2) h2
  have h4 : MemOk s4 := run_memOk (e := State.loopback) (fun _ h => loopback_memOk h) h3
  have h5 : MemOk s5 := by
    unfold s5
    split
    · exact h4
    · exact sweepAll_memOk_of_mem (fun k s => execTokenPlace_mem s k) <|
        sweepAll_memOk_of_mem (fun k s => execWritePlace_mem s k) <| sweepAll_memOk (fun _ _ h => execFredApply_memOk h) h4
  have h6 : MemOk s6 := foldl_memOk (fun _ d h => sweepAll_memOk_of_mem (fun _ s => execCreditExpiry_mem s d) h) _ h5
  have h7 : MemOk s7 := by
    unfold s7
    split
    · exact h6
    · exact memOk_of_mem_eq (grantCredits_mem s6) h6
  have h8 : MemOk s8 := run_memOk_of_mem execCoordinatorGo_mem <| run_memOk_of_mem execStepSkew_mem <|
    run_memOk_of_mem execFlushComplete_mem h7
  exact run_memOk_of_mem execBoundaryComplete_mem (run_memOk (fun _ h => execHarvestApply_memOk h) h8)

theorem endCycle_memOk {s : State} (h : MemOk s) : MemOk s.endCycle := by
  unfold State.endCycle
  extract_lets s1 s2 s3 s4 s5 s6 s7 s8 s9 s10 s11 s12 s13 s14 s15
  have h1 : MemOk s1 := endGroups_memOk (endGroups_memOk h)
  have h2 : MemOk s2 := endEnergy_memOk h1
  have h3 : MemOk s3 := onThreads_memOk (fun t s => execYieldExpiry_mem s t) h2
  have h4 : MemOk s4 := endBanks_memOk h3
  have h5 : MemOk s5 := endMatrix_memOk h4
  have h6 : MemOk s6 := applySwaps_memOk (applySwaps_memOk (endStops_memOk h5))
  have h7 : MemOk s7 := endGroups_memOk (endGroups_memOk h6)
  have h8 : MemOk s8 := memOk_of_mem_eq (settleAcct_mem _) (endTasks_memOk h7)
  have h9 : MemOk s9 := sweepAll_memOk_of_mem (fun k s => execTlbiComplete_mem s k) h8
  have h10 : MemOk s10 := onDies_memOk (fun d s h => outOk_of_mem_eq (execTranslationWalk_mem s d) h) h9
  have h11 : MemOk s11 := onThreads_memOk (fun t s => execLineFill_mem s t) h10
  have h12 : MemOk s12 := memOk_of_mem_eq (foldl_mem clusterEnd_mem _ _) h11
  have h13 : MemOk s13 := endFabric_memOk h12
  have h14 : MemOk s14 := memOk_of_mem_eq (by rw [boundaryTick_mem, flushMarks_mem, flushMarks_mem]) h13
  have h15 : MemOk s15 := onThreads_memOk (fun t s => execFixedLatencyWriteLands_mem s t) h14
  clear_value s15
  exact h15

/-! ## The step -/

theorem advance_memOk {s : State} (h : MemOk s) : OutOk s.advance := by
  unfold State.advance
  split
  · extract_lets s1
    have h1 : MemOk s1 := h
    split
    · exact exec_memOk _ h1
    · exact h1
  · split
    · exact issueCore_memOk h
    · exact endCycle_memOk h

/-- Settles O59: an event of the agenda, the issue of a core and the end of a cycle each keep the memory canonical. -/
theorem memoryStaysCanonical : Obligations.MemoryStaysCanonical := by
  unfold Obligations.MemoryStaysCanonical
  intro s t h e
  have ht : OutOk (step s) := advance_memOk h
  rwa [e] at ht

end Sys2Proof.Machine
end

section
/-! LEMMAS. The thread generator (R76, R77): how many values `n` draws give, and which of them is the i-th. SETTLES O6. -/

namespace Sys2Proof.Machine

open Sys2Proof

theorem draws_length (n : Nat) (t : Thread) : (Thread.draws n t).1.length = n := by
  induction n generalizing t with
  | zero => rfl
  | succ n ih => simp [Thread.draws, ih]

theorem draws64_length (s : State) (n : Nat) : (s.draws64 n).1.length = n := draws_length n s.me

/-- Quarter `i` of a draw (R77). -/
theorem nth_quarters (x : DWord) {i : Nat} (h : i < 4) : nth 0 (quarters x) i = x.toNat / 2 ^ (16 * i) % 2 ^ 16 := by
  match i, h with
  | 0, _ => rfl
  | 1, _ => rfl
  | 2, _ => rfl
  | 3, _ => rfl

/-- The 16-bit values of a list of draws: value `i` is quarter `i % 4` of draw `i / 4` (R77). -/
theorem nth_flatMap_quarters (xs : List DWord) {i : Nat} (h : i / 4 < xs.length) :
    nth 0 (xs.flatMap quarters) i = (nth 0 xs (i / 4)).toNat / 2 ^ (16 * (i % 4)) % 2 ^ 16 := by
  induction xs generalizing i with
  | nil => simp at h
  | cons x xs ih =>
    have hlen : (quarters x).length = 4 := rfl
    rcases Nat.lt_or_ge i 4 with hi | hi
    · have hx : nth 0 ((x :: xs).flatMap quarters) i = nth 0 (quarters x) i := by
        simp [nth, List.getElem?_append_left (hlen ▸ hi)]
      rw [hx, nth_quarters x hi, Nat.div_eq_of_lt hi, Nat.mod_eq_of_lt hi]
      rfl
    · obtain ⟨j, rfl⟩ := Nat.exists_eq_add_of_le' hi
      have hx : nth 0 ((x :: xs).flatMap quarters) (j + 4) = nth 0 (xs.flatMap quarters) j := by
        unfold nth
        rw [List.flatMap_cons, List.getElem?_append_right (hlen ▸ hi), hlen, Nat.add_sub_cancel]
      have hj : (j + 4) / 4 = j / 4 + 1 := by omega
      rw [hj] at h ⊢
      rw [hx, ih (Nat.lt_of_succ_lt_succ h), Nat.add_mod_right]
      rfl

theorem modes_of_ne_rst (s : State) {code : Nat} (n : Nat) (h : code ≠ 5) : s.modes code n = (fun _ => modeOf code 0, s) := if_neg h

/-- RST: the modes carry the values of ceil(n/4) draws, in order (R74, R77). -/
theorem modes_rst (s : State) (n : Nat) : s.modes 5 n = (fun i => .rst (nth 0 (s.draws16 n).1 i), (s.draws16 n).2) := rfl

theorem rotl64_eq (x : DWord) {k : Nat} (h : k < 64) : rotl64 x k = x.rotateLeft k := by
  unfold BitVec.rotateLeft
  rw [Nat.mod_eq_of_lt h]
  rfl

/-- R76: one step of xoshiro256**, each new word from the old ones. -/
theorem xoshiro_eq (s0 s1 s2 s3 : DWord) :
    xoshiro s0 s1 s2 s3 = ((s1 * 5).rotateLeft 7 * 9, s0 ^^^ s1 ^^^ s3, s0 ^^^ s1 ^^^ s2, s0 ^^^ s2 ^^^ (s1 <<< 17), (s1 ^^^ s3).rotateLeft 45) := by
  have h0 : s0 ^^^ (s3 ^^^ s1) = s0 ^^^ s1 ^^^ s3 := by rw [BitVec.xor_comm s3, BitVec.xor_assoc]
  have h1 : s1 ^^^ (s2 ^^^ s0) = s0 ^^^ s1 ^^^ s2 := by rw [BitVec.xor_comm s2, ← BitVec.xor_assoc, BitVec.xor_comm s1]
  unfold xoshiro
  extract_lets r t a2 a3 b1 b0
  rw [show b0 = _ from h0, show b1 = _ from h1]
  simp only [r, a2, a3, t, BitVec.xor_comm s2 s0, BitVec.xor_comm s3 s1, rotl64_eq _ (show 7 < 64 by decide), rotl64_eq _ (show 45 < 64 by decide)]

/-- A draw returns the output of the generator and changes nothing of the thread but its seed (R76). -/
theorem draw_eq (t : Thread) :
    let s0 := tget 0 t.regs.seed 0
    let s1 := tget 0 t.regs.seed 1
    let s2 := tget 0 t.regs.seed 2
    let s3 := tget 0 t.regs.seed 3
    t.draw = ((s1 * 5).rotateLeft 7 * 9, { t with regs := { t.regs with
      seed := [(0, s0 ^^^ s1 ^^^ s3), (1, s0 ^^^ s1 ^^^ s2), (2, s0 ^^^ s2 ^^^ (s1 <<< 17)), (3, (s1 ^^^ s3).rotateLeft 45)] } }) := by
  intro s0 s1 s2 s3
  unfold Thread.draw
  extract_lets x
  rw [xoshiro_eq]

/-- Settles O6: the modes of RST are the quarters of its draws, and a draw is one step of xoshiro256**. -/
theorem roundingAndGenerator : Obligations.RoundingAndGenerator := by
  unfold Obligations.RoundingAndGenerator
  refine ⟨fun s n => ⟨fun code h => modes_of_ne_rst s n h, fun i hi => ?_, by rw [modes_rst]; rfl, draws64_length s _⟩, fun t => ?_⟩
  · have hlen : i / 4 < (s.draws64 ((n + 3) / 4)).1.length := by rw [draws64_length]; omega
    rw [modes_rst]
    exact congrArg Fp.Mode.rst (nth_flatMap_quarters _ hlen)
  · intro s0 s1 s2 s3 u
    have hu : u = { t with regs := { t.regs with
      seed := [(0, s0 ^^^ s1 ^^^ s3), (1, s0 ^^^ s1 ^^^ s2), (2, s0 ^^^ s2 ^^^ (s1 <<< 17)), (3, (s1 ^^^ s3).rotateLeft 45)] } } :=
      congrArg Prod.snd (draw_eq t)
    rw [hu]
    exact ⟨congrArg Prod.fst (draw_eq t), rfl, rfl, rfl, rfl, rfl⟩

end Sys2Proof.Machine
end

section
/-! LEMMAS. Rounding (R69 to R74): the exponent of a quotient, the codes of a format as counts of its units, and what a rounding between two
neighbouring codes gives. SETTLES O8. -/

namespace Sys2Proof.Fp

open Sys2Proof

/-! ## Powers of two that a quotient reaches -/

/-- num/den is 2^q or more: one of the two powers of two is 1. -/
def Reaches (num den : Nat) (q : Int) : Prop := den * 2 ^ q.toNat ≤ num * 2 ^ (-q).toNat

/-- num/den is 2^j units of 2^e or more exactly where it reaches 2^(e + j). -/
theorem reaches_add_iff (num den j : Nat) (e : Int) :
    Reaches num den (e + j) ↔ 2 ^ j * (den * 2 ^ e.toNat) ≤ num * 2 ^ (-e).toNat := by
  obtain ⟨t, ht⟩ : ∃ t, t = (-e).toNat - (-(e + j)).toNat := ⟨_, rfl⟩
  have hp : j + e.toNat = (e + j).toNat + t := by omega
  have hn : (-e).toNat = (-(e + j)).toNat + t := by omega
  have hl : 2 ^ j * (den * 2 ^ e.toNat) = den * 2 ^ (e + j).toNat * 2 ^ t := by
    rw [Nat.mul_left_comm, ← Nat.pow_add, hp, Nat.pow_add, Nat.mul_assoc]
  rw [hl, hn, Nat.pow_add, ← Nat.mul_assoc, Nat.mul_le_mul_right_iff (Nat.two_pow_pos t)]
  exact Iff.rfl

theorem Reaches.mono {num den : Nat} {p q : Int} (h : Reaches num den q) (hpq : p ≤ q) : Reaches num den p := by
  obtain ⟨j, rfl⟩ := Int.le.dest hpq
  exact Nat.le_trans (Nat.le_mul_of_pos_left _ (Nat.two_pow_pos j)) ((reaches_add_iff num den j p).mp h)

/-- The difference of the two logarithms is the exponent of the quotient or one above it. -/
theorem reaches_log2_sub {num : Nat} (den : Nat) (hn : num ≠ 0) : Reaches num den ((Nat.log2 num : Int) - Nat.log2 den - 1) := by
  obtain ⟨q, hq⟩ : ∃ q : Int, q = (Nat.log2 num : Int) - Nat.log2 den - 1 := ⟨_, rfl⟩
  have hexp : Nat.log2 den + 1 + q.toNat = Nat.log2 num + (-q).toNat := by omega
  rw [← hq]
  calc den * 2 ^ q.toNat ≤ 2 ^ (Nat.log2 den + 1) * 2 ^ q.toNat := Nat.mul_le_mul_right _ (Nat.le_of_lt Nat.lt_log2_self)
    _ = 2 ^ Nat.log2 num * 2 ^ (-q).toNat := by rw [← Nat.pow_add, ← Nat.pow_add, hexp]
    _ ≤ num * 2 ^ (-q).toNat := Nat.mul_le_mul_right _ (Nat.log2_self_le hn)

theorem not_reaches_log2_add (num : Nat) {den : Nat} (hd : den ≠ 0) : ¬ Reaches num den ((Nat.log2 num : Int) - Nat.log2 den + 1) := by
  obtain ⟨q, hq⟩ : ∃ q : Int, q = (Nat.log2 num : Int) - Nat.log2 den + 1 := ⟨_, rfl⟩
  have hexp : Nat.log2 num + 1 + (-q).toNat = Nat.log2 den + q.toNat := by omega
  rw [← hq]
  refine Nat.not_le_of_lt ?_
  calc num * 2 ^ (-q).toNat < 2 ^ (Nat.log2 num + 1) * 2 ^ (-q).toNat := Nat.mul_lt_mul_of_pos_right Nat.lt_log2_self (Nat.two_pow_pos _)
    _ = 2 ^ Nat.log2 den * 2 ^ q.toNat := by rw [← Nat.pow_add, ← Nat.pow_add, hexp]
    _ ≤ den * 2 ^ q.toNat := Nat.mul_le_mul_right _ (Nat.log2_self_le hd)

/-- The model's logarithm is the greatest power that the quotient reaches. -/
theorem le_floorLog2_iff {num den : Nat} (hn : num ≠ 0) (hd : den ≠ 0) (q : Int) : q ≤ floorLog2 num den ↔ Reaches num den q := by
  have greatest {k : Int} (h1 : Reaches num den k) (h2 : ¬ Reaches num den (k + 1)) : q ≤ k ↔ Reaches num den q :=
    ⟨h1.mono, fun h => Int.not_lt.mp fun hkq => h2 (h.mono hkq)⟩
  unfold floorLog2
  extract_lets k ge
  have hge : ge ↔ Reaches num den k := by
    by_cases hk : k < 0
    · simp only [ge, Reaches, hk, if_true, Int.toNat_of_nonpos (Int.le_of_lt hk), Nat.pow_zero, Nat.mul_one]
    · simp only [ge, Reaches, hk, if_false, Int.toNat_of_nonpos (show -k ≤ 0 by omega), Nat.pow_zero, Nat.mul_one]
  split
  case isTrue h => exact greatest (hge.mp h) (not_reaches_log2_add num hd)
  case isFalse h => exact greatest (reaches_log2_sub den hn) (by rw [Int.sub_add_cancel]; exact mt hge.mpr h)

/-! ## Rounding to whole units -/

/-- The count of units of 2^u is num x 2^-u by den x 2^u, whichever of the two powers is whole. -/
theorem roundUnits_eq (md : Mode) (neg : Bool) (num den : Nat) (u : Int) :
    let a := num * 2 ^ (-u).toNat
    let b := den * 2 ^ u.toNat
    roundUnits md neg num den u =
      if a % b = 0 then (a / b, false) else (if md.away neg (a / b) (a % b) b then a / b + 1 else a / b, true) := by
  unfold roundUnits
  by_cases h : u < 0
  · simp only [h, if_true, Int.toNat_of_nonpos (Int.le_of_lt h), Nat.pow_zero, Nat.mul_one]
  · simp only [h, if_false, Int.toNat_of_nonpos (show -u ≤ 0 by omega), Nat.pow_zero, Nat.mul_one]

theorem roundUnits_exact {md : Mode} {neg : Bool} {num den m : Nat} {u : Int} (hd : 0 < den)
    (h : num * 2 ^ (-u).toNat = m * (den * 2 ^ u.toNat)) : roundUnits md neg num den u = (m, false) := by
  have hb : 0 < den * 2 ^ u.toNat := Nat.mul_pos hd (Nat.two_pow_pos _)
  simp only [roundUnits_eq, h, Nat.mul_mod_left, Nat.mul_div_cancel m hb, if_true]

theorem roundUnits_inexact {md : Mode} {neg : Bool} {num den m : Nat} {u : Int}
    (h1 : m * (den * 2 ^ u.toNat) < num * 2 ^ (-u).toNat) (h2 : num * 2 ^ (-u).toNat < (m + 1) * (den * 2 ^ u.toNat)) :
    roundUnits md neg num den u =
      (if md.away neg m (num * 2 ^ (-u).toNat - m * (den * 2 ^ u.toNat)) (den * 2 ^ u.toNat) then m + 1 else m, true) := by
  have hdiv : num * 2 ^ (-u).toNat / (den * 2 ^ u.toNat) = m := Nat.div_eq_of_lt_le (Nat.le_of_lt h1) h2
  have hmod : num * 2 ^ (-u).toNat % (den * 2 ^ u.toNat) = num * 2 ^ (-u).toNat - m * (den * 2 ^ u.toNat) := by
    rw [Nat.mod_eq_sub, hdiv, Nat.mul_comm m]
  simp only [roundUnits_eq, hdiv, hmod, Nat.sub_eq_zero_iff_le, Nat.not_le_of_lt h1, if_false]

theorem le_roundUnits {md : Mode} {neg : Bool} {num den m : Nat} {u : Int} (hd : 0 < den)
    (h : m * (den * 2 ^ u.toNat) ≤ num * 2 ^ (-u).toNat) : m ≤ (roundUnits md neg num den u).1 := by
  have hdiv : m ≤ num * 2 ^ (-u).toNat / (den * 2 ^ u.toNat) := (Nat.le_div_iff_mul_le (Nat.mul_pos hd (Nat.two_pow_pos _))).mpr h
  rw [roundUnits_eq]
  split
  · exact hdiv
  · show m ≤ if _ then _ else _
    split
    · exact Nat.le_succ_of_le hdiv
    · exact hdiv

/-! ## Codes as counts of units -/

/-- The code `c`, without sign, is that of the magnitude m x 2^e, where m counts the units of its binade (R66). -/
structure Fmt.CodeOf (F : Fmt) (c m : Nat) (e : Int) : Prop where
  code : c = (e + F.frac + F.bias - 1).toNat * 2 ^ F.frac + m
  minExp : 1 - (F.bias : Int) - F.frac ≤ e
  small : m < 2 ^ (F.frac + 1)
  normal : e = 1 - (F.bias : Int) - F.frac ∨ 2 ^ F.frac ≤ m

/-- Only the code 0 holds no units: a normal magnitude holds at least 2^frac. -/
theorem Fmt.CodeOf.zero {F : Fmt} {c m : Nat} {e : Int} (g : F.CodeOf c m e) (hm : m = 0) : c = 0 := by
  have hp : 0 < 2 ^ F.frac := Nat.two_pow_pos _
  have hcode := g.code
  rcases g.normal with h | h
  · have ht : (e + F.frac + F.bias - 1).toNat = 0 := by omega
    rw [ht, Nat.zero_mul, hm] at hcode
    exact hcode
  · omega

/-- The exponent of the units in which `roundQ` counts num/den. -/
def Fmt.unit (F : Fmt) (num den : Nat) : Int := max (floorLog2 num den) (1 - (F.bias : Int)) - F.frac

/-- The code and the flags of a rounded magnitude: the last step of `roundQ` (R70, R72). -/
def Fmt.resolve (F : Fmt) (md : Mode) (neg : Bool) (code : Nat) (inexact : Bool) : Nat × Flags :=
  if F.maxCode < code then
    if F.spec = .ieee ∧ md.overflowsToInf neg then (F.signBit neg + F.infCode, OF ||| NX)
    else (F.signBit neg + F.maxCode, OF ||| NX)
  else
    (F.signBit neg + code, flagIf inexact NX ||| flagIf (inexact && decide (code < 2 ^ F.frac)) UF)

theorem roundQ_zero (F : Fmt) (md : Mode) (neg : Bool) (den : Nat) : F.roundQ md neg 0 den = (F.signBit neg, 0) := rfl

theorem roundQ_eq_resolve (F : Fmt) (md : Mode) (neg : Bool) {num : Nat} (den : Nat) (hn : num ≠ 0) :
    F.roundQ md neg num den =
      F.resolve md neg ((F.unit num den + F.frac + F.bias - 1).toNat * 2 ^ F.frac + (roundUnits md neg num den (F.unit num den)).1)
        (roundUnits md neg num den (F.unit num den)).2 := by
  simp only [Fmt.roundQ, if_neg hn]
  rfl

section
variable {F : Fmt} {c m num den : Nat} {e : Int} (g : F.CodeOf c m e) (hn : num ≠ 0) (hd : den ≠ 0)
  (h1 : m * (den * 2 ^ e.toNat) ≤ num * 2 ^ (-e).toNat)
include g hn hd h1

/-- A magnitude of m units or more is counted in units no finer. -/
theorem Fmt.CodeOf.le_unit : e ≤ F.unit num den := by
  have hmin := g.minExp
  unfold Fmt.unit
  rcases g.normal with h | h
  · omega
  · have hq : e + F.frac ≤ floorLog2 num den := by
      rw [le_floorLog2_iff hn hd, reaches_add_iff]
      exact Nat.le_trans (Nat.mul_le_mul_right _ h) h1
    omega

/-- The neighbours of a magnitude between m and m + 1 units are whole counts of the same units. -/
theorem Fmt.CodeOf.unit_eq (h2 : num * 2 ^ (-e).toNat < (m + 1) * (den * 2 ^ e.toNat)) : F.unit num den = e := by
  have hle := g.le_unit hn hd h1
  have hmin := g.minExp
  have hq : ¬ e + (F.frac + 1 : Nat) ≤ floorLog2 num den := by
    rw [le_floorLog2_iff hn hd, reaches_add_iff]
    exact Nat.not_le_of_lt (Nat.lt_of_lt_of_le h2 (Nat.mul_le_mul_right _ g.small))
  unfold Fmt.unit at hle ⊢
  omega

/-- Above m + 1 units, the rounded magnitude has a code above that of m. -/
theorem Fmt.CodeOf.lt_code (md : Mode) (neg : Bool) (h2 : (m + 1) * (den * 2 ^ e.toNat) ≤ num * 2 ^ (-e).toNat) :
    c < (F.unit num den + F.frac + F.bias - 1).toNat * 2 ^ F.frac + (roundUnits md neg num den (F.unit num den)).1 := by
  have hle := g.le_unit hn hd h1
  have hmin := g.minExp
  have hd' : 0 < den := Nat.pos_of_ne_zero hd
  rw [g.code]
  rcases Int.lt_or_eq_of_le hle with h | h
  · have hq : F.unit num den + F.frac = floorLog2 num den := by unfold Fmt.unit at h ⊢; omega
    have hr : 2 ^ F.frac ≤ (roundUnits md neg num den (F.unit num den)).1 :=
      le_roundUnits hd' ((reaches_add_iff _ _ _ _).mp ((le_floorLog2_iff hn hd _).mp (Int.le_of_eq hq)))
    have hk : (e + F.frac + F.bias - 1).toNat + 1 ≤ (F.unit num den + F.frac + F.bias - 1).toNat := by omega
    have hm := Nat.mul_le_mul_right (2 ^ F.frac) hk
    have hs := g.small
    rw [Nat.pow_succ] at hs
    rw [Nat.succ_mul] at hm
    omega
  · have hr := le_roundUnits (md := md) (neg := neg) hd' h2
    rw [← h]
    omega

end

/-! ## Rounding of a quotient into a format -/

theorem resolve_exact {F : Fmt} {code : Nat} (md : Mode) (neg : Bool) (h : code ≤ F.maxCode) :
    F.resolve md neg code false = (F.signBit neg + code, 0) := by
  simp only [Fmt.resolve, Nat.not_lt.mpr h, if_false, flagIf, Bool.false_and, Bool.false_eq_true, BitVec.or_self]

theorem resolve_inexact {F : Fmt} {code : Nat} (md : Mode) (neg : Bool) (h : code ≤ F.maxCode) :
    F.resolve md neg code true = (F.signBit neg + code, NX ||| (if code < 2 ^ F.frac then UF else 0)) := by
  simp only [Fmt.resolve, Nat.not_lt.mpr h, if_false, flagIf, Bool.true_and, decide_eq_true_eq, if_true]

theorem resolve_of_gt {F : Fmt} {code : Nat} (md : Mode) (neg inexact : Bool) (h : F.maxCode < code) :
    F.resolve md neg code inexact =
      (F.signBit neg + (if F.spec = .ieee ∧ md.overflowsToInf neg then F.infCode else F.maxCode), OF ||| NX) := by
  unfold Fmt.resolve
  rw [if_pos h]
  split <;> rfl

section
variable {F : Fmt} {c m num den : Nat} {e : Int} (g : F.CodeOf c m e) (hd : den ≠ 0)
include g hd

theorem roundQ_exact (md : Mode) (neg : Bool) (hn : num ≠ 0) (h : num * 2 ^ (-e).toNat = m * (den * 2 ^ e.toNat)) :
    F.roundQ md neg num den = F.resolve md neg c false := by
  have hb : 0 < den * 2 ^ e.toNat := Nat.mul_pos (Nat.pos_of_ne_zero hd) (Nat.two_pow_pos _)
  have hu : F.unit num den = e := g.unit_eq hn hd (Nat.le_of_eq h.symm) (by rw [h]; exact Nat.mul_lt_mul_of_pos_right (Nat.lt_succ_self m) hb)
  rw [roundQ_eq_resolve F md neg den hn, hu, roundUnits_exact (Nat.pos_of_ne_zero hd) h, ← g.code]

/-- A magnitude strictly between the codes c and c + 1 rounds to the one that the mode picks (R69). -/
theorem roundQ_between (md : Mode) (neg : Bool) (h1 : m * (den * 2 ^ e.toNat) < num * 2 ^ (-e).toNat)
    (h2 : num * 2 ^ (-e).toNat < (m + 1) * (den * 2 ^ e.toNat)) :
    F.roundQ md neg num den =
      F.resolve md neg (if md.away neg m (num * 2 ^ (-e).toNat - m * (den * 2 ^ e.toNat)) (den * 2 ^ e.toNat) then c + 1 else c) true := by
  have hn : num ≠ 0 := by rintro rfl; rw [Nat.zero_mul] at h1; exact Nat.not_lt_zero _ h1
  have hu : F.unit num den = e := g.unit_eq hn hd (Nat.le_of_lt h1) h2
  rw [roundQ_eq_resolve F md neg den hn, hu, roundUnits_inexact h1 h2]
  split
  · rw [← Nat.add_assoc, ← g.code]
  · rw [← g.code]

/-- A magnitude from the code after c on rounds to a code above c, before the check for overflow. -/
theorem roundQ_above (md : Mode) (neg : Bool) (h : (m + 1) * (den * 2 ^ e.toNat) ≤ num * 2 ^ (-e).toNat) :
    ∃ code inexact, c < code ∧ F.roundQ md neg num den = F.resolve md neg code inexact := by
  have hb : 0 < den * 2 ^ e.toNat := Nat.mul_pos (Nat.pos_of_ne_zero hd) (Nat.two_pow_pos _)
  have hn : num ≠ 0 := by
    rintro rfl
    rw [Nat.zero_mul] at h
    replace h := Nat.le_zero.mp h
    exact Nat.ne_of_gt (Nat.mul_pos m.succ_pos hb) h
  have h1 := Nat.le_trans (Nat.mul_le_mul_right _ m.le_succ) h
  exact ⟨_, _, g.lt_code hn hd h1 md neg h, roundQ_eq_resolve F md neg den hn⟩

end

/-- A finite number rounds as the quotient that it is. -/
theorem round_fin (F : Fmt) (md : Mode) (neg : Bool) (m : Nat) (e : Int) :
    F.round md (.fin neg m e) = F.roundQ md neg (m * 2 ^ e.toNat) (2 ^ (-e).toNat) := by
  change (if e < 0 then F.roundQ md neg m (2 ^ (-e).toNat) else F.roundQ md neg (m * 2 ^ e.toNat) 1) = _
  split
  case isTrue h => rw [Int.toNat_of_nonpos (Int.le_of_lt h), Nat.pow_zero, Nat.mul_one]
  case isFalse h => rw [Int.toNat_of_nonpos (show -e ≤ 0 by omega), Nat.pow_zero]

/-! ## What a format's codes hold -/

/-- A code without its sign is its exponent field above its fraction field. -/
theorem code_fields (F : Fmt) (c : Nat) : c % 2 ^ (F.exp + F.frac) = nbits c F.frac F.exp * 2 ^ F.frac + nbits c 0 F.frac := by
  rw [Nat.add_comm F.exp, Nat.pow_add, Nat.mod_mul, Nat.add_comm, Nat.mul_comm]
  simp only [nbits, Nat.pow_zero, Nat.div_one]

/-- A code that decodes to a finite number counts its units, and its top bit is the sign (R66). -/
theorem codeOf_decode {F : Fmt} {c m : Nat} {neg : Bool} {e : Int} (h : F.decode c = .fin neg m e) :
    F.CodeOf (c % 2 ^ (F.exp + F.frac)) m e ∧ neg = decide (c / 2 ^ (F.exp + F.frac) % 2 = 1) := by
  have hc := code_fields F c
  have hf : nbits c 0 F.frac < 2 ^ F.frac := Nat.mod_lt _ (Nat.two_pow_pos _)
  have hs : 2 ^ (F.frac + 1) = 2 ^ F.frac + 2 ^ F.frac := Nat.two_pow_succ _
  unfold Fmt.decode at h
  extract_lets n E f at h
  split at h
  case isTrue h0 =>
    obtain ⟨rfl, rfl, rfl⟩ := Num.fin.inj h
    have ht : (1 - (F.bias : Int) - F.frac + F.frac + F.bias - 1).toNat = 0 := by omega
    exact ⟨⟨by rw [hc, ht, show nbits c F.frac F.exp = 0 from h0], Int.le_refl _, by omega, .inl rfl⟩, rfl⟩
  case isFalse h0 =>
    split at h
    case isTrue => split at h <;> cases h
    case isFalse =>
      split at h
      case isTrue => cases h
      case isFalse =>
        obtain ⟨rfl, rfl, rfl⟩ := Num.fin.inj h
        have hE : 1 ≤ E := Nat.one_le_iff_ne_zero.mpr h0
        have ht : ((E : Int) - F.bias - F.frac + F.frac + F.bias - 1).toNat = E - 1 := by omega
        refine ⟨⟨?_, by omega, by omega, .inr (Nat.le_add_right _ _)⟩, rfl⟩
        rw [hc, ht, ← Nat.add_assoc, ← Nat.succ_mul, Nat.succ_eq_add_one, Nat.sub_add_cancel hE]

/-- Below the infinities' code every code of such a format is finite (R66). -/
theorem decode_finite {F : Fmt} {c : Nat} (hF : F.spec = .ieee) (h : c % 2 ^ (F.exp + F.frac) < F.infCode) :
    ∃ neg m e, F.decode c = .fin neg m e := by
  have hE : nbits c F.frac F.exp ≠ 2 ^ F.exp - 1 := by
    intro hE
    rw [code_fields, hE] at h
    exact absurd h (Nat.not_lt.mpr (Nat.le_add_right _ _))
  unfold Fmt.decode
  extract_lets n E f
  by_cases h0 : E = 0
  · exact ⟨_, _, _, if_pos h0⟩
  · rw [if_neg h0, if_neg (fun h => hE h.2), if_neg (fun h => by cases hF.symm.trans h.1)]
    exact ⟨_, _, _, rfl⟩

/-- A sign in its place above the rest of a code gives the code. -/
theorem signBit_add (F : Fmt) {c : Nat} (h : c < 2 ^ (F.exp + F.frac + 1)) :
    F.signBit (decide (c / 2 ^ (F.exp + F.frac) % 2 = 1)) + c % 2 ^ (F.exp + F.frac) = c := by
  have hq : c / 2 ^ (F.exp + F.frac) < 2 := Nat.div_lt_of_lt_mul (by rwa [← Nat.pow_succ])
  have hc := Nat.div_add_mod c (2 ^ (F.exp + F.frac))
  unfold Fmt.signBit
  have h01 : c / 2 ^ (F.exp + F.frac) = 0 ∨ c / 2 ^ (F.exp + F.frac) = 1 :=
    Nat.le_one_iff_eq_zero_or_eq_one.mp (Nat.le_of_lt_succ hq)
  rcases h01 with h | h
  · rw [h] at hc ⊢
    rwa [Nat.mul_zero] at hc
  · rw [h] at hc ⊢
    rwa [Nat.mul_one] at hc

/-- R69, R72: a finite number that the format holds rounds to the code it came from, in every mode, without a flag. -/
theorem round_decode {F : Fmt} {c : Nat} (md : Mode) (hF : F.spec = .ieee) (h : c % 2 ^ (F.exp + F.frac) < F.infCode)
    (hc : c < 2 ^ (F.exp + F.frac + 1)) : F.round md (F.decode c) = (c, 0) := by
  obtain ⟨neg, m, e, hdec⟩ := decode_finite hF h
  obtain ⟨g, rfl⟩ := codeOf_decode hdec
  have hmax : c % 2 ^ (F.exp + F.frac) ≤ F.maxCode := by
    unfold Fmt.maxCode
    rw [hF]
    exact Nat.le_sub_one_of_lt h
  have hpow (k : Int) : 2 ^ k.toNat ≠ 0 := Nat.ne_of_gt (Nat.two_pow_pos _)
  rw [hdec, round_fin]
  rcases Nat.eq_zero_or_pos m with rfl | hm
  · rw [Nat.zero_mul, roundQ_zero, ← Nat.add_zero (F.signBit _), ← g.zero rfl, signBit_add F hc]
  · rw [roundQ_exact g (hpow _) md _ (Nat.mul_ne_zero (Nat.ne_of_gt hm) (hpow _)) (by rw [Nat.mul_assoc, Nat.mul_comm (2 ^ _)]),
      resolve_exact md _ hmax, signBit_add F hc]

/-! ## Rounding of a quotient to an integer -/

/-- A magnitude strictly between n and n + 1 rounds to the one that the mode picks, and is then held in range (R70, R72). -/
theorem roundIntQ_between (lo hi : Int) (md : Mode) (neg : Bool) {n r d : Nat} (hr : 0 < r) (hrd : r < d) :
    roundIntQ lo hi md neg (n * d + r) d =
      let v := signed neg (if md.away neg n r d then n + 1 else n)
      if v < lo then (lo, OF ||| NX ||| SAT) else if hi < v then (hi, OF ||| NX ||| SAT) else (v, NX) := by
  have h : roundUnits md neg (n * d + r) d 0 = (if md.away neg n r d then n + 1 else n, true) := by
    have hone : 2 ^ (0 : Int).toNat = 1 := rfl
    have key := roundUnits_inexact (md := md) (neg := neg) (num := n * d + r) (den := d) (m := n) (u := 0)
    rw [Int.neg_zero, hone, Nat.mul_one, Nat.mul_one, Nat.add_sub_cancel_left] at key
    exact key (Nat.lt_add_of_pos_right hr) (by rw [Nat.succ_mul]; exact Nat.add_lt_add_left hrd _)
  unfold roundIntQ
  rw [h]
  rfl

/-! ## The obligation -/

theorem Fmt.CodeOf.mod_two {F : Fmt} {c m : Nat} {e : Int} (g : F.CodeOf c m e) (hF : 0 < F.frac) : c % 2 = m % 2 := by
  obtain ⟨k, hk⟩ := Nat.exists_eq_succ_of_ne_zero (Nat.ne_of_gt hF)
  rw [g.code, hk, Nat.pow_succ, ← Nat.mul_assoc, Nat.mul_add_mod_self_right]

/-- The formats of Table 3-1 have a fraction field, and their largest finite code has no sign bit. -/
theorem fmt_bounds {F : Fmt} (h : F = fp32 ∨ ∃ n, fmtOf n = some F) : 0 < F.frac ∧ F.maxCode < 2 ^ (F.exp + F.frac) := by
  rcases h with rfl | ⟨n, h⟩
  · decide
  · unfold fmtOf at h
    split at h <;> cases h <;> decide

/-- The mode's choice between neighbours, from the parity of the code in place of that of the count (Table 3-3, R73, R74). -/
theorem away_of_parity (md : Mode) (neg : Bool) {c m : Nat} (h : c % 2 = m % 2) (r d : Nat) : md.away neg c r d = md.away neg m r d := by
  cases md <;> simp [Mode.away, h]

/-- Settles O8: a format's codes count units of 2^e, `roundQ` counts in the units of the code below, and the mode picks the count. -/
theorem roundingIsExact : Obligations.RoundingIsExact := by
  unfold Obligations.RoundingIsExact
  refine ⟨fun md neg num den => ?_, fun md c => ⟨round_decode (F := fp32) md rfl, round_decode (F := bf16) md rfl, round_decode (F := fp16) md rfl⟩⟩
  intro up toInf
  have hup : ∀ c r d, up c r d ↔ md.away neg c r d = true := by
    intro c r d
    cases md <;> simp [up, Mode.away]
  have hinf : toInf ↔ md.overflowsToInf neg = true := by
    cases md <;> simp [toInf, Mode.overflowsToInf]
  clear_value up
  refine ⟨?_, fun F n k => round_fin F md neg n k, ?_⟩
  · intro F c m e hF hdec hc a b sg flow hb
    obtain ⟨hfrac, hmax⟩ := fmt_bounds hF
    obtain ⟨g, -⟩ := codeOf_decode hdec
    rw [Nat.mod_eq_of_lt (Nat.lt_of_le_of_lt hc hmax)] at g
    have hd : den ≠ 0 := Nat.ne_of_gt (Nat.pos_of_mul_pos_right hb)
    have hflow : flow = (F.signBit neg + (if F.spec = .ieee ∧ md.overflowsToInf neg = true then F.infCode else F.maxCode), OF ||| NX) := by
      simp only [flow, hinf]
      rfl
    have hpar := away_of_parity md neg (g.mod_two hfrac) (a - m * b) b
    refine ⟨fun h1 h2 => ?_, fun hcm h => ?_⟩
    · have hround := roundQ_between g hd md neg h1 h2
      rw [← hpar] at hround
      refine ⟨fun hlo => ?_, fun hhi hcm => ?_, fun hhi hcm => ?_⟩
      · rw [hround, if_neg (mt (hup _ _ _).mpr hlo), resolve_inexact md neg hc]
        rfl
      · rw [hround, if_pos ((hup _ _ _).mp hhi), resolve_inexact md neg hcm]
        rfl
      · rw [hround, if_pos ((hup _ _ _).mp hhi), resolve_of_gt md neg true (hcm ▸ Nat.lt_succ_self c), hflow]
    · obtain ⟨code, inexact, hcode, hround⟩ := roundQ_above g hd md neg h
      rw [hround, resolve_of_gt md neg inexact (hcm ▸ hcode), hflow]
  · intro lo hi n r d hr hrd v fits
    have hround := roundIntQ_between lo hi md neg (n := n) hr hrd
    refine ⟨fun hlo => ?_, fun hhi => ?_⟩
    · rw [hround, if_neg (mt (hup _ _ _).mpr hlo)]
      rfl
    · rw [hround, if_pos ((hup _ _ _).mp hhi)]
      rfl

end Sys2Proof.Fp
end

section
/-! LEMMAS. Scalar FP32 (R84, R122 to R124): what each operation posts when its guard holds, and the conversion to integers as a rounding held in
the integer's range. SETTLES O7. -/

namespace Sys2Proof.Machine

open Sys2Proof

/-! ## What each shared operation posts (R122 to R124) -/

section
variable {s : State} {gd : Guard} (h : s.guard gd = true) (d a b : BitVec 5)
include h

theorem scalarFp_true (r : BitVec 4) (f : Fp.Mode → Word → Word → Word → Word × Fp.Flags) :
    let m := s.modes (s.roundCode4 r) 1
    let v := f (m.1 0) (low32 (s.s a)) (low32 (s.s b)) (low32 (s.s d))
    scalarFp gd d a b r f s = .next ((m.2.flags v.2).postS d (v.1.setWidth 64) 4) := guarded_true _ h

theorem scalarMinMax_true (isMax : Bool) :
    let v := Fp.fminmax isMax (low32 (s.s a)) (low32 (s.s b))
    scalarMinMax gd d a b isMax s = .next ((s.flags v.2).postS d (v.1.setWidth 64) 2) := guarded_true _ h

theorem execFcmp_true (c : BitVec 3) :
    let v := Fp.fcmp c.toNat (low32 (s.s a)) (low32 (s.s b))
    execFcmp gd d a b c s = .next ((s.flags v.2).postG d v.1 2) := guarded_true _ h

theorem execFcvti_true (u : BitVec 1) (r : BitVec 4) :
    let m := s.modes (s.roundCode4 r) 1
    let v := Fp.toInt (u == 1) 64 (m.1 0) (low32 (s.s a))
    execFcvti gd d a u r s = .next ((m.2.flags v.2).postS d (BitVec.ofNat 64 v.1) 3) := guarded_true _ h

theorem execFcvtf_true (u : BitVec 1) (r : BitVec 4) :
    let m := s.modes (s.roundCode4 r) 1
    let v := Fp.ofIntF (m.1 0) (if u = 1 then (s.s a).toNat else (s.s a).toInt)
    execFcvtf gd d a u r s = .next ((m.2.flags v.2).postS d (v.1.setWidth 64) 3) := guarded_true _ h

end

/-! ## Values -/

/-- The minimum and the maximum, by the NaNs among the operands (R84). -/
theorem fminmax_eq (isMax : Bool) (x y : Word) :
    Fp.fminmax isMax x y =
      (if ((Fp.f32 x).isNan && (Fp.f32 y).isNan) = true then 0x7FC00000#32
       else if (Fp.f32 x).isNan = true then y
       else if (Fp.f32 y).isNan = true then x
       else if isMax = true then (if Fp.ltSigned (Fp.f32 x) (Fp.f32 y) = true then y else x)
       else (if Fp.ltSigned (Fp.f32 y) (Fp.f32 x) = true then y else x),
       if ((Fp.f32 x).isSnan || (Fp.f32 y).isSnan) = true then Fp.NV else 0) := by
  unfold Fp.fminmax Fp.flagIf
  dsimp only
  generalize (if ((Fp.f32 x).isSnan || (Fp.f32 y).isSnan) = true then Fp.NV else 0) = fl
  split
  · rfl
  split
  · rfl
  split
  · rfl
  split
  · rfl
  · rfl

theorem ofNat_wrapN (n : Nat) (x : Int) : BitVec.ofNat n (wrapN n x) = BitVec.ofInt n x := by
  apply BitVec.eq_of_toNat_eq
  have hn : (0 : Int) < (2 ^ n : Nat) := Int.natCast_pos.mpr (Nat.two_pow_pos n)
  have hx : (x % (2 ^ n : Nat)).toNat < 2 ^ n := (Int.toNat_lt (Int.emod_nonneg x (Int.ne_of_gt hn))).mpr (Int.emod_lt_of_pos x hn)
  rw [BitVec.toNat_ofNat, BitVec.toNat_ofInt]
  exact Nat.mod_eq_of_lt hx

/-- A conversion to 64 bits is the rounding held in the range of the signed or the unsigned integers (R85, R124). -/
theorem toInt_64 (u : BitVec 1) (md : Fp.Mode) (x : Word) :
    let v := Fp.roundInt (if u = 1 then 0 else -(2 ^ 63)) (if u = 1 then 2 ^ 64 - 1 else 2 ^ 63 - 1) md (Fp.f32 x)
    Fp.toInt (u == 1) 64 md x = (wrapN 64 v.1, v.2) := by
  unfold Fp.toInt
  by_cases hu : u = 1 <;> simp [hu]

/-- Settles O7: each operation posts what its shared operation gives, which is the stated rounding or choice by definition. -/
theorem scalarFloat : Obligations.ScalarFloat := by
  unfold Obligations.ScalarFloat
  refine ⟨fun s gd d a b r h => ?_, fun s gd d a b h => ?_⟩
  · intro md t x y z done
    have hdone (v : Fp.Num × Fp.Flags) : done v 0 =
        (t.flags (v.2 ||| (Fp.fp32.round md v.1).2)).postS d ((BitVec.ofNat 32 (Fp.fp32.round md v.1).1).setWidth 64) 4 :=
      congrArg (fun f : Fp.Flags => (t.flags (f ||| _)).postS d _ 4) BitVec.zero_or
    refine ⟨?_, ?_, ?_, scalarFp_true h d a b r Fp.fma⟩
    · rw [hdone]
      exact scalarFp_true h d a b r (fun md x y _ => Fp.fadd md x y)
    · rw [hdone]
      exact scalarFp_true h d a b r (fun md x y _ => Fp.fsub md x y)
    · rw [hdone]
      exact scalarFp_true h d a b r (fun md x y _ => Fp.fmul md x y)
  · intro wx wy x y sig pick
    refine ⟨?_, ?_, execFcmp_true h d a b, fun u r => ⟨?_, execFcvtf_true h d a u r⟩⟩
    · refine (scalarMinMax_true h d a b false).trans ?_
      rw [fminmax_eq]
      rfl
    · refine (scalarMinMax_true h d a b true).trans ?_
      rw [fminmax_eq]
      rfl
    · refine (execFcvti_true h d a u r).trans ?_
      rw [toInt_64, ofNat_wrapN]
      rfl

end Sys2Proof.Machine
end
